-- ==== Sys2Proof/Word.lean ====
section
/-! DEFINITION. Word.lean: the word types and the sparse table type of the model (R4, R5). -/

namespace Sys2Proof

/-- One byte. -/
abbrev Byte := BitVec 8

/-- A 16-bit half word. -/
abbrev Half := BitVec 16

/-- The 32-bit word of registers, lanes and instruction words (R46, R49). -/
abbrev Word := BitVec 32

/-- A 64-bit address or time value. -/
abbrev DWord := BitVec 64

/-- A sparse table: keys strictly rising, no entry equal to the table's default (the operations of
`Machine/Ops.lean` keep that form). -/
abbrev Tbl (α : Type) := List (Nat × α)

/-- A byte memory, in the same form (the default byte is 0). -/
abbrev Mem := List Host.Cell

end Sys2Proof
end

