-- ==== Sys2Proof/Syntax.lean ====
section
/-! DEFINITION. Syntax.lean: the commands of the block, one constructor of `Instr` per row of the opcode table, and the
types of their operands. -/

namespace Sys2Proof

/-- A physical core, with its router: region, core row, physical column c00 to c16 (R18–R20). -/
structure CoreRef where
  region : Fin 512
  row : Fin 32
  col : Fin 17
  deriving DecidableEq, Repr

/-- The unit id of a physical core, which is also the model's key of it (R411, class 0). -/
def CoreRef.key (c : CoreRef) : Nat := c.region.val + 512 * c.row.val + 16384 * c.col.val

/-- The fields of the R format (R49). -/
structure FmtR where
  d : BitVec 5
  a : BitVec 5
  b : BitVec 5
  pr : BitVec 3
  deriving DecidableEq, Repr

/-- The fields of the I format (R49). -/
structure FmtI where
  d : BitVec 5
  a : BitVec 5
  imm : BitVec 16
  deriving DecidableEq, Repr

/-- The fields of the B format (R49). -/
structure FmtB where
  a : BitVec 5
  b : BitVec 5
  off : BitVec 16
  deriving DecidableEq, Repr

/-- The fields of the L format (R49, R58). -/
structure FmtL where
  lv : BitVec 1
  ci : BitVec 1
  cnt : BitVec 12
  len : BitVec 12
  deriving DecidableEq, Repr

/-- The fields of the M format (R49, R60). -/
structure FmtM where
  d : BitVec 5
  x : BitVec 3
  pm : BitVec 2
  pr : BitVec 3
  off : BitVec 13
  deriving DecidableEq, Repr

/-- The fields of the T format (R49, R64). -/
structure FmtT where
  td : BitVec 2
  ty : BitVec 3
  xa : BitVec 3
  xb : BitVec 3
  kc : BitVec 4
  z : BitVec 1
  rsv : BitVec 10
  deriving DecidableEq, Repr

/-- The fields of the C format (R49) beside its function code. -/
structure FmtC where
  k : BitVec 5
  x : BitVec 3
  n : BitVec 4
  d : BitVec 5
  e : BitVec 5
  deriving DecidableEq, Repr

/-- The flit sideband of a head flit (R107); LANE, PHASE and the walk fields are kept per packet. -/
structure Sideband where
  vc : BitVec 2 := 0
  lane : BitVec 1 := 0
  phase : BitVec 2 := 0
  corner : BitVec 1 := 0
  dir : BitVec 2 := 0
  side : BitVec 2 := 0
  dstCore : BitVec 18 := 0
  dstModule : BitVec 4 := 0
  dstQueue : BitVec 3 := 0
  kind : BitVec 2 := 0
  tenant : BitVec 5 := 0
  channel : BitVec 12 := 0xFFF
  tide : BitVec 32 := 0xFFFFFFFF
  block : Bool := false
  walks : BitVec 4 := 0
  deriving DecidableEq, Repr

/-- The block header flit (R108). -/
structure BlkHdr where
  tag : BitVec 16 := 0
  staged : Bool := false
  untided : Bool := false
  tide : BitVec 32 := 0
  seq : BitVec 32 := 0
  check : BitVec 32 := 0
  srcCore : BitVec 18 := 0
  srcModule : BitVec 4 := 0
  channel : BitVec 12 := 0xFFF
  deriving DecidableEq, Repr

/-- A frame on one group of an SHI as its receiver finds it: its CRC matches, and its side bits (R221–R223). -/
structure ShiFrame where
  good : Bool
  typ : BitVec 2
  seq : BitVec 7
  ackv : Bool
  ackseq : BitVec 7
  nak : Bool
  crVc : BitVec 2
  crLane : BitVec 1
  crCount : BitVec 3
  deriving DecidableEq, Repr

/-- What a peer module sends in a packet unit: a VC1, VC2 or VC3 packet, or what a VC0 flit carries (R258, R259, R279). -/
inductive PeerUnit where
  | packet (sb : Sideband) (hdr : Option BlkHdr) (bytes : List (BitVec 8))
  | syncReq (home : BitVec 9) (op : BitVec 8) (obj : BitVec 17) (operand : BitVec 32) (core : BitVec 18) (module : BitVec 4)
      (eng : BitVec 3) (tenant : BitVec 5)
  | syncAns (core : BitVec 18) (obj : BitVec 17) (op : BitVec 8) (result : BitVec 8)
  | engAns (eng : BitVec 3) (obj : BitVec 17) (result : BitVec 8)
  | grantReturn (home : BitVec 9) (obj : BitVec 17) (core : BitVec 18) (module : BitVec 4) (lost : Bool)
  | forfeit (core : BitVec 18) (module : BitVec 4)
  | forfeitRegion (region : BitVec 9) (module : BitVec 4)
  deriving DecidableEq, Repr

/-- A unit of a Xeulend link as its receiver finds it (R257, R258, R265): its codewords (0 clean, 1 corrected, 2 beyond
correction), its HCRC, TYPE, SEQ, the VC, credits and acknowledgement fields of a control unit, and what a peer's packet holds. -/
structure XlUnit where
  fec : Fin 3
  hcrc : Bool
  typ : BitVec 3
  seq : BitVec 12
  vc : BitVec 2
  credits : BitVec 10
  ackv : Bool
  ackseq : BitVec 12
  nak : Bool
  peer : Option PeerUnit
  deriving DecidableEq, Repr

/-- IDENT (R268): partner kind (1 module, 2 Harbour), PART, MAJOR, serial number, port, and a module's DOM_CTL fields. -/
structure Ident where
  kind : Fin 3
  part : BitVec 16
  major : BitVec 8
  serial : BitVec 64
  port : BitVec 4
  domain : BitVec 16
  module : BitVec 4
  size : BitVec 4
  priority : BitVec 4
  deriving DecidableEq, Repr

/-- A word of Harbour DRAM that an access finds in error: its bank in [31:27] and its number in the bank in [26:0]; `value` is
none for one wrong bit, which is corrected, and otherwise the uncorrectable word as it is read (R306). -/
structure DramErr where
  word : BitVec 32
  value : Option (BitVec 64)
  deriving DecidableEq, Repr

/-- A host-memory read: of a pair's doorbell record, of its entries, or of the command at place `j` of an engine. -/
inductive HostRead where
  | doorbell (fn : Fin 32) (pair : BitVec 8)
  | entries (fn : Fin 32) (pair : BitVec 8)
  | command (e : Fin 13) (j : Nat)
  deriving DecidableEq, Repr

/-- Where a message of R488 comes from, and where its answer goes: PF0's mailbox, SMBus, a PCIe vendor-defined message of a
function on HA or HB, or the management pair of a Xeulend cage. -/
inductive Via where
  | mailbox
  | smbus
  | vdm (port : Fin 2) (fn : Fin 32)
  | pair (cage : Fin 16)
  deriving DecidableEq, Repr

/-- A message for Lighthouse; the bytes of one from the mailbox lie in its request area. -/
structure LhMsg where
  via : Via
  bytes : List (BitVec 8)
  deriving DecidableEq, Repr

/-- A node of the management network: Lighthouse, a region's seawall node, or a bridge. -/
inductive Node where
  | lighthouse
  | region (n : Fin 512)
  | bridge (b : Fin 32)
  deriving DecidableEq, Repr

/-- What a seawall or monitor frame orders of its receiver; the contents of the other types are taken by rows of their own. -/
inductive FrameBody where
  | other (typ : BitVec 8)
  | reg (write : Bool) (space : Fin 6) (unit : BitVec 32) (off : BitVec 32) (wide : Bool) (value mask : BitVec 64)
  | scrub (seed : BitVec 32)
  | slideBack (row : Fin 32)
  | test (row : Fin 32) (col : Fin 17)
  deriving DecidableEq, Repr

/-- A seawall or monitor frame as a node finds it (R471, R472, R474). -/
structure SwFrame where
  src : Node
  dst : Node
  seq : BitVec 16
  good : Bool
  body : FrameBody
  deriving DecidableEq, Repr

/-- What a phase of bring-up finds (R443–R458): its duration; a fatal finding; the units that fail it; in phase 6 the
testers (0 west, 1 north) that report FAIL for a core, or nothing; in phase 10 the seed of the scrub of every region. -/
structure PhaseFinds where
  ms : Nat
  fatal : Bool
  bad : List (BitVec 32)
  fails : List (CoreRef × Fin 2)
  silent : List (CoreRef × Fin 2)
  seed : BitVec 32
  deriving DecidableEq, Repr

/-- A module image as Lighthouse verifies it: its header, whether the key matches its fuse slot and the signature checks, and
whether TARGET matches (R493). -/
structure FwImage where
  version : BitVec 32
  svn : BitVec 16
  key : Fin 4
  signed : Bool
  target : Bool
  deriving DecidableEq, Repr

/-- A host write: to BAR0 of a function, with its offset, whether it is 8 B, and the data; or to VF Enable and NumVFs of the SR-IOV
capability of a host port (R327, R330, R331). -/
inductive HostReg where
  | bar (fn : Fin 32) (off : BitVec 20) (wide : Bool) (value : BitVec 64)
  | srIov (port : Fin 2) (enable : Bool) (numVfs : BitVec 16)
  deriving DecidableEq, Repr


/-- The commands (R49 for rows 0 to 136; the rule of each row is named in its docstring). -/
inductive Instr where
  /-- ILLEGAL (R50): Executing an illegal word, including major opcode 0x00 or a non-zero reserved field, raises ILLEGAL and stops the core. The command carries the word. -/
  | illegal (c : CoreRef) (w : BitVec 32)
  /-- ADD (R49): SALU fn 0x00 writes sa + sb, wrapping, to sd. -/
  | add (c : CoreRef) (f : FmtR)
  /-- SUB (R49): SALU fn 0x01 writes sa - sb to sd. -/
  | sub (c : CoreRef) (f : FmtR)
  /-- AND (R49): SALU fn 0x02 writes the bitwise AND of sa and sb to sd. -/
  | and (c : CoreRef) (f : FmtR)
  /-- OR (R49): SALU fn 0x03 writes the bitwise OR of sa and sb to sd. -/
  | or (c : CoreRef) (f : FmtR)
  /-- XOR (R49): SALU fn 0x04 writes the bitwise XOR of sa and sb to sd. -/
  | xor (c : CoreRef) (f : FmtR)
  /-- SLL (R49): SALU fn 0x05 shifts sa left by sb[4:0]. -/
  | sll (c : CoreRef) (f : FmtR)
  /-- SRL (R49): SALU fn 0x06 shifts sa right logically by sb[4:0]. -/
  | srl (c : CoreRef) (f : FmtR)
  /-- SRA (R49): SALU fn 0x07 shifts sa right arithmetically by sb[4:0]. -/
  | sra (c : CoreRef) (f : FmtR)
  /-- SLT (R49): SALU fn 0x08 writes 1 to sd if sa < sb signed, else 0. -/
  | slt (c : CoreRef) (f : FmtR)
  /-- SLTU (R49): SALU fn 0x09 writes 1 to sd if sa < sb unsigned, else 0. -/
  | sltu (c : CoreRef) (f : FmtR)
  /-- MUL (R49): SALU fn 0x0A writes the low 32 bits of the product to sd. -/
  | mul (c : CoreRef) (f : FmtR)
  /-- MULH (R49): SALU fn 0x0B writes the high 32 bits of the signed product to sd. -/
  | mulh (c : CoreRef) (f : FmtR)
  /-- MULHU (R49): SALU fn 0x0C writes the high 32 bits of the unsigned product to sd. -/
  | mulhu (c : CoreRef) (f : FmtR)
  /-- MIN (R49): SALU fn 0x0D writes the signed minimum of sa and sb to sd. -/
  | min (c : CoreRef) (f : FmtR)
  /-- MAX (R49): SALU fn 0x0E writes the signed maximum of sa and sb to sd. -/
  | max (c : CoreRef) (f : FmtR)
  /-- ADDI (R49): Writes sa plus the sign-extended immediate to sd. -/
  | addi (c : CoreRef) (f : FmtI)
  /-- SLTI (R49): Writes 1 to sd if sa is below the sign-extended immediate, else 0. -/
  | slti (c : CoreRef) (f : FmtI)
  /-- ANDI (R49): Writes sa AND the zero-extended immediate to sd. -/
  | andi (c : CoreRef) (f : FmtI)
  /-- ORI (R49): Writes sa OR the zero-extended immediate to sd. -/
  | ori (c : CoreRef) (f : FmtI)
  /-- XORI (R49): Writes sa XOR the zero-extended immediate to sd. -/
  | xori (c : CoreRef) (f : FmtI)
  /-- LUI (R49): Writes imm << 16 to sd. -/
  | lui (c : CoreRef) (f : FmtI)
  /-- SLLI (R49): SHIFTI with imm[15:14] = 0b00 shifts sa left by the immediate amount. -/
  | slli (c : CoreRef) (f : FmtI)
  /-- SRLI (R49): SHIFTI with imm[15:14] = 0b01 shifts sa right logically by the immediate amount. -/
  | srli (c : CoreRef) (f : FmtI)
  /-- SRAI (R49): SHIFTI with imm[15:14] = 0b10 shifts sa right arithmetically by the immediate amount. -/
  | srai (c : CoreRef) (f : FmtI)
  /-- FADD (R47): Writes the FP32 sum of sa and sb to sd. -/
  | fadd (c : CoreRef) (f : FmtR)
  /-- FSUB (R47): Writes the FP32 difference of sa and sb to sd. -/
  | fsub (c : CoreRef) (f : FmtR)
  /-- FMUL (R47): Writes the FP32 product of sa and sb to sd. -/
  | fmul (c : CoreRef) (f : FmtR)
  /-- FMIN (R47): Writes the FP32 minimum of sa and sb to sd, with the NaN and signed-zero rules. -/
  | fmin (c : CoreRef) (f : FmtR)
  /-- FMAX (R47): Writes the FP32 maximum of sa and sb to sd, with the NaN and signed-zero rules. -/
  | fmax (c : CoreRef) (f : FmtR)
  /-- FCVTWS (R48): Converts FP32 sa to INT32 in sd, saturating. -/
  | fcvtws (c : CoreRef) (f : FmtR)
  /-- FCVTSW (R48): Converts INT32 sa to FP32 in sd, rounding to nearest even. -/
  | fcvtsw (c : CoreRef) (f : FmtR)
  /-- BEQ (R56): Branches by off when sa equals sb. -/
  | beq (c : CoreRef) (f : FmtB)
  /-- BNE (R56): Branches by off when sa differs from sb. -/
  | bne (c : CoreRef) (f : FmtB)
  /-- BLT (R56): Branches by off when sa < sb signed. -/
  | blt (c : CoreRef) (f : FmtB)
  /-- BGE (R56): Branches by off when sa >= sb signed. -/
  | bge (c : CoreRef) (f : FmtB)
  /-- BLTU (R56): Branches by off when sa < sb unsigned. -/
  | bltu (c : CoreRef) (f : FmtB)
  /-- BGEU (R56): Branches by off when sa >= sb unsigned. -/
  | bgeu (c : CoreRef) (f : FmtB)
  /-- JAL (R56): Writes the return index to sd and jumps relative to its own index. -/
  | jal (c : CoreRef) (f : FmtI)
  /-- JALR (R56): Writes the return index to sd and jumps to sa plus the immediate. -/
  | jalr (c : CoreRef) (f : FmtI)
  /-- LOOP (R58): Starts a hardware loop of level lv over the len words that follow. -/
  | loop (c : CoreRef) (f : FmtL)
  /-- AMOV (R60): Copies sa into address register ad. -/
  | amov (c : CoreRef) (f : FmtR)
  /-- SMOVA (R60): Copies address register a(xa) into sd. -/
  | smova (c : CoreRef) (f : FmtR)
  /-- AADD (R60): Writes a(xa) + sb into ad. -/
  | aadd (c : CoreRef) (f : FmtR)
  /-- ASETI (R60): Sets ad to imm × 8. -/
  | aseti (c : CoreRef) (f : FmtI)
  /-- AADDI (R60): Adds the sign-extended immediate to ad. -/
  | aaddi (c : CoreRef) (f : FmtI)
  /-- LW (R61): Loads 4 B from scratchpad into an s register. -/
  | lw (c : CoreRef) (f : FmtM)
  /-- LH (R61): Loads 2 B sign-extended into an s register. -/
  | lh (c : CoreRef) (f : FmtM)
  /-- LHU (R61): Loads 2 B zero-extended into an s register. -/
  | lhu (c : CoreRef) (f : FmtM)
  /-- LB (R61): Loads 1 B sign-extended into an s register. -/
  | lb (c : CoreRef) (f : FmtM)
  /-- LBU (R61): Loads 1 B zero-extended into an s register. -/
  | lbu (c : CoreRef) (f : FmtM)
  /-- SW (R61): Stores 4 B from an s register to scratchpad. -/
  | sw (c : CoreRef) (f : FmtM)
  /-- SH (R61): Stores 2 B from an s register to scratchpad. -/
  | sh (c : CoreRef) (f : FmtM)
  /-- SB (R61): Stores 1 B from an s register to scratchpad. -/
  | sb (c : CoreRef) (f : FmtM)
  /-- VLD (R61): Loads 128 B into the 32 lanes of a v register, predicated. -/
  | vld (c : CoreRef) (f : FmtM)
  /-- VST (R61): Stores the 32 lanes of a v register as 128 B, predicated. -/
  | vst (c : CoreRef) (f : FmtM)
  /-- VLDH (R61): Loads 64 B into the low halves of 32 lanes. -/
  | vldh (c : CoreRef) (f : FmtM)
  /-- VLDB (R61): Loads 32 B into the low bytes of 32 lanes. -/
  | vldb (c : CoreRef) (f : FmtM)
  /-- VSTH (R61): Stores the low halves of 32 lanes as 64 B. -/
  | vsth (c : CoreRef) (f : FmtM)
  /-- VSTB (R61): Stores the low bytes of 32 lanes as 32 B. -/
  | vstb (c : CoreRef) (f : FmtM)
  /-- VADD (R53): Lane-wise INT32 add, predicated. -/
  | vadd (c : CoreRef) (f : FmtR)
  /-- VSUB (R53): Lane-wise INT32 subtract, predicated. -/
  | vsub (c : CoreRef) (f : FmtR)
  /-- VMUL (R53): Lane-wise INT32 multiply keeping the low 32 bits. -/
  | vmul (c : CoreRef) (f : FmtR)
  /-- VAND (R53): Lane-wise bitwise AND. -/
  | vand (c : CoreRef) (f : FmtR)
  /-- VOR (R53): Lane-wise bitwise OR. -/
  | vor (c : CoreRef) (f : FmtR)
  /-- VXOR (R53): Lane-wise bitwise XOR. -/
  | vxor (c : CoreRef) (f : FmtR)
  /-- VSLL (R53): Lane-wise left shift by b lane [4:0]. -/
  | vsll (c : CoreRef) (f : FmtR)
  /-- VSRL (R53): Lane-wise logical right shift. -/
  | vsrl (c : CoreRef) (f : FmtR)
  /-- VSRA (R53): Lane-wise arithmetic right shift. -/
  | vsra (c : CoreRef) (f : FmtR)
  /-- VMIN (R53): Lane-wise signed minimum. -/
  | vmin (c : CoreRef) (f : FmtR)
  /-- VMAX (R53): Lane-wise signed maximum. -/
  | vmax (c : CoreRef) (f : FmtR)
  /-- VMINU (R53): Lane-wise unsigned minimum. -/
  | vminu (c : CoreRef) (f : FmtR)
  /-- VMAXU (R53): Lane-wise unsigned maximum. -/
  | vmaxu (c : CoreRef) (f : FmtR)
  /-- VFADD (R47): Lane-wise FP32 add. -/
  | vfadd (c : CoreRef) (f : FmtR)
  /-- VFSUB (R47): Lane-wise FP32 subtract. -/
  | vfsub (c : CoreRef) (f : FmtR)
  /-- VFMUL (R47): Lane-wise FP32 multiply. -/
  | vfmul (c : CoreRef) (f : FmtR)
  /-- VFMA (R47): Lane-wise fused multiply-add into vd with one rounding. -/
  | vfma (c : CoreRef) (f : FmtR)
  /-- VFMIN (R47): Lane-wise FP32 minimum. -/
  | vfmin (c : CoreRef) (f : FmtR)
  /-- VFMAX (R47): Lane-wise FP32 maximum. -/
  | vfmax (c : CoreRef) (f : FmtR)
  /-- VEXP2 (R63): Lane-wise base-2 exponential within 2 ulp. -/
  | vexp2 (c : CoreRef) (f : FmtR)
  /-- VLOG2 (R63): Lane-wise base-2 logarithm within 2 ulp. -/
  | vlog2 (c : CoreRef) (f : FmtR)
  /-- VRCP (R63): Lane-wise reciprocal within 2 ulp. -/
  | vrcp (c : CoreRef) (f : FmtR)
  /-- VRSQRT (R63): Lane-wise reciprocal square root within 2 ulp. -/
  | vrsqrt (c : CoreRef) (f : FmtR)
  /-- VCMPEQ (R53): Writes a predicate of lane-wise INT32 equality. -/
  | vcmpeq (c : CoreRef) (f : FmtR)
  /-- VCMPLT (R53): Writes a predicate of lane-wise signed less-than. -/
  | vcmplt (c : CoreRef) (f : FmtR)
  /-- VCMPLE (R53): Writes a predicate of lane-wise signed less-or-equal. -/
  | vcmple (c : CoreRef) (f : FmtR)
  /-- VFCMPEQ (R53): Writes a predicate of lane-wise FP32 equality, false on NaN. -/
  | vfcmpeq (c : CoreRef) (f : FmtR)
  /-- VFCMPLT (R53): Writes a predicate of lane-wise FP32 less-than, false on NaN. -/
  | vfcmplt (c : CoreRef) (f : FmtR)
  /-- VFCMPLE (R53): Writes a predicate of lane-wise FP32 less-or-equal, false on NaN. -/
  | vfcmple (c : CoreRef) (f : FmtR)
  /-- VSEL (R53): Selects each lane from va or vb by the predicate, writing every lane. -/
  | vsel (c : CoreRef) (f : FmtR)
  /-- VBCAST (R53): Writes sa to each enabled lane of vd. -/
  | vbcast (c : CoreRef) (f : FmtR)
  /-- VEXT (R53): Writes lane sb[4:0] of va to sd. -/
  | vext (c : CoreRef) (f : FmtR)
  /-- VSUM (R62): Writes the FP32 tree sum of the enabled lanes to sd. -/
  | vsum (c : CoreRef) (f : FmtR)
  /-- VMAXR (R62): Writes the FP32 tree maximum of the enabled lanes to sd. -/
  | vmaxr (c : CoreRef) (f : FmtR)
  /-- VSUMI (R62): Writes the INT32 tree sum of the enabled lanes to sd. -/
  | vsumi (c : CoreRef) (f : FmtR)
  /-- VCVT (R577): Converts lanes between the encoded source and destination types, with SAT. src and dst are fn[5:3] and fn[2:0]. -/
  | vcvt (c : CoreRef) (f : FmtR) (src dst : BitVec 3)
  /-- TMAC (R64): Accumulates a 16×16 tile product over K into t(td). -/
  | tmac (c : CoreRef) (f : FmtT)
  /-- TZERO (R53): Sets a tile to zero. -/
  | tzero (c : CoreRef) (f : FmtR)
  /-- TROW (R53): Copies two tile rows into a v register, predicated. -/
  | trow (c : CoreRef) (f : FmtR)
  /-- TPUT (R53): Writes two tile rows from a v register, predicated. -/
  | tput (c : CoreRef) (f : FmtR)
  /-- TST (R66): Stores a tile row-major, converting to the destination type. -/
  | tst (c : CoreRef) (f : FmtR)
  /-- TLD (R65): Loads a tile row-major from 1 KiB of 32-bit elements. -/
  | tld (c : CoreRef) (f : FmtR)
  /-- CSEND (R67): Sends one message of n + 1 flits on slot k. -/
  | csend (c : CoreRef) (f : FmtC)
  /-- CRECV (R68): Waits for a whole message at the head of queue qk and copies it out. -/
  | crecv (c : CoreRef) (f : FmtC)
  /-- CRECV_COPY (R68): When a whole message stands at the head of the queue, a waiting CRECV copies and pops it and retires. The core that waits. -/
  | crecvCopy (c : CoreRef)
  /-- CPOLL (R578): Writes the flit count of the head message of qk, or 0. -/
  | cpoll (c : CoreRef) (f : FmtC)
  /-- COPEN (R83): Binds dynamic slot k to a destination after class and tenant checks. -/
  | copen (c : CoreRef) (f : FmtC)
  /-- CCLOSE (R83): Unbinds dynamic slot k. -/
  | cclose (c : CoreRef) (f : FmtC)
  /-- BSEND (R69): Sends one 2,048 B tensor block with its CRC-32C header on slot k. -/
  | bsend (c : CoreRef) (f : FmtC)
  /-- BLAND (R70): Arms landing slot k for the next block with a given tag. -/
  | bland (c : CoreRef) (f : FmtC)
  /-- BWAIT (R70): Waits until slot k's block has landed, disarms it and writes its status. -/
  | bwait (c : CoreRef) (f : FmtC)
  /-- BTRY (R70): Reports a landed block's status, or 0xFFFF_FFFF, without waiting. -/
  | btry (c : CoreRef) (f : FmtC)
  /-- BCHK (R108): Computes the CRC-32C of 2,048 B at a(x) into sd. -/
  | bchk (c : CoreRef) (f : FmtC)
  /-- SACQ (R136): Requests to acquire a lock or take a semaphore unit and waits for the answer. -/
  | sacq (c : CoreRef) (f : FmtR)
  /-- STRY (R136): Requests an acquire without waiting at the home. -/
  | stry (c : CoreRef) (f : FmtR)
  /-- SREL (R136): Requests release of a lock or adds sb units to a semaphore. -/
  | srel (c : CoreRef) (f : FmtR)
  /-- SBAR (R136): Arrives at a barrier and waits for its release. -/
  | sbar (c : CoreRef) (f : FmtR)
  /-- SSET (R136): Requests that an event be set. -/
  | sset (c : CoreRef) (f : FmtR)
  /-- SCLR (R136): Requests that an event be cleared. -/
  | sclr (c : CoreRef) (f : FmtR)
  /-- SWAIT (R136): Waits until an event is set. -/
  | swait (c : CoreRef) (f : FmtR)
  /-- CRDL (R74): Reads the low 32 bits of a counter and snapshots all 48 bits. -/
  | crdl (c : CoreRef) (f : FmtR)
  /-- CRDH (R74): Reads the high 16 bits of the last snapshot. -/
  | crdh (c : CoreRef) (f : FmtR)
  /-- CINC (R74): Adds sb to a kernel counter. -/
  | cinc (c : CoreRef) (f : FmtR)
  /-- TEND (R75): Waits for every earlier operation, reports end of tide work and stops the sequencer. -/
  | tend (c : CoreRef) (f : FmtR)
  /-- TNUM (R75): Writes the current tide number to sd. -/
  | tnum (c : CoreRef) (f : FmtR)
  /-- TLAST (R206): Writes the tide number of the committed half to sd. -/
  | tlast (c : CoreRef) (f : FmtR)
  /-- TLEFT (R75): Writes the CCLK cycles left to the deadline to sd. -/
  | tleft (c : CoreRef) (f : FmtR)
  /-- TSTAT (R75): Writes the CLEAN, RESTORED and TAINT bits to sd. -/
  | tstat (c : CoreRef) (f : FmtR)
  /-- XSEL (R77): Selects the east or south neighbour as test target. -/
  | xsel (c : CoreRef) (f : FmtR)
  /-- XPUT (R77): Writes a word into the target's instruction store. -/
  | xput (c : CoreRef) (f : FmtR)
  /-- XDATA (R77): Copies 64 B to the target's scratchpad. -/
  | xdata (c : CoreRef) (f : FmtR)
  /-- XGO (R77): Starts the target at a word. -/
  | xgo (c : CoreRef) (f : FmtR)
  /-- XWAIT (R77): Waits until the target executes TEND. -/
  | xwait (c : CoreRef) (f : FmtR)
  /-- XWAIT_TIMEOUT (R77): After 1,048,576 cycles without target TEND, XWAIT ends with TIMEOUT. The tester that waits. -/
  | xwaitTimeout (c : CoreRef)
  /-- XSIG (R77): Reads the target's published signature. -/
  | xsig (c : CoreRef) (f : FmtR)
  /-- XVERD (R448): Reports a pass or fail verdict to the region controller. -/
  | xverd (c : CoreRef) (f : FmtR)
  /-- XPUB (R77): Target publishes a signature. -/
  | xpub (c : CoreRef) (f : FmtR)
  /-- SEQUENCER_MISMATCH (R43): A difference between the duplicated sequencers stops the core and fences it in the next cycle. -/
  | sequencerMismatch (c : CoreRef)
  /-- ISTORE_PARITY (R44): A parity error on a fetched instruction word is handled as a sequencer mismatch. -/
  | istoreParity (c : CoreRef)
  /-- PACKET_ROUTE (R109): A router routes a head flit Y first then X, resolving the slid column at the destination row. `out` is the output port: 0 N, 1 E, 2 S, 3 W, 4 core, 5 service, 6 shore (R152). -/
  | packetRoute (r : CoreRef) (out : Fin 7)
  /-- MULTICAST_FORWARD (R122): A router forwards a VC3 multicast flit to all OUT outputs when every one holds a credit. `credit` says which outputs N, E, S, W, service hold a VC3 credit. -/
  | multicastForward (r : CoreRef) (credit : BitVec 5)
  /-- MESSAGE_ADMISSION (R86): A head flit is admitted into an inbound queue when room for the whole message exists. -/
  | messageAdmission (c : CoreRef)
  /-- BLOCK_EJECTION (R91): At the VC2 ejection port a block is dropped as stale, landed in a matching slot, or waits. -/
  | blockEjection (c : CoreRef)
  /-- BLOCK_LANDING (R72): A block's payload is written word by word and its landing reported after its check. `n` is how many 64 B words are written in this step. -/
  | blockLanding (c : CoreRef) (n : BitVec 6)
  /-- STALL_WATCHDOG_FIRE (R94): A watched port without progress for LIMIT cycles fires, sets FIRED, counts and logs. `port`: 0 VC1 ejection, 1 VC2 ejection, 2 injection. -/
  | stallWatchdogFire (c : CoreRef) (port : Fin 3)
  /-- ALIVE_BEAT (R127): Every live router sends an alive beat on each link every 256 cycles. -/
  | aliveBeat (r : CoreRef)
  /-- LINK_WATCHDOG_FIRE (R129): A link watchdog at 4,096 cycles marks the hop dead, discards flits, resets credits and reports. `dir`: 0 N, 1 E, 2 S, 3 W; `cut` names (by serial) the packets that stand partly beyond the hop and are cut in two. -/
  | linkWatchdogFire (r : CoreRef) (dir : Fin 4) (cut : List Nat)
  /-- FAR_ROUTER_QUERY (R129): A far controller checks its router and answers, leading to a link or router fence. The router whose hop was reported, the hop, and the far controller's finding (no answer counts as dead). -/
  | farRouterQuery (r : CoreRef) (dir : Fin 4) (alive : Bool)
  /-- ROUTER_DOWN_NOTICE (R129): On a ROUTER_DOWN or LINK_DOWN notice a controller updates its maps and sets BROKEN on affected slots. The region that takes its next notice. -/
  | routerDownNotice (region : Fin 512)
  /-- POISON_TAIL_ARRIVAL (R97): A poison tail at a destination releases the reservation and discards the partial message. -/
  | poisonTailArrival (c : CoreRef)
  /-- STATUS_SCAN (R131): Each controller reads its routers' alive status once per 1,048,576-cycle period. `dead` names the routers found not beating. -/
  | statusScan (region : Fin 512) (dead : List (Fin 32 × Fin 17))
  /-- TABLE_REBUILD (R119): Once no engine is bound nearby, controllers rebuild tables to readmit a released router, link or region. -/
  | tableRebuild (region : Fin 512)
  /-- SYNC_REQUEST (R136): The home handles one synchronisation request per cycle by kind and operation. The home region. -/
  | syncRequest (region : Fin 512)
  /-- SYNC_ANSWER (R140): A sync answer reaching a core writes sd and ends its wait. -/
  | syncAnswer (c : CoreRef)
  /-- SYNC_FULL_REISSUE (R139): 64 cycles after a FULL answer the sync unit reissues the request. -/
  | syncFullReissue (c : CoreRef)
  /-- FORFEIT_NOTICE (R144): On a forfeit notice a controller sweeps its objects and waiter entries for the lost holder. -/
  | forfeitNotice (region : Fin 512)
  /-- GRANT_RETURN (R146): A returned grant is treated by the home as a lost or released holding. -/
  | grantReturn (region : Fin 512)
  /-- REGION_OFFLINE (R115): A region goes offline, its border routers mark it, and offline maps are updated. -/
  | regionOffline (region : Fin 512) (cause : Fin 5)
  /-- CNT_LO_READ (R153): A read of CNT_LO returns the low word and snapshots all 48 bits for that path. `path`: 0 Configuration Engine, 1 Lighthouse; `inc` is what the counter counts in the same cycle. -/
  | cntLoRead (path : Fin 2) (unit : BitVec 32) (n : BitVec 16) (inc : BitVec 48)
  /-- CNT_LO_WRITE (R156): A write of CNT_LO sets the counter to the staged high and written low word. `inc` is what the counter counts in the same cycle. -/
  | cntLoWrite (path : Fin 2) (unit : BitVec 32) (n : BitVec 16) (v : BitVec 32) (inc : BitVec 48)
  /-- CNT_HI_WRITE (R156): A write of CNT_HI stages the high bits and clears OVF or WCOL by W1C. `inc` is what the counter counts in the same cycle. -/
  | cntHiWrite (path : Fin 2) (unit : BitVec 32) (n : BitVec 16) (v : BitVec 32) (inc : BitVec 48)
  /-- CNT_FREEZE (R157): Writing FREEZE copies a group's counters into a shadow or returns reads to live. The counter `n` of the group counts `inc` in the same cycle. -/
  | cntFreeze (unit : BitVec 32) (v : BitVec 32) (n : BitVec 16) (inc : BitVec 48)
  /-- PROGRAM_FLIT (R178): A region controller writes a received program flit into every core whose record names it. The region that takes its next program flit. -/
  | programFlit (region : Fin 512)
  /-- REGION_CONFIRM (R179): A region returns RECORD_CHECK and PROGRAM_CHECK, compared with pass 1. The region that reports; `damaged`: what it received is not what was read in pass 1. -/
  | regionConfirm (region : Fin 512) (damaged : Bool)
  /-- CONFIRM_TIMEOUT (R179): 1 ms without confirmation leads to one unicast resend, then refusal. -/
  | confirmTimeout (region : Fin 512)
  /-- TIDE_START (R186): At each multiple of the period a tide starts, clean or not, and streams take their frames. The Stream Engine whose tide starts; the clock moves on to the start when that is ahead. -/
  | tideStart (e : Fin 8)
  /-- TDONE (R192): A region sends TDONE when every bound live core has executed TEND. The region that sends. -/
  | tdone (region : Fin 512)
  /-- TDONE_RECEIVE (R193): The engine records a TDONE, or discards it after the deadline. The Stream Engine that takes its next TDONE. -/
  | tdoneReceive (e : Fin 8)
  /-- DEADLINE (R193): At the deadline the engine judges the tide on time or late and Collect takes or discards outputs. -/
  | deadline (e : Fin 8)
  /-- GUARD_OPEN (R196): When the guard opens the engine sends WITHHOLD and COMMIT, or TIDE_CLEAN, and Harbour orders. -/
  | guardOpen (e : Fin 8)
  /-- WITHHOLD (R196): A region records rows withheld from the tide's commit. The region that takes its next WITHHOLD. -/
  | withhold (region : Fin 512)
  /-- COMMIT (R31): A region flips SEL and sets TLAST in bound cores outside withheld rows in one cycle. -/
  | commit (region : Fin 512)
  /-- TIDE_CLEAN (R202): A region stops the engine's cores, flushes queues, invalidates working banks and releases sync holdings. -/
  | tideClean (region : Fin 512)
  /-- NOCMD (R204): A region with no command by the guard's last 4,096 cycles acts as if cleaned and sends NOCMD. -/
  | nocmd (region : Fin 512)
  /-- MIRROR_BLOCK_ARRIVAL (R33): The holder checks mirror blocks and sets MIRROR_VALID when all have passed. The mirror holder. -/
  | mirrorBlockArrival (c : CoreRef)
  /-- CHECKPOINT_COPY (R208): A checkpoint of the committed state is written to a Harbour slot during the next tide. Given once for the copy, and once more for the header when every packet of it has been acknowledged. -/
  | checkpointCopy (e : Fin 8)
  /-- CHECKPOINT_DONE (R209): A checkpoint completes when all blocks and the header are acknowledged before the next guard, or fails. -/
  | checkpointDone (e : Fin 8)
  /-- RESTORE (R211): A core's state is restored from mirror, checkpoint or nothing into half A. `bad` names the sources whose blocks fail their check on the way: bit 0 the mirror, 1 and 2 the checkpoint slots. -/
  | restore (c : CoreRef) (bad : BitVec 3)
  /-- ALIGN_DRIVE (R280): A module drives ALIGN_OUT to its children at each grid step. -/
  | alignDrive
  /-- ALIGN_PULSE (R281): A follower measures the pulse error and slews or steps its timebase. `tr` is the follower's TID_TIME at the ACLK edge at which it sees the deglitched rising edge. -/
  | alignPulse (tr : BitVec 64)
  /-- ALIGN_MISS (R216): A missing pulse is counted; after 8 the follower is ALIGN_LOST, after 400 it must rejoin. -/
  | alignMiss
  /-- SHI_FRAME_RECEIVE (R225): An SHI receiver accepts a good in-order frame, takes acknowledgements, or drops and NAKs. `dir`: 0 wafer to bridge, 1 bridge to wafer. What a flit frame carries is what the sender's retry buffer holds under its SEQ. -/
  | shiFrameReceive (b : Fin 32) (g : Fin 4) (dir : Fin 2) (f : ShiFrame)
  /-- SHI_ACK_TIMEOUT (R226): 256 SCLK cycles without ACKSEQ advance replays every unacknowledged frame. The direction whose sender times out. -/
  | shiAckTimeout (b : Fin 32) (g : Fin 4) (dir : Fin 2)
  /-- SHI_TRAINING (R230): An SHI advances through its training states at bring-up. `ok` is false when a wire fails. -/
  | shiTraining (b : Fin 32) (ok : Bool)
  /-- SHI_TRAIN_TIMEOUT (R230): A training state time-out makes the SHI DOWN. -/
  | shiTrainTimeout (b : Fin 32)
  /-- BRIDGE_DOWN (R231): A bridge whose SHI is DOWN stops, its attach ports go dead and a BRIDGE_DOWN notice goes out. -/
  | bridgeDown (b : Fin 32)
  /-- BRIDGE_DOWN_NOTICE (R231): A region controller sets BROKEN on every slot served by the down bridge. -/
  | bridgeDownNotice (region : Fin 512)
  /-- GROUP_OUT (R232): A fenced attach router takes its SHI group out and its index is replaced from the next boundary. -/
  | groupOut (b : Fin 32) (g : Fin 4)
  /-- INJECT (R242): Inject sends packed ingress blocks to the ingress core. -/
  | inject (b : Fin 32)
  /-- RELAY (R220): A bridge relays an input or output frame to another bridge as blocks. The stream, and which of its relays. -/
  | relay (n : Fin 4096) (output : Bool)
  /-- RELAY_RECEIVE (R220): A receiving bridge verifies a relay block's CRC-32C. -/
  | relayReceive (b : Fin 32)
  /-- TRANSFER_FLIT_ARRIVAL (R244): A transfer flit enters the watermark FIFO, setting HOLD, or is discarded when full. The port at which the flit arrives. -/
  | transferFlitArrival (p : Fin 16)
  /-- TAIL_BURST_MOVE (R247): A tail-timeout FIFO with at least BURST flits moves BURST flits. -/
  | tailBurstMove (b : Fin 32) (g : Fin 4)
  /-- TAIL_TIMER_MOVE (R247): When TIMEOUT passes without a move the FIFO moves all its flits. -/
  | tailTimerMove (b : Fin 32) (g : Fin 4)
  /-- EGRESS_BLOCK_PLACE (R248): A complete checked egress block is placed in its tide's staging half or discarded. -/
  | egressBlockPlace (b : Fin 32)
  /-- DELIVER (R250): Deliver overlap-adds, resamples and dithers each stream's frame or plays concealment. The stream. -/
  | deliver (n : Fin 4096)
  /-- XL_UNIT_RECEIVE (R265): A Xeulend receiver accepts a good in-order unit or drops it and NAKs. `dir`: 0 from this module, 1 to it. A packet that does not come from a peer module is the next one of the sender's retry buffer. -/
  | xlUnitReceive (p : Fin 16) (dir : Fin 2) (u : XlUnit)
  /-- XL_ACK_TIMEOUT (R265): 8 µs without ACKSEQ advance replays every outstanding unit. The direction whose sender times out. -/
  | xlAckTimeout (p : Fin 16) (dir : Fin 2)
  /-- XL_TRAINING (R267): A port advances through its training states. -/
  | xlTraining (p : Fin 16)
  /-- XL_TRAIN_TIMEOUT (R267): A training state time-out makes the port DOWN. -/
  | xlTrainTimeout (p : Fin 16)
  /-- IDENT (R268): An IDENT unit identifies the partner and the ALIGN delay is measured. `x` is what the partner says of itself; `t` is the round trip of the ALIGN echo in SCLK cycles. -/
  | ident (p : Fin 16) (x : Ident) (t : BitVec 11)
  /-- XL_RETRAIN (R269): A DOWN port retrains after 1 s, at most 4 times in 24 h. -/
  | xlRetrain (p : Fin 16)
  /-- XL_DOWN (R283): A port goes DOWN and every channel on it is set BROKEN. -/
  | xlDown (p : Fin 16)
  /-- HOLD_N_IN (R262): A deglitched HOLD_N_IN change stops or restarts transfer packets after 4 SCLK cycles. The deglitched level: `low` when it is 0. -/
  | holdNIn (p : Fin 16) (low : Bool)
  /-- ADVERT (R274): A module sends and receives ADVERT units every 1 ms to elect the master. What the partner's unit names. -/
  | advert (p : Fin 16) (priority : BitVec 4) (module : BitVec 4) (dist : Fin 16)
  /-- DOM_ROUTE (R275): The master sends the domain tree and first-hop routes to members. First-hop port by module, the modules that the tree reaches, and this module's ports to its children. -/
  | domRoute (routes : List (Fin 16 × Fin 16)) (present : BitVec 16) (kids : List (Fin 16))
  /-- TIME_SET (R281): At join the master names the next pulse so a follower takes its time origin. The next pulse of the parent. -/
  | timeSet (t : BitVec 64)
  /-- WRITE (R296): A transfer packet stores COUNT flits at HADDR and answers XACK. The Harbour channel whose next packet is taken. -/
  | write (quad : Fin 4) (ch : Fin 32)
  /-- WRITE_REC (R296): Verifies the following block and stores it as a record or bare payload. -/
  | writeRec (quad : Fin 4) (ch : Fin 32)
  /-- READ (R296): Returns XACK and COUNT flits from HADDR. `errs` are the words found in error. -/
  | read (quad : Fin 4) (ch : Fin 32) (errs : List DramErr)
  /-- READ_REC (R296): Sends COUNT stored records as blocks to core RET, then XACK. -/
  | readRec (quad : Fin 4) (ch : Fin 32) (errs : List DramErr)
  /-- XACK (R377): An engine receives XACK and proceeds or completes the command with its status. The engine. -/
  | xack (e : Fin 13)
  /-- XACK_TIMEOUT (R377): 200 µs without XACK resends once, then completes TIMEOUT. -/
  | xackTimeout (e : Fin 13)
  /-- APPEND (R298): A channel verifies and applies or holds an APPEND block. -/
  | append (quad : Fin 4) (ch : Fin 32)
  /-- HCOMMIT (R302): A channel applies staged blocks outside withheld rows, summarises filled pages and sends HACK. -/
  | hcommit (quad : Fin 4) (ch : Fin 32) (errs : List DramErr)
  /-- HDISCARD (R302): A channel discards staged blocks of the tide and sends HACK. -/
  | hdiscard (quad : Fin 4) (ch : Fin 32)
  /-- HACK (R304): An engine receives HACK and marks CONTEXT_HOLE for listed rows. -/
  | hack (e : Fin 8)
  /-- HACK_TIMEOUT (R304): 100 µs without HACK counts HB_ORDER_TO and marks CONTEXT_HOLE. -/
  | hackTimeout (e : Fin 8)
  /-- HHOLE (R325): An engine receives HHOLE and marks the named rows' next completions CONTEXT_HOLE. -/
  | hhole (e : Fin 8)
  /-- SUMMARIZE (R320): Writes KMAX and KMIN summaries for listed pages. -/
  | summarize (quad : Fin 4) (ch : Fin 32) (errs : List DramErr)
  /-- SCORE_PAGES (R316): Scores every full page summary and keeps the best in a list slot. -/
  | scorePages (quad : Fin 4) (ch : Fin 32) (errs : List DramErr)
  /-- SCORE_TOKENS (R316): Scores the tokens of listed pages and keeps the best in a list slot. -/
  | scoreTokens (quad : Fin 4) (ch : Fin 32) (errs : List DramErr)
  /-- TOPK (R315): Returns the best K entries of a list, merged over banks with SCOPE 1. -/
  | topk (quad : Fin 4) (ch : Fin 32)
  /-- GATHER (R315): Returns value rows, and optionally key rows, of listed tokens. -/
  | gather (quad : Fin 4) (ch : Fin 32) (errs : List DramErr)
  /-- ACCUM (R315): Returns the weighted FP32 sum of listed value rows. -/
  | accum (quad : Fin 4) (ch : Fin 32) (errs : List DramErr)
  /-- COPY_LOCAL (R315): Copies bytes within each masked bank. -/
  | copyLocal (quad : Fin 4) (ch : Fin 32) (errs : List DramErr)
  /-- NMU_TIMEOUT (R310): An operation unfinished 100 µs after arrival is abandoned and answered TIMEOUT. -/
  | nmuTimeout (quad : Fin 4) (ch : Fin 32)
  /-- HB_CH_MODE_REQ (R294): A mode request drains the channel, zeroes work areas for PROCESSOR, and switches MODE. `req`: the mode requested, true for PROCESSOR. -/
  | hbChModeReq (quad : Fin 4) (ch : Fin 32) (req : Bool)
  /-- CHANNEL_ZEROING (R292): A channel passed to a new owner is zeroed by its NMUs over 43.7 ms. -/
  | channelZeroing (quad : Fin 4) (ch : Fin 32)
  /-- BAND_UPDATE (R311): Each millisecond a channel's thermal band is set from its filtered temperature. -/
  | bandUpdate (quad : Fin 4) (ch : Fin 32)
  /-- BUDGET_WINDOW (R312): At each 768-cycle window NMU budget counting restarts and stalled NMUs resume. -/
  | budgetWindow (quad : Fin 4) (ch : Fin 32)
  /-- PATROL_SCRUB (R321): A MEMORY-mode channel reads and corrects every word once every 24 h. -/
  | patrolScrub (quad : Fin 4) (ch : Fin 32) (errs : List DramErr)
  /-- BANK_FENCE (R322): A bank with repeated uncorrectable errors or a failed check passes to FENCED. `reason`: 0 uncorrectable errors, 1 the power-on test, 2 the NMU's self-check. -/
  | bankFence (quad : Fin 4) (ch : Fin 32) (bank : Fin 32) (reason : Fin 3)
  /-- CHANNEL_FAIL (R323): A channel whose controller or bus fails is FENCED and answered by the management controller. -/
  | channelFail (quad : Fin 4) (ch : Fin 32)
  /-- BRIDGE_PROXY_ANSWER (R324): While a Harbour is unreachable its bridge answers its traffic with CONTEXT_HOLE. The port whose bridge answers. -/
  | bridgeProxyAnswer (p : Fin 16)
  /-- DOORBELL_POLL (R340): The module reads a pair's doorbell record at each poll interval or after completions. `late`: issued more than 1 µs after it fell due. -/
  | doorbellPoll (fn : Fin 32) (pair : BitVec 8) (late : Bool)
  /-- DOORBELL_READ (R343): A returned doorbell record is range-checked, accepted or halts the pair. `err`: Unsupported Request, Completer Abort or a poisoned completion. -/
  | doorbellRead (fn : Fin 32) (pair : BitVec 8) (err : Bool)
  /-- ENTRY_FETCH (R341): Fetch reads new entries while completion slots are reserved. `err` as for DOORBELL_READ. -/
  | entryFetch (fn : Fin 32) (pair : BitVec 8) (err : Bool)
  /-- ENTRY_ARRIVAL (R338): An engine takes an arriving entry only if it is the next index, else discards it. -/
  | entryArrival (fn : Fin 32) (pair : BitVec 8)
  /-- COMPLETION_WRITE (R342): A completion is written into its entry's slot with the phase of its pass. -/
  | completionWrite (fn : Fin 32) (pair : BitVec 8)
  /-- MSIX_SEND (R345): A vector sends its MSI-X message when the pending count reaches COUNT or at every completion. -/
  | msixSend (fn : Fin 32) (vector : BitVec 11)
  /-- VECTOR_TIME_EXPIRY (R345): TIME µs after the first pending completion the vector sends its message. -/
  | vectorTimeExpiry (fn : Fin 32) (vector : BitVec 11)
  /-- EVENT_VECTOR (R345): An EVENTS bit becoming 1 with its enable raises vector 0. -/
  | eventVector (fn : Fin 32)
  /-- RING_ENABLE (R336): Setting EN checks the configuration, resets HEAD and phase and polls within 1 µs. `ctl` is the word written to RING_CTL. -/
  | ringEnable (fn : Fin 32) (pair : BitVec 8) (ctl : BitVec 32)
  /-- RING_DISABLE (R336): Writing EN = 0 stops polling and fetching; BUSY clears after last completion. -/
  | ringDisable (fn : Fin 32) (pair : BitVec 8)
  /-- RING_REPORT (R350): The current bridge reports HEAD and last slot written to the standby. -/
  | ringReport (fn : Fin 32) (pair : BitVec 8)
  /-- PCIE_FLR (R346): A PCIe Function Level Reset resets the function with no further completions. -/
  | pcieFlr (fn : Fin 32)
  /-- RESET_SOFT (R346): FN_CTL.RESET_SOFT completes fetched entries FUNCTION_RESET, resets the function and sets RESET_DONE. -/
  | resetSoft (fn : Fin 32)
  /-- FN_RESET_DONE (R347): A function-level reset ends within 1 ms and RESET_BUSY clears. -/
  | fnResetDone (fn : Fin 32)
  /-- FAILOVER (R352): The standby bridge rewrites, refetches, reissues, re-polls and becomes current. -/
  | failover (fn : Fin 32)
  /-- LINK_DOWN_TIMEOUT (R352): A current port's link out of L0 for 10 ms triggers failover. `port`: 0 HA, 1 HB. -/
  | linkDownTimeout (port : Fin 2)
  /-- ADM_ENG_OWNER_WRITE (R333): A write grants an engine to a function unless refused. -/
  | admEngOwnerWrite (e : Fin 13) (v : BitVec 32)
  /-- ADM_FN_CFG_WRITE (R352): A write of HOME different from PORT_CUR triggers failover; RESIDENT_KEEP is set. -/
  | admFnCfgWrite (f : Fin 32) (v : BitVec 32)
  /-- LIST (R361): Runs COUNT listed commands one after another, stopping at the first Not done. `j` is the place of the command among those that the engine holds; `err`: the host read returns an error. -/
  | list (e : Fin 13) (j : Nat) (err : Bool)
  /-- FENCE (R360): Completes once every earlier entry of its ring has completed. -/
  | fence (e : Fin 13) (j : Nat)
  /-- CNT_SNAP (R384): Writes COUNT counter values of a unit to host memory, optionally frozen. -/
  | cntSnap (e : Fin 13) (j : Nat)
  /-- ENG_RESET (R386): Resets an engine, abandoning commands, closing streams and unbinding its image. -/
  | engReset (e : Fin 13) (j : Nat)
  /-- IMAGE_LOAD (R177): The CE checks, clears, sends and confirms an image and binds it to the engine. -/
  | imageLoad (e : Fin 8) (j : Nat) (err : Bool)
  /-- IMAGE_UNBIND (R364): Stops the engine's tides at the next boundary and unbinds its regions. -/
  | imageUnbind (e : Fin 8) (j : Nat)
  /-- TIDE_BIND (R365): Sets the engine's tide parameters unless refused. -/
  | tideBind (e : Fin 8) (j : Nat)
  /-- STREAM_OPEN (R366): Opens a stream with its audio record and map on two engines. -/
  | streamOpen (e : Fin 8) (j : Nat) (err : Bool)
  /-- STREAM_CLOSE (R369): Closes a stream at the first tide start with an empty frame queue. -/
  | streamClose (e : Fin 8) (j : Nat)
  /-- FRAME_IN (R370): Queues a frame with input and output buffers for a stream. -/
  | frameIn (e : Fin 8) (j : Nat) (err : Bool)
  /-- FRAME_OUT (R370): Queues a frame with an output buffer only. -/
  | frameOut (e : Fin 8) (j : Nat)
  /-- FRAME_COMPLETE (R371): After Deliver writes the output the Complete bridge writes the frame's completion. The stream. -/
  | frameComplete (n : Fin 4096)
  /-- CHECKPOINT (R373): Requests a checkpoint at the next on-time commit and completes when one completes. -/
  | checkpoint (e : Fin 8) (j : Nat)
  /-- SYNC_WAIT (R375): Sends SWAIT to an event and completes on its answer. -/
  | syncWait (e : Fin 8) (j : Nat)
  /-- SYNC_WAIT_TIMEOUT (R375): LIMIT µs without an answer completes SYNC_WAIT TIMEOUT. -/
  | syncWaitTimeout (e : Fin 8) (j : Nat)
  /-- SYNC_SIGNAL_SET (R375): Sets an event from an engine. -/
  | syncSignalSet (e : Fin 8) (j : Nat)
  /-- SYNC_SIGNAL_CLEAR (R375): Clears an event from an engine. -/
  | syncSignalClear (e : Fin 8) (j : Nat)
  /-- SYNC_SIGNAL_RELEASE (R375): Releases UNITS to a semaphore as a producer. -/
  | syncSignalRelease (e : Fin 8) (j : Nat)
  /-- ENGINE_SYNC_ANSWER (R374): An answer to an engine sync request completes its command. -/
  | engineSyncAnswer (e : Fin 8)
  /-- AUDIT (R380): Runs one audit pass at once and completes with its counts. -/
  | audit (e : Fin 8) (j : Nat)
  /-- COPY (R376): Moves bytes between host memory, Harbour and scratchpad. -/
  | copy (e : Fin 13) (j : Nat) (err : Bool)
  /-- WEIGHT_PIN (R378): Pins weight records from the master into cores' resident banks. -/
  | weightPin (e : Fin 13) (j : Nat) (err : Bool)
  /-- PIN_ORDER (R378): A region controller records a pin order naming core, tag and address. -/
  | pinOrder (region : Fin 512)
  /-- PIN_BLOCK_LAND (R378): A controller takes a pinned untided block ahead of landing slots, verifies and writes it. -/
  | pinBlockLand (c : CoreRef)
  /-- REGION_ASSIGN (R381): Writes the seed, scrubs where required and assigns the region. -/
  | regionAssign (j : Nat)
  /-- REGION_RELEASE (R381): REGION_ASSIGN with RELEASE makes the region unowned without a scrub. -/
  | regionRelease (j : Nat)
  /-- SCRUB_DONE (R40): A scrub ends with its signature latched, passing or quarantining the region. `bad` are the cores that did not read back zero. -/
  | scrubDone (region : Fin 512) (bad : List (Fin 32 × Fin 17))
  /-- HCH_ASSIGN (R382): Assigns a Harbour channel, zeroing it where required. -/
  | hchAssign (j : Nat)
  /-- HCH_RELEASE (R382): HCH_ASSIGN with RELEASE makes the channel unowned. -/
  | hchRelease (j : Nat)
  /-- REG_READ (R383): Reads a register of a module register space. The place `j` of the command in the Configuration Engine. -/
  | regRead (j : Nat)
  /-- REG_WRITE (R558): Writes masked bits of a module register and returns the read-back. -/
  | regWrite (j : Nat)
  /-- REG_TIMEOUT (R383): A unit not answering within 100 µs completes the command TIMEOUT. -/
  | regTimeout (j : Nat)
  /-- TTAINT_RECEIVE (R395): The engine applies stream policies to a taint report or discards it after the guard. -/
  | ttaintReceive (e : Fin 8)
  /-- STR_INT_POL_SET (R391): A write with SET applies an integrity policy to a stream from the next tide start. `v` is the word written to STR_INT_POL. -/
  | strIntPolSet (fn : Fin 32) (v : BitVec 32)
  /-- AUDIT_PASS (R403): Every AUDIT_PERIOD seconds a pass audits the engine's pinned ranges. -/
  | auditPass (e : Fin 8)
  /-- REFETCH (R405): The engine refetches a mismatched record and the controller verifies and writes it. The engine's next mismatched entry. -/
  | refetch (e : Fin 8)
  /-- REFETCH_TIMEOUT (R405): A refetch block not arrived 200 µs after READ_REC is fetched once more or sets BAD. Its first entry whose refetch is outstanding. -/
  | refetchTimeout (e : Fin 8)
  /-- HM_UPDATE (R415): A holder accepts or rejects a health-map update by its epoch. The unit whose next update its holder takes, of classes 0 to 6. -/
  | hmUpdate (unit : BitVec 32)
  /-- LIVE_REPORT (R414): Lighthouse records a reported live fence in the health map with a new epoch. The unit whose next live report Lighthouse takes, of classes 0 to 6. -/
  | liveReport (unit : BitVec 32)
  /-- SELF_CHECK (R417): A released unit's self-check ends and the unit leaves FENCED or a disagreement is counted. The unit whose self-check ends, and what the check itself found. -/
  | selfCheck (unit : BitVec 32) (pass : Bool)
  /-- ROW_SLIDE (R423): A row slides its logical columns east onto the spare past an excluded core. `bad` are the columns of receivers at which a copy fails its check. -/
  | rowSlide (region : Fin 512) (row : Fin 32) (bad : List (Fin 17))
  /-- SLIDE_BACK (R426): A row returns to POINT 16 with every moving core sending west. `bad` as for ROW_SLIDE. -/
  | slideBack (region : Fin 512) (row : Fin 32) (bad : List (Fin 17))
  /-- ROW_REBUILD (R425): The engine rebuilds the column that a fault slide moved onto a new carrier. `bad` names the restore sources whose blocks fail their check, as for RESTORE. -/
  | rowRebuild (region : Fin 512) (row : Fin 32) (bad : BitVec 3)
  /-- RELOCATION (R431): An engine moves a stage to a reserve region through seven phases. Given once for each phase. `confirmed`: the reserve confirms its records and programs; `bad` names restore sources whose blocks fail their check: 0 the mirror, 1 and 2 the slots. -/
  | relocation (e : Fin 8) (confirmed : Bool) (bad : List (BitVec 18 × Fin 3))
  /-- RELOC_TIMEOUT (R434): 12 ms without the join fails the attempt and starts on the next reserve. -/
  | relocTimeout (e : Fin 8)
  /-- MGMT_ESCALATION (R439): A controller silent for 10 ms is reached through IJTAG, and fenced after 100 ms more. Given once for each of its two steps. -/
  | mgmtEscalation (region : Fin 512)
  /-- BRINGUP_PHASE (R443): Bring-up runs its ten phases in order with local or fatal exits. What the phase in progress finds. Phases 2 and 6 take two: the first begins their waves or runs their test, the second ends them. -/
  | bringupPhase (f : PhaseFinds)
  /-- PHASE_TIMEOUT (R443): A phase reaching its maximum time applies its failure exit to unfinished units. What the phase has found by then; `bad` names the units that have not finished as well. -/
  | phaseTimeout (f : PhaseFinds)
  /-- TIE_BREAK_SCAN (R450): A region controller scans a core through IJTAG and decides PASS or FAIL. The core, what its scan finds, and the section and seed that the scan's record names. -/
  | tieBreakScan (c : CoreRef) (pass : Bool) (run : Fin 8 × Fin 2)
  /-- FT_DUE (R459): A core's due time passes and its in-field test is started as its situation allows. -/
  | ftDue (region : Fin 512)
  /-- TEST_SLIDE (R462): A row slides temporarily so the freed core can be tested during the next tide. `bad` are the columns of receivers at which a copy of the slide fails its check. -/
  | testSlide (region : Fin 512) (bad : List (Fin 17))
  /-- FT_VERDICT (R460): The region controller judges a test, scans on FAIL, and slides back or fences. The core whose test ends: nothing when every signature matches, else the section and seed of the run that failed, and whether the tie-break scan passes. -/
  | ftVerdict (c : CoreRef) (fail : Option (Fin 8 × Fin 2 × Bool))
  /-- FT_ABANDON (R462): A test with no verdict when the guard of tide t + 3 opens is abandoned and the row slides back. `bad` as for TEST_SLIDE, of the slide back. -/
  | ftAbandon (region : Fin 512) (bad : List (Fin 17))
  /-- SPARE_TEST (R464): The row spare is tested while its row runs. -/
  | spareTest (region : Fin 512)
  /-- TEST_STARVED (R465): A core overdue 48 h in a slid bound row marks its row starved and raises TEST_STARVED. -/
  | testStarved (region : Fin 512) (row : Fin 32)
  /-- FT_GRANT (R466): A grant gives a starved row one drop window to test its window set. The word that PF0 writes. -/
  | ftGrant (v : BitVec 32)
  /-- OVERDUE_SUSPECT (R467): A core overdue 72 h marks its region SUSPECT. -/
  | overdueSuspect (region : Fin 512)
  /-- FT_CTL_WRITE (R459): A change of INTERVAL recomputes every due time from the last pass. The word that PF0 writes. -/
  | ftCtlWrite (v : BitVec 32)
  /-- SEAWALL_FRAME (R472): A receiver takes the first good copy of a seawall frame and answers ACK on both rings. -/
  | seawallFrame (f : SwFrame)
  /-- FRAME_RESEND (R472): A sender without an ACK resends its frame every 1 ms. The sender whose frame has no ACK, and its receiver. -/
  | frameResend (src : Node) (dst : Node)
  /-- TELEMETRY (R473): Each region sends TELEMETRY every 16 ms. The region or bridge that sends. -/
  | telemetry (src : Node)
  /-- TELEMETRY_TIMEOUT (R473): A region silent for 64 ms has its sensors reported FAILED. The silent region or bridge. -/
  | telemetryTimeout (src : Node)
  /-- MONITOR_ESCALATION (R474): A bridge silent for 10 ms is reached through IJTAG and taken down after 100 ms more. Given once for each of its two steps. -/
  | monitorEscalation (b : Fin 32)
  /-- HEALTH_PERSIST (R475): Lighthouse writes the health map and retired list to flash within 1 s of a change. -/
  | healthPersist
  /-- LH_RECOVERY (R477): After a restart Lighthouse reloads the map, queries epochs and collects live reports. -/
  | lhRecovery
  /-- EPOCH_QUERY (R477): A holder answers with the greatest epoch it accepted. The holder that answers. -/
  | epochQuery (node : Node)
  /-- EVENT_RECORD (R478): Lighthouse writes a received log record into the ring and the journal if SEV >= 2. The reporting unit whose next record arrives. -/
  | eventRecord (unit : BitVec 32)
  /-- EVENT_LOST (R479): When room returns a unit sends one EVENT_LOST record with the discarded count. -/
  | eventLost (unit : BitVec 32)
  /-- SENSOR_SAMPLE (R484): A sample is checked for plausibility and the median filter updated, or the sensor fails. The sensor id, and the sample in FP32. -/
  | sensorSample (id : BitVec 16) (v : BitVec 32)
  /-- GET_HEALTH (R488): Returns health entries of units of a class. The message. -/
  | getHealth (m : LhMsg)
  /-- HEALTH_SINCE (R488): Returns health changes since an epoch. -/
  | healthSince (m : LhMsg)
  /-- GET_LOG (R489): Returns log or journal records from a sequence number. -/
  | getLog (m : LhMsg)
  /-- UNIT_ORDER_FENCE (R490): Fences a unit in the health map. -/
  | unitOrderFence (m : LhMsg)
  /-- UNIT_ORDER_RELEASE (R490): Releases a unit, answering after its self-check. -/
  | unitOrderRelease (m : LhMsg)
  /-- UNIT_ORDER_RETIRE (R490): Retires a unit permanently. -/
  | unitOrderRetire (m : LhMsg)
  /-- UNIT_ORDER_SUSPECT (R490): Marks an in-service unit SUSPECT. -/
  | unitOrderSuspect (m : LhMsg)
  /-- PORT_ORDER_BRIDGE_DOWN (R490): Takes a bridge down by Lighthouse order. -/
  | portOrderBridgeDown (m : LhMsg)
  /-- PORT_ORDER_XL_DOWN (R490): Takes a Xeulend port DOWN. -/
  | portOrderXlDown (m : LhMsg)
  /-- PORT_ORDER_XL_RETRAIN (R490): Orders a Xeulend port to retrain. -/
  | portOrderXlRetrain (m : LhMsg)
  /-- PORT_ORDER_FAILOVER (R490): Orders failover of a function. -/
  | portOrderFailover (m : LhMsg)
  /-- GET_SENSORS (R488): Returns filtered or replaced sensor values. -/
  | getSensors (m : LhMsg)
  /-- GET_FW (R488): Returns firmware bank states and the rollback counter. -/
  | getFw (m : LhMsg)
  /-- HB_RELAY (R488): Relays a message to a Harbour and returns its response. The message, and the Harbour's response when one comes. -/
  | hbRelay (m : LhMsg) (reply : Option (List (BitVec 8)))
  /-- LH_RESTART (R489): Restarts Lighthouse only (MODE 0). -/
  | lhRestart (m : LhMsg)
  /-- LH_RESTART_BRINGUP (R489): After a lockout or clock stop, restarts Lighthouse and runs a full bring-up (MODE 1). -/
  | lhRestartBringup (m : LhMsg)
  /-- HB_STATE (R488): A Harbour reports a unit's live view. The unit of classes 7 to 9 whose live report Lighthouse takes. -/
  | hbState (unit : BitVec 32)
  /-- HB_HM (R476): A Harbour takes a health-map update for one of its units. The unit of classes 7 to 9 whose next update its Harbour takes. -/
  | hbHm (unit : BitVec 32)
  /-- HB_SENSORS (R488): A Harbour reports its filtered channel temperatures. -/
  | hbSensors (quad : Fin 4)
  /-- HB_EVENT (R488): A Harbour sends one log record. -/
  | hbEvent (quad : Fin 4)
  /-- HB_REG (R488): Lighthouse reads or writes a Harbour register. A read or a write, UNIT, OFFSET, whether SIZE is 8 B, VALUE and MASK. -/
  | hbReg (write : Bool) (unit off : BitVec 32) (wide : Bool) (value mask : BitVec 64)
  /-- PEER_NOTICE (R488): A peer Lighthouse sends one of its log records. The record, 64 bytes. -/
  | peerNotice (cage : Fin 16) (bytes : List (BitVec 8))
  /-- GET_SENSOR_READING (R487): PLDM GetSensorReading returns a sensor's filtered value. -/
  | getSensorReading (via : Via) (id : BitVec 16)
  /-- SET_EVENT_RECEIVER (R487): PLDM SetEventReceiver names the receiver of threshold events. -/
  | setEventReceiver (via : Via) (eid : BitVec 8)
  /-- MBX_GO (R492): GO sends a mailbox request to Lighthouse unless BUSY or LEN is out of range. -/
  | mbxGo
  /-- MBX_TIMEOUT (R492): 100 ms without a response writes a TIMEOUT response and raises MBX_ABORT. -/
  | mbxTimeout
  /-- REQUEST_UPDATE (R494): PLDM RequestUpdate begins writing the inactive bank. -/
  | requestUpdate (via : Via)
  /-- VERIFY_COMPLETE (R494): Lighthouse verifies the written bank and marks it valid or invalid. The image that has been written. -/
  | verifyComplete (via : Via) (image : FwImage)
  /-- ACTIVATE_FIRMWARE (R495): Marks the new bank PREFERRED and TRIAL, restarting at once if self-contained. -/
  | activateFirmware (via : Via) (selfContained : Bool)
  /-- LH_BOOT (R496): The boot ROM boots the preferred verified bank and samples the address straps. The address straps as sampled. -/
  | lhBoot (straps : Fin 4)
  /-- TRIAL_TIMEOUT (R496): A TRIAL boot not confirmed in 60 s counts as a failed trial. -/
  | trialTimeout
  /-- LH_WATCHDOG (R469): The 2 s watchdog restarts Lighthouse from the boot ROM. -/
  | lhWatchdog
  /-- SUPPLY_RANGE (R499): A filtered supply outside its operating range holds G at 12, released on return. -/
  | supplyRange
  /-- LOCKOUT (R500): A supply beyond lockout stops the 12 V bus and powers down wafer and bridges. -/
  | lockout
  /-- RAMP_WAVE (R502): A wave of 32 region regulators ramps, and a region not in regulation after 50 ms is FENCED. Given once for each wave. The regions of the wave that are not in regulation 50 ms after its start, by place in the wave: the rail at fault (0 VCORE, 1 VSRAM), its voltage and its current. -/
  | rampWave (bad : List (Fin 32 × Fin 2 × BitVec 32 × BitVec 32))
  /-- ROOT_LOCK_LOSS (R507): Loss of root lock for 1 µs gates every divided clock off. -/
  | rootLockLoss
  /-- REFERENCE_STOP (R506): When the reference stops the standby PLL switches to the backup oscillator. -/
  | referenceStop
  /-- TL_UPDATE (R512): Each millisecond a region updates its thermal throttle level. -/
  | tlUpdate (region : Fin 512)
  /-- G_UPDATE (R513): Each millisecond Lighthouse computes the global level and carries it on the rings. -/
  | gUpdate
  /-- REGION_TRIP (R515): A region at 110 °C is powered down and fenced. -/
  | regionTrip (region : Fin 512)
  /-- BRIDGE_TRIP (R516): A bridge at 115 °C is taken down. -/
  | bridgeTrip (b : Fin 32)
  /-- REGULATOR_FAULT (R517): A regulator fault powers down its region and reports it fenced. `hot`: the regulator's own temperature has reached 125 °C, with the rail that its record names. -/
  | regulatorFault (region : Fin 512) (hot : Option (Fin 2))
  /-- NEIGHBOUR_PG_FALL (R518): A neighbour's falling power-good marks its region offline. The controller that sees the fall, and the side of its neighbour. -/
  | neighbourPgFall (region : Fin 512) (dir : Fin 4)
  /-- DBG_CTL_WRITE (R527): A write of EXT_EN connects or disconnects the external TAP. -/
  | dbgCtlWrite (v : BitVec 32)
  /-- LH_PREEMPT (R527): Lighthouse takes the chain from the external TAP, resetting every TAP. With `release`, Lighthouse lets the chain go again (R526). -/
  | lhPreempt (release : Bool)
  /-- EXTEST (R536): TAP instruction driving pins from the boundary register while the bridge is down. Whether the external TAP scans, and the TAP: bridges 0 to 31, the wafer 32. -/
  | extest (ext : Bool) (tap : Fin 33)
  /-- SAMPLE_PRELOAD (R536): TAP instruction sampling pins into the boundary register. The levels of the pins, and what is scanned in. -/
  | samplePreload (ext : Bool) (tap : Fin 33) (pins data : BitVec 32)
  /-- IDCODE (R529): TAP instruction selecting the 32-bit identity register. -/
  | idcode (ext : Bool) (tap : Fin 33)
  /-- IJSEL (R530): TAP instruction selecting the IJTAG network. -/
  | ijsel (ext : Bool) (tap : Fin 33)
  /-- BYPASS (R528): TAP instruction selecting the 1-bit bypass register. -/
  | bypass (ext : Bool) (tap : Fin 33)
  /-- REGACC_READ (R532): REGACC reads a region, core or router register at Update-DR. -/
  | regaccRead (ext : Bool) (region : Fin 512) (space : Fin 4) (row col : BitVec 5) (off : BitVec 16)
  /-- REGACC_WRITE (R532): REGACC writes a register, refused from outside for owned or quarantined regions. -/
  | regaccWrite (ext : Bool) (region : Fin 512) (space : Fin 4) (row col : BitVec 5) (off : BitVec 16) (data : BitVec 64)
  /-- CORE_SIB_OPEN (R533): Opens a clean region's core scan, stopping its cores and holding the region. -/
  | coreSibOpen (ext : Bool) (region : Fin 512)
  /-- CORE_SIB_CLOSE (R534): Closing the core scan resets every core and clears the clean mark. -/
  | coreSibClose (ext : Bool) (region : Fin 512)
  /-- SND_SEL_WRITE (R537): Selects a signal for a sounding pin unless refused. -/
  | sndSelWrite (k : Fin 8) (v : BitVec 32)
  /-- TRST_N (R571): Deglitched TRST_N puts the TAPs in Test-Logic-Reset. The deglitched level: low is asserted. -/
  | trstN (low : Bool)
  /-- PERST_N (R574): Deglitched PERST_N takes the port link out of L0 and resets its PCIe state machine. The deglitched level: low is asserted. -/
  | perstN (port : Fin 2) (low : Bool)
  /-- SMB_CLOCK_LOW_TIMEOUT (R573): SMB_CLK low for 35 ms abandons the transaction. -/
  | smbClockLowTimeout
  /-- MCTP_GAP_TIMEOUT (R573): An MCTP message stalled for 100 ms is discarded. -/
  | mctpGapTimeout (via : Via)
  /-- REGISTER_WRITE (R545): A write to a register without a row of its own sets fields by access code or is refused whole. -/
  | registerWrite (w : HostReg)
  /-- HOST_LINK_L0_CHANGE (R351): A host port's link leaves or returns to L0, holding the function's requests and changing STANDBY_OK, which may raise STANDBY_LOST. -/
  | hostLinkL0Change (port : Fin 2) (up : Bool)
  /-- VF_ENABLE_CLEAR (R346): Clearing VF Enable on either port is a function-level reset of PF0 and of every VF. -/
  | vfEnableClear (port : Fin 2)
  /-- HARBOUR_POWER_ON (R292): At Harbour power-on its test zeroes every bank of every channel, sets LAST_VALID to 0 and fences banks that fail. `bad` names the channels and banks that fail the test. -/
  | harbourPowerOn (quad : Fin 4) (bad : List (Fin 32 × Fin 32))
  /-- MSIX_UNMASK (R345): Unmasking a vector with its pending bit set sends its MSI-X message. -/
  | msixUnmask (fn : Fin 32) (vector : BitVec 11)
  /-- HOST_READ_TIMEOUT (R343): A host-memory read without a completion within the 10 ms completion timeout halts its ring with CAUSE 5, or completes its command TIMEOUT. The read that times out. -/
  | hostReadTimeout (read : HostRead)
  /-- INPUT_POWER_REMOVAL (R470): Removal of the 48 V input stops the standby supply, Lighthouse and every part, loses the log memory and sets every output high-impedance. -/
  | inputPowerRemoval
  deriving DecidableEq, Repr

end Sys2Proof
end

