-- ==== Sys2Proof/Decode.lean ====
section
/-! DEFINITION. Decode.lean: the command that a word of the opcode table spells. -/

namespace Sys2Proof

/-- No row of the opcode table gives its command any bits: commands reach the block as register accesses, frames, pins and engine
entries, each under rules of its own. No word spells a command. -/
def decodeTableWord (nbits w : Nat) : Option Instr :=
  match nbits, w with
  | _, _ => none

end Sys2Proof
end

