-- ==== Sys2Proof/Machine/State.lean ====
section
/-! DEFINITION. Machine/State.lean: everything the spec gives the machine, as plain data, and its state at power-on. -/

namespace Sys2Proof.Machine

open Sys2Proof

/-- A log record as its reporting unit fills it (R479, R480). -/
structure LogRec where
  typ : BitVec 16
  sev : BitVec 2
  fn : BitVec 8
  unit : Word
  tide : Word
  data : List Byte
  deriving DecidableEq, Repr

/-- The queue of a reporting unit for Lighthouse, at most 64 records, and how many were discarded (R479). -/
structure LogQueue where
  recs : List LogRec := []
  lost : Nat := 0
  deriving DecidableEq, Repr

def LogQueue.init : LogQueue := {}

/-- The health of a unit: health map, live view, last accepted epoch (R411–R416). -/
structure Health where
  map : BitVec 3 := 0
  live : BitVec 3 := 0
  epoch : Word := 0
  /-- An accepted lowering is in its self-check (R417). -/
  checking : Bool := false
  /-- Disagreements: their times in µs, within 24 h (R418). -/
  disagree : List Nat := []
  /-- Time of the last release. -/
  releasedAt : Option Nat := none
  deriving DecidableEq, Repr

def Health.init : Health := {}

/-- What a waiting instruction waits for (R51). -/
inductive Wait where
  | recv (d : BitVec 5) (q : Nat) (x : BitVec 3) (n : BitVec 4)
  | land (d : BitVec 5) (k : Nat)
  | sync
  | target (d : BitVec 5)
  | tend
  deriving DecidableEq, Repr

/-- The sequencer: stopped, running, or held by a waiting instruction (R45, R51). -/
inductive Run where
  | stopped
  | running
  | waiting (w : Wait)
  deriving DecidableEq, Repr

/-- The exception codes of R54. -/
inductive Exc where
  | illegal | spadAccess | align | pcRange | loop | chanRefused | msgSize | tenant | syncRange | counterRange | testPriv
  deriving DecidableEq, Repr

/-- The test mode of a core (R77). -/
inductive TestMode where
  | none | tester | target
  deriving DecidableEq, Repr

/-- An active hardware loop: iterations left, first and last word of the body (R46, R58). -/
structure Loop where
  count : Word
  start : Nat
  stop : Nat
  deriving DecidableEq, Repr

/-- An armed landing slot; `status` holds the code of a landed block that BWAIT or BTRY has not taken (R70). -/
structure Landing where
  tag : Half
  addr : Word
  status : Option Half := none
  deriving DecidableEq, Repr

/-- CORE_SLOT, with the block sequence number of R108. -/
structure Slot where
  dst : BitVec 18 := 0
  module : BitVec 4 := 0
  queue : BitVec 3 := 0
  kind : BitVec 2 := 0
  static : Bool := false
  broken : Bool := false
  channel : BitVec 12 := 0xFFF
  seq : Word := 0
  deriving DecidableEq, Repr

/-- A message in an inbound queue. `complete` is false while its tail has not arrived: its room is reserved (V of R86). -/
structure Msg where
  sb : Sideband := {}
  flits : Nat := 0
  body : List Byte := []
  complete : Bool := true
  serial : Nat := 0
  deriving DecidableEq, Repr

/-- A block that is landing, with the number of 64 B words already written (R72). -/
structure Ingest where
  slot : Nat
  sb : Sideband
  hdr : BlkHdr
  body : List Byte
  written : Nat
  dropped : Bool := false
  deriving DecidableEq, Repr

/-- An outstanding synchronisation operation of a core (R73, R139). -/
structure SyncOp where
  op : BitVec 8
  obj : BitVec 17
  operand : Word
  d : BitVec 5
  pc : BitVec 12
  waits : Bool
  full : Bool := false
  deriving DecidableEq, Repr

/-- CORE_FAULT (R54). -/
structure CoreFault where
  code : BitVec 8 := 0
  pc : BitVec 12 := 0
  valid : Bool := false
  tide : Word := 0
  deriving DecidableEq, Repr

/-- One physical core (R46, R26–R33, R54, R70–R83). Tables of registers read 0 where nothing is listed. -/
structure Core where
  /-- s0–s31; s0 is never listed. -/
  sreg : Tbl Word := []
  /-- a0–a7. -/
  areg : Tbl Word := []
  /-- v0–v15, lane i of vn at 32 n + i. -/
  vreg : Tbl Word := []
  /-- p1–p7; p0 is fixed. -/
  preg : Tbl Word := []
  /-- t0–t3, element [i][j] of tn at 256 n + 16 i + j. -/
  tile : Tbl Word := []
  pc : BitVec 12 := 0
  loop0 : Option Loop := none
  loop1 : Option Loop := none
  run : Run := .stopped
  /-- Instruction store, by word index. -/
  istore : Tbl Word := []
  /-- Scratchpad, by direct address. -/
  spad : Mem := []
  fault : CoreFault := {}
  /-- Armed landing slots. -/
  landing : Tbl (Option Landing) := []
  /-- The block now landing through the VC2 ejection port. -/
  ingest : Option Ingest := none
  testMode : TestMode := .none
  /-- XSEL's target: 0 east, 1 south. -/
  testSel : Option (BitVec 1) := none
  /-- The test port's signature (XPUB). -/
  signature : Word := 0
  /-- The result of the target's TEND has reached the tester (XWAIT). -/
  targetDone : Bool := false
  /-- TSTAT bits. -/
  clean : Bool := false
  restored : Bool := false
  taint : Bool := false
  /-- The mark that the next start of this core is clean (R204, R205). -/
  cleanNext : Bool := false
  tide : Word := 0
  tlast : Word := 0xFFFFFFFF
  slots : Tbl Slot := []
  staticQ : BitVec 8 := 0
  /-- Inbound queues q0–q7. -/
  queues : Tbl (List Msg) := []
  /-- Outstanding sync operations, oldest first. -/
  syncOps : List SyncOp := []
  /-- Objects whose wait a core reset or function-level reset abandoned (R148). -/
  lostOps : List (BitVec 17) := []
  part : BitVec 24 := 0
  psBase : BitVec 7 := 0
  psSize : BitVec 4 := 0
  sel : Bool := false
  mirrorEn : Bool := false
  mirrorTide : Word := 0
  mirrorValid : Bool := false
  /-- The Stream Engine to which the core is bound, and whether it carries a program (R166, R192). -/
  engine : Option (Fin 8) := none
  hasProgram : Bool := false
  entry : BitVec 12 := 0
  /-- TEND executed in this tide (R192). -/
  tended : Bool := false
  /-- The verdict that XVERD reported last (R77, R448). -/
  verdict : Option Word := none
  /-- The next start is the first after a restore (R211). -/
  restoreDue : Bool := false
  /-- Mirror blocks that have landed in this core's mirror bank, of how many, while a copy runs (R33). -/
  mirrorGot : Option (List Nat × Nat) := none
  /-- The core was fenced while bound, in this tide (R31). -/
  fencedTide : Bool := false
  /-- The logical column that it carries has to be rebuilt here (R425). -/
  rebuildDue : Bool := false
  /-- Stopped for a drop window (R466). -/
  underTest : Bool := false
  deriving DecidableEq, Repr

/-- The state of a core or any default record where nothing is listed. -/
def Core.init : Core := {}
def Slot.init : Slot := {}

/-- A transfer packet's head flit (R295). -/
structure XferHead where
  op : Byte
  flags : Byte := 0
  count : Half := 0
  reqId : Word := 0
  haddr : DWord := 0
  ret : Word := 0
  ackTo : Byte := 0
  status : Half := 0
  /-- Reserved bytes 0x15 and 0x18 up hold only 0. -/
  rsvOk : Bool := true
  deriving DecidableEq, Repr


/-- An in-field test that a region controller runs (R459–R466): 0 direct, 1 test slide, 2 spare, 3 drop window; its cores, the
tide and the TID_TIME cycle in which it was started, and its verdicts. -/
structure FieldTest where
  kind : Nat
  cores : List Nat
  tide : Word
  since : Nat := 0
  verdicts : List (Nat × Bool) := []
  deriving DecidableEq, Repr

/-- A node of the management network or the management pair of a Harbour: frames taken (SRC and SEQ), the time of its last ACK,
since when it is reached through IJTAG, and its answer to the last REG frame or HB_REG, as STATUS and VALUE (R439, R471–R474,
R488). -/
structure SwNode where
  seen : List (Nat × Nat) := []
  lastAck : Nat := 0
  ijtag : Option Nat := none
  answer : Option (Half × DWord) := none
  deriving DecidableEq, Repr

def SwNode.init : SwNode := {}

/-- Lighthouse's entry for a unit (R475): its health-map state, the epoch of its last change, the last live view reported. -/
structure LhUnit where
  map : BitVec 3 := 0
  epoch : Word := 0
  live : BitVec 3 := 0
  deriving DecidableEq, Repr

def LhUnit.init : LhUnit := {}

/-- A flash bank (R493–R496): its image, and its marks. -/
structure Bank where
  image : FwImage
  invalid : Bool := false
  trial : Bool := false
  deriving DecidableEq, Repr

/-- A record of the event log as Lighthouse wrote it (R478). -/
structure LogEntry where
  body : LogRec
  seq : Word
  time : Nat
  boot : Half
  deriving DecidableEq, Repr

/-- An order that Lighthouse carries out (R490): 1 to 4 UNIT_ORDER on a unit, 5 to 8 PORT_ORDER KIND 1 to 4 on a bridge, port or
function. -/
structure LhOrder where
  via : Via
  tag : Nat
  action : Nat
  unit : Nat
  begun : Bool := false
  /-- The mailbox has stopped waiting for the answer, which is discarded (R492). -/
  dropped : Bool := false
  deriving DecidableEq, Repr

/-- What Lighthouse sends on MCTP: an answer of R488, a PLDM sensor reading (whether the sensor is FAILED, and its value), or a
threshold event: the receiver, the sensor, warning or critical, above or below, and the direction (R487, R521). -/
inductive LhOut where
  | message (via : Via) (bytes : List Byte)
  | reading (via : Via) (id : Nat) (failed : Bool) (value : Option Word)
  | event (receiver : Byte) (id : Nat) (critical low up : Bool)
  deriving DecidableEq, Repr

/-- The last TELEMETRY of a region (R473): its values, its failure bits, its time, and whether it has been reported silent. -/
structure Telemetry where
  vals : List Word := []
  failed : List Bool := []
  us : Nat := 0
  silent : Bool := false
  deriving DecidableEq, Repr

def Telemetry.init : Telemetry := {}

/-- The mailbox (R491, R492). `taken` says that Lighthouse works on the request. -/
structure Mailbox where
  req : Mem := []
  len : BitVec 15 := 0
  busy : Bool := false
  done : Bool := false
  rspLen : Half := 0
  rsp : List Byte := []
  goUs : Nat := 0
  taken : Bool := false
  deriving DecidableEq, Repr

/-- Lighthouse (R469–R497). Stages: 0 off, 1 in its boot ROM, 2 before the end of R477, 3 running, 4 firmware update only. -/
structure Lighthouse where
  stage : Nat := 1
  epoch : Word := 0
  map : Tbl LhUnit := []
  retired : List Nat := []
  /-- The persistent area: map and retired list as last written, units excluded in the latest bring-up, journal, boot count. -/
  savedMap : Tbl LhUnit := []
  savedRetired : List Nat := []
  lastBad : List Nat := []
  journal : List LogEntry := []
  boot : Half := 0
  /-- The event log, oldest first, its next SEQ, and the time of this boot in µs. -/
  log : List LogEntry := []
  seq : Word := 0
  bootUs : Nat := 0
  orders : List LhOrder := []
  out : List LhOut := []
  mbx : Mailbox := {}
  receiver : Option Byte := none
  smbAddr : BitVec 7 := 0x64
  /-- Flash banks A and B, which one is PREFERRED and which one runs (true for B), failed trials, a running update. -/
  bankA : Bank := { image := { version := 0, svn := 0, key := 0, signed := true, target := true } }
  bankB : Bank := { image := { version := 0, svn := 0, key := 0, signed := true, target := true } }
  prefB : Bool := false
  runB : Bool := false
  trialFails : Nat := 0
  /-- The next boot takes the other bank than PREFERRED (R496). -/
  bootOther : Bool := false
  /-- The greatest epoch answered to EPOCH_QUERY since the boot (R477). -/
  epochSeen : Word := 0
  updating : Bool := false
  /-- Fuses: revoked keys and the anti-rollback counter. -/
  revoked : BitVec 4 := 0
  rollback : DWord := 0
  telem : Tbl Telemetry := []
  /-- Starved rows with an unused grant, or without one (R465, R466). -/
  starved : List (Nat × Nat × Bool) := []
  /-- Cores whose delay of 72 h made their region SUSPECT and which have not passed a test since (R467). -/
  overdue : List Nat := []
  deriving DecidableEq, Repr

/-- Supplies, clocks and throttle levels (R498–R514). -/
structure Power where
  /-- The 12 V bus is up; the module is stopped by a lockout or a clock stop; the root runs; the reference has stopped. -/
  bus : Bool := false
  stopped : Bool := false
  root : Bool := false
  backup : Bool := false
  /-- The supply cause holds, by which sensor; coolant and cap levels, with their counts of quiet updates; G; PWR_CTL. -/
  supply : Bool := false
  supplyBy : Nat := 0
  cool : Nat := 0
  coolQuiet : Nat := 0
  cap : Nat := 0
  capQuiet : Nat := 0
  g : Nat := 0
  capKw : BitVec 5 := 23
  capEn : Bool := true
  deriving DecidableEq, Repr

/-- Bring-up and the schedule of in-field tests (R443–R467). -/
structure BringUp where
  phase : Nat := 1
  /-- Waves of phase 2 that have ramped. -/
  waves : Nat := 0
  ready : Bool := false
  fatal : Bool := false
  fatalPhase : Nat := 0
  startUs : Nat := 0
  phaseUs : Nat := 0
  endUs : Option Nat := none
  /-- Phase 6: the steps have run; verdicts of FAIL as (target, tester); cores whose scan is due, and those that failed. -/
  tested : Bool := false
  fails : List (Nat × Nat) := []
  scans : List Nat := []
  /-- Units excluded so far; regions that failed phase 5 (R531). -/
  bad : List Nat := []
  silent : List Nat := []
  /-- TID_TIME of READY; FT_CTL.INTERVAL; TID_TIME of each core's last pass; cores that became due at a time of their own. -/
  readyTid : DWord := 0
  interval : BitVec 11 := 360
  lastPass : Tbl (Option DWord) := []
  dueNow : List (Nat × DWord) := []
  deriving DecidableEq, Repr

/-- Debug and test access (R524–R538). -/
structure Debug where
  extEn : Bool := false
  lhHold : Bool := true
  preempted : Bool := false
  chain : BitVec 32 := 0xFFFFFFFF
  /-- Instruction registers: bridges 0 to 31, the wafer TAP 32; the stub's; boundary registers by bridge. -/
  ir : Tbl (BitVec 8) := []
  stubIr : BitVec 2 := 1
  /-- TRST_N of the connector is asserted (R571); what the selected data registers captured, by TAP, the stub's at 33. -/
  trst : Bool := true
  dr : Tbl Word := []
  boundary : Tbl (BitVec 32) := []
  /-- Pins driven by EXTEST, by bridge. -/
  driven : Tbl (Option (BitVec 32)) := []
  /-- Region segment-insertion bits, CTL_SIB and CORE_SIB. -/
  seg : BitVec 512 := 0
  ctlSib : BitVec 512 := 0
  coreSib : BitVec 512 := 0
  /-- REGACC as captured, by region: STATUS and DATA. -/
  acc : Tbl (BitVec 2 × DWord) := []
  snd : Tbl Word := []
  deriving DecidableEq, Repr

/-- Where a packet stands. -/
inductive Loc where
  /-- In the router of this key, at input 0 N, 1 E, 2 S, 3 W, 4 core, 5 service, 6 shore. -/
  | router (key : Nat) (input : Nat)
  /-- At the ejection port toward the core of this key. -/
  | eject (key : Nat)
  /-- At the service port of a region. -/
  | service (region : Nat)
  /-- At a shore port toward a bridge, by attach index (the SHI direction wafer to bridge). -/
  | shore (bridge : Nat) (attach : Nat)
  /-- In a bridge, to be sent to the wafer. -/
  | bridge (bridge : Nat)
  /-- In a bridge, to be sent on a Xeulend port. -/
  | xl (port : Nat)
  /-- At the far end of a Xeulend port: received by a Harbour or a peer module. -/
  | far (port : Nat)
  /-- At the far end, to be sent to this module on a Xeulend port. -/
  | farOut (port : Nat)
  /-- In the watermark FIFO of a Xeulend port (R244). -/
  | wm (port : Nat)
  /-- Taken into the bridge: at its stages or at the engine it hosts. -/
  | arrived (bridge : Nat)
  deriving DecidableEq, Repr

/-- What a packet carries beside its head flit's sideband. -/
inductive Payload where
  | msg (bytes : List Byte)
  | block (hdr : BlkHdr) (bytes : List Byte)
  | xfer (head : XferHead) (data : List Byte)
  deriving DecidableEq, Repr

/-- A VC1, VC2 or VC3 packet in flight. -/
structure Packet where
  serial : Nat
  sb : Sideband
  flits : Nat
  loc : Loc
  payload : Payload
  /-- R130: the packet was cut and ends in a poison tail. -/
  poison : Bool := false
  /-- What the packet serves: 0 channel traffic, 1 mirror copy, 2 pin, 3 restore, 4 checkpoint, 5 retrieval result, 6 relay,
  7 copy (the sender's order, R33, R211, R378). -/
  purpose : Nat := 0
  srcCore : BitVec 18 := 0
  srcModule : BitVec 4 := 0
  since : Nat := 0
  deriving DecidableEq, Repr

/-- RTR_ROUTE, RTR_MCAST and the arbitration and watchdog state of a router (R105–R131). `mark` holds the HOP codes that
the region controller has set; the 0b11 of an absent site or wafer edge is by position, and SIDE, UNREACH and POINT are
computed from the tables (log 15). -/
structure Router where
  mark : Tbl (BitVec 2) := []
  mcast : Tbl (BitVec 5) := []
  /-- Per output and VC: the input served last (R106), plus 1; 0 before any. -/
  last : Tbl Nat := []
  /-- Per output: flits of VC1 and of VC2 sent in the running turn (R105). -/
  sent1 : Tbl Nat := []
  sent2 : Tbl Nat := []
  /-- Per direction: the cycle of the last alive beat received (R127, R128). -/
  beat : Tbl Nat := []
  /-- The router answers its status chain (R129, R131). -/
  dead : Bool := false
  /-- Watched ports that have fired in this episode: bit 0 VC1, 1 VC2 ejection, 2 injection (R94). -/
  fired : BitVec 3 := 0
  deriving DecidableEq, Repr

def Router.init : Router := {}

/-- An entry of a semaphore's holder table (R135). -/
structure SemEntry where
  core : BitVec 18
  module : BitVec 4
  eng : BitVec 3
  units : Nat
  deriving DecidableEq, Repr

/-- SYNC_CFG, SYNC_STAT and the semaphore holder table of one object (R134–R137). -/
structure SyncObj where
  kind : BitVec 3 := 0
  init : BitVec 16 := 0
  held : Bool := false
  forfeit : Bool := false
  count : BitVec 16 := 0
  holder : BitVec 18 := 0
  holderMod : BitVec 4 := 0
  holderEng : BitVec 3 := 0
  holderValid : Bool := false
  table : List SemEntry := []
  deriving DecidableEq, Repr

def SyncObj.free : SyncObj := {}

/-- A waiter entry of a region controller (R139). -/
structure Waiter where
  obj : BitVec 4
  op : BitVec 8
  core : BitVec 18
  module : BitVec 4
  eng : BitVec 3
  deriving DecidableEq, Repr

/-- RGN_SLIDE of one row. -/
structure Slide where
  point : BitVec 5 := 16
  temp : Bool := false
  deriving DecidableEq, Repr

def Slide.init : Slide := {}

/-- A counter: 48-bit value with its sticky bits (R151). -/
structure Counter where
  val : BitVec 48 := 0
  ovf : Bool := false
  wcol : Bool := false
  deriving DecidableEq, Repr

def Counter.init : Counter := {}

/-- All counters of the module, by unit and number, with what reads and writes keep beside them (R151–R158). -/
structure Counters where
  /-- Live counters, key 65536 · unit + number. -/
  live : Tbl Counter := []
  /-- FREEZE of a group, by unit; shadow values, keyed as the counters. -/
  frozen : Tbl Bool := []
  shadow : Tbl (BitVec 48) := []
  /-- Snapshots and staged high words, key 4 · unit + path: 0 Configuration Engine, 1 Lighthouse, 2 the core itself. -/
  snap : Tbl (BitVec 48) := []
  staged : Tbl Half := []
  /-- The word returned by the last read on each path. -/
  out : Tbl Word := []
  deriving DecidableEq, Repr

/-- What a VC0 flit or notice on its way carries. The list of them stands for the Control VC, the status chains and the
seawall frames of the data path: a receiving row takes the first one addressed to it (log 9). -/
inductive Ctl where
  /-- Sync request to a home region (R140). -/
  | syncReq (home : Nat) (op : BitVec 8) (obj : BitVec 17) (operand : Word) (core : BitVec 18) (module : BitVec 4)
      (eng : BitVec 3) (tenant : BitVec 5)
  /-- Sync answer to a core. -/
  | syncAns (core : BitVec 18) (obj : BitVec 17) (op : BitVec 8) (result : BitVec 8)
  /-- Sync answer to an engine (R374). -/
  | engAns (eng : Nat) (obj : BitVec 17) (result : BitVec 8)
  /-- Grant return; `lost` when the grant is to be forfeited (R146, R148). -/
  | grantReturn (home : Nat) (obj : BitVec 17) (core : BitVec 18) (module : BitVec 4) (lost : Bool)
  /-- FORFEIT notice naming a core or a function (R143). -/
  | forfeitCore (region : Nat) (core : BitVec 18) (module : BitVec 4)
  | forfeitFn (region : Nat) (fn : Nat)
  /-- A peer module's notice that its region is lost, and the cores in it (R143, R279). -/
  | forfeitPeer (region : Nat) (lost : Nat) (module : BitVec 4)
  /-- ROUTER_DOWN and LINK_DOWN notices; `south` when the region moves to its south service router (R111, R129). -/
  | routerDown (region : Nat) (router : Nat) (south : Bool)
  | linkDown (region : Nat) (router : Nat) (dir : Nat)
  | offlineNotice (region : Nat) (lost : Nat)
  /-- Tide commands to a region (R196). -/
  | withhold (region : Nat) (eng : Nat) (tide : Word) (rows : BitVec 32)
  | commit (region : Nat) (eng : Nat) (tide : Word)
  | tideClean (region : Nat) (eng : Nat) (tide : Word)
  /-- TDONE, NOCMD and TTAINT of a region or bridge to an engine (R192, R204, R392). -/
  | tdone (eng : Nat) (region : Nat) (tide : Word) (rowsA rowsB : BitVec 32)
  | nocmd (eng : Nat) (region : Nat) (tide : Word)
  | ttaintRows (eng : Nat) (region : Nat) (tide : Word) (rows : BitVec 32)
  | ttaintStream (eng : Nat) (bridge : Nat) (tide : Word) (stream : Nat) (point : Nat)
  /-- Tide orders to a Harbour channel and their answers (R301): engine, target, tide, rows. -/
  | order (commit : Bool) (eng target : Nat) (tide : Word) (rows : List (Nat × Nat))
  | hack (eng target : Nat) (tide : Word) (rows : List (Nat × Nat)) (all : Bool) (applied dropped late : Nat)
  | hhole (eng target : Nat) (tide : Word) (rows : List (Nat × Nat)) (all : Bool)
  /-- A pin order to a region controller: core, tag, address, engine (R378). -/
  | pinOrder (region : Nat) (eng : Nat) (core : BitVec 18) (tag : Half) (addr : Nat)
  /-- A BRIDGE_DOWN notice to a region controller (R231). -/
  | bridgeDown (region : Nat) (bridge : Nat)
  /-- Program flit of an image load to a region (R178). -/
  | program (region : Nat) (group : Option Nat) (first : Nat) (words : List Word) (prog : Nat)
  /-- A live-view change reported to Lighthouse: unit, state, last accepted epoch (R414). -/
  | live (unit : Nat) (state : BitVec 3) (epoch : Word)
  /-- A health-map update on its way to the holder of a unit (R415). -/
  | hmUpdate (unit : Nat) (state : BitVec 3) (epoch : Word)
  deriving DecidableEq, Repr

/-- One region controller (R20–R41, R94, R105, R111, R123, R133–R149). -/
structure Region where
  slide : Tbl Slide := []
  owner : BitVec 5 := 0
  owned : Bool := false
  last : BitVec 5 := 0
  lastValid : Bool := false
  scrubSeed : Word := 0
  scrubBusy : Bool := false
  scrubPass : Bool := false
  scrubDone : Bool := false
  scrubCoresOk : BitVec 10 := 0
  scrubSig : Word := 0
  /-- RGN_CHW_CTL and RGN_CHW_STAT. -/
  chwLimit : BitVec 24 := 0x010000
  chwEn : Bool := true
  chwFired : Bool := false
  /-- RGN_MESH_CTL. -/
  w1 : BitVec 5 := 8
  w2 : BitVec 5 := 8
  /-- RGN_OWN_MAP: bit i set when region i has the same owner. -/
  ownMap : BitVec 512 := 0
  /-- The service map and the offline map that this controller keeps (R111, R149). -/
  svcMap : BitVec 512 := 0
  offMap : BitVec 512 := 0
  /-- The offline maps of the other modules of the domain, by module (R279). -/
  offPeers : Tbl (BitVec 512) := []
  sync : Tbl SyncObj := []
  waiters : List Waiter := []
  /-- The engine to which the region is bound, and whether it is held by a load or as a reserve (R160, R177). -/
  engine : Option (Fin 8) := none
  held : Bool := false
  heldBy : Option (Fin 8) := none
  /-- Released, and not yet back in the mesh (R119). -/
  awaitsRejoin : Bool := false
  /-- TDONE sent in this tide; COMMIT or TIDE_CLEAN received in this guard (R192, R204). -/
  tdoneSent : Bool := false
  cmdSeen : Bool := false
  /-- Rows withheld by WITHHOLD, fenced rows, rows with a slot that became BROKEN, rows that landed a TAINTED block, all in
  this tide (R192, R196, R392). -/
  withheld : BitVec 32 := 0
  rowsBroken : BitVec 32 := 0
  rowsTaint : BitVec 32 := 0
  taintSent : BitVec 32 := 0
  /-- Rows whose rebuilding has not finished (R425). -/
  rebuilding : BitVec 32 := 0
  /-- Those of them that wait only for their pins. -/
  rebuilt : BitVec 32 := 0
  /-- CCLK cycle at which the region joined by a relocation (R431). -/
  joinedAt : Nat := 0
  /-- Bytes received of the load's records and programs, as their running CRC-32C (R179). -/
  recordCheck : Word := 0xFFFFFFFF
  programCheck : Word := 0xFFFFFFFF
  /-- Its regulator is switched on; power-good (R501, R502); a trip holds its release (R515). -/
  powered : Bool := false
  pg : Bool := false
  tripped : Bool := false
  /-- TL, its updates at or below 92 °C in a row, G as received, L as it stands in the running group (R509–R514), and updates in a
  row with VCORE current above 80 A (R517). -/
  tl : BitVec 4 := 0
  quiet : Nat := 0
  gl : BitVec 4 := 0
  lvl : BitVec 4 := 0
  overA : Nat := 0
  /-- The in-field test that runs (R460). -/
  ft : Option FieldTest := none
  /-- Its last scrub passed with no owner since (R533); a core scan has closed since the last scrub (R534). -/
  clean : Bool := false
  scanned : Bool := false
  deriving DecidableEq, Repr

def Region.init : Region := {}

/-- DOM_CTL, DOM_STAT, DOM_ROUTE and DOM_FUNC_MAP (R273–R277). -/
structure Domain where
  id : BitVec 16 := 0
  module : BitVec 4 := 0
  size : BitVec 4 := 0
  priority : BitVec 4 := 15
  en : Bool := false
  dstate : BitVec 3 := 0
  master : BitVec 4 := 0
  parentPort : BitVec 4 := 0
  depth : BitVec 2 := 0
  present : BitVec 16 := 0
  /-- Port of the first hop, by destination module, where VALID is 1. -/
  route : Tbl (Option (BitVec 4)) := []
  /-- REMOTE_FN in [4:0] and VALID in [5], key 16 · function + module. -/
  funcMap : Tbl (BitVec 6) := []
  /-- What waits for a tide boundary guard (R276): master, distance and parent port; routes, PRESENT and child ports. -/
  nextTree : Option (Nat × Nat × Nat) := none
  nextRoute : Option (List (Nat × Nat) × BitVec 16 × List Nat) := none
  /-- ALIGN: the slew that waits for the next guard, the step that waits for the next grid step, missing pulses in a row, and
  T of the TIME_SET that a join waits for (R214–R216, R281). -/
  slew : Int := 0
  step : Option Int := none
  misses : Nat := 0
  joinT : Option DWord := none
  deriving DecidableEq, Repr

/-- A resolved CORES record (R166, R173). -/
structure CoreRec where
  region : Nat
  rowFirst : Nat
  rowLast : Nat
  colFirst : Nat
  colLast : Nat
  prog : Nat
  entry : BitVec 12
  part : BitVec 24
  pstate : Word
  staticQ : BitVec 8
  deriving DecidableEq, Repr

/-- A resolved CHANNELS record: DST in the CORE_SLOT [24:0] layout (R81, R173). -/
structure ChanRec where
  channel : Nat
  slot : Nat
  kind : Nat
  src : BitVec 18
  dst : BitVec 25
  maxHops : Nat
  deriving DecidableEq, Repr

/-- Resolved SYNC, ROUTE, MIRROR and DATA records. -/
structure SyncRec where
  region : Nat
  obj : Nat
  kind : BitVec 3
  init : BitVec 16
  deriving DecidableEq, Repr

structure RouteRec where
  region : Nat
  mesh : Word
  chw : Word
  deriving DecidableEq, Repr

structure MirrorRec where
  region : Nat
  row : Nat
  bank : Nat
  deriving DecidableEq, Repr

structure DataRec where
  core : BitVec 18
  addr : Nat
  off : Nat
  len : Nat
  deriving DecidableEq, Repr

/-- A resolved SHORE record. -/
structure ShoreRec where
  core : BitVec 18
  bridge : Nat
  egress : Bool
  endpoint : Nat
  deriving DecidableEq, Repr

/-- A placement image as pass 1 resolved it (R162–R173). `groups` are the region groups of mode L. -/
structure Image where
  addr : DWord := 0
  len : Nat := 0
  check : Word := 0
  modeL : Bool := false
  imageId : List Byte := []
  layoutAddr : Word := 0xFFFFFFFF
  proof : Word := 0
  stage : List Nat := []
  reserve : List Nat := []
  groups : List (List Nat) := []
  programs : List (List Word) := []
  cores : List CoreRec := []
  chans : List ChanRec := []
  syncs : List SyncRec := []
  routes : List RouteRec := []
  mirrors : List MirrorRec := []
  data : List DataRec := []
  shores : List ShoreRec := []
  deriving DecidableEq, Repr

/-- Where the completion of a command goes: its function, pair and slot, the phase of its pass, and what its entry's head
says (R337, R341, R342). -/
structure Ticket where
  fn : Nat
  pair : Nat
  index : Nat
  phase : Bool
  tag : Half := 0
  op : Byte := 0
  quiet : Bool := false
  deriving DecidableEq, Repr

/-- A completion ready to be written, but for SR_HEAD, which is taken as it is written (R342). -/
structure Cpl where
  ticket : Ticket
  status : Nat
  unit : Nat
  stream : Half := 0xFFFF
  tide : Word := 0xFFFFFFFF
  result : List Byte := []
  deriving DecidableEq, Repr

/-- A LIST in progress: the commands still to run, how many have completed, and their statuses (R361). -/
structure ListRun where
  rest : List (List Byte)
  done : Nat := 0
  codes : List Nat := []
  deriving DecidableEq, Repr

/-- A transfer packet that an engine has sent and that no XACK has answered (R377). -/
structure Xfer where
  reqId : Word
  haddr : DWord
  op : Byte
  count : Nat
  data : List Byte
  ret : Word := 0
  bare : Bool := false
  /-- What it serves: 0 copy, 1 pin, 2 refetch, 3 checkpoint block, 4 checkpoint table or header, 5 restore. -/
  use : Nat
  /-- Index of the pin or checkpoint entry concerned, or the offset of a copy. -/
  ref : Nat := 0
  sentAt : Nat := 0
  resent : Bool := false
  /-- The command that it belongs to. -/
  ticket : Option Ticket := none
  deriving DecidableEq, Repr

/-- What a running command has done so far. -/
inductive Prog where
  | fresh
  /-- COPY: bytes whose move has ended. -/
  | copy (moved : Nat)
  /-- WEIGHT_PIN: entries pinned and failed, and the first failed entry. -/
  | pin (pinned failed : Nat) (first : Option Nat)
  /-- CHECKPOINT: checkpoints completed when it started. -/
  | ckpt
  /-- SYNC_WAIT and SYNC_SIGNAL: the object awaited. -/
  | sync (obj : BitVec 17) (since : Nat)
  /-- REGION_ASSIGN: a scrub runs; HCH_ASSIGN: a zeroing runs. -/
  | scrub
  /-- Waiting for a boundary, a stream's queue, an image load or an audit pass. -/
  | wait
  deriving DecidableEq, Repr

/-- A command that an engine has taken. `cmd` is the command in hand: the entry itself, or the listed command that runs. -/
structure Job where
  ticket : Ticket
  cmd : List Byte
  lst : Option ListRun := none
  started : Bool := false
  since : Nat := 0
  prog : Prog := .fresh
  deriving DecidableEq, Repr

/-- The tide parameters (table of R188). -/
structure TideParams where
  period : BitVec 3 := 2
  deadline : Word := 221184
  ckptTides : Half := 100
  ckptBase : DWord := 0
  ckptValid : Bool := false
  deriving DecidableEq, Repr

/-- What the engine knows of the tide it runs (R192–R203). -/
structure TideRun where
  num : Word := 0xFFFFFFFF
  start : DWord := 0
  active : Bool := false
  /-- ROWS_A and ROWS_B of each region whose TDONE arrived in time. -/
  rowsA : Tbl (Option (BitVec 32)) := []
  rowsB : Tbl (BitVec 32) := []
  /-- The judgement: on time, late, or not yet. -/
  judged : Option Bool := none
  guard : Bool := false
  /-- R215: the tide that ends at a stepped boundary is late; a HALT stream was tainted (R395, R397). -/
  forceLate : Bool := false
  /-- The tide is being ended at a step (R282). -/
  cut : Bool := false
  halt : Bool := false
  /-- Rows named by taint reports, per region (R392). -/
  taintRows : Tbl (BitVec 32) := []
  /-- Rows withheld in this tide, per region: as ROWS_A rows, and as ROWS_B rows or channel destinations (R195). -/
  heldA : Tbl (BitVec 32) := []
  heldB : Tbl (BitVec 32) := []
  deriving DecidableEq, Repr

/-- A running checkpoint copy (R207–R210). -/
structure Ckpt where
  tide : Word
  slot : Nat
  /-- Cores still to be sent, with their entries; entries sent. -/
  entries : List (Nat × List Byte) := []
  /-- Transfer packets sent and not yet acknowledged; a failed one. -/
  outstanding : List Word := []
  copied : Bool := false
  table : Bool := false
  header : Bool := false
  failed : Bool := false
  deriving DecidableEq, Repr

/-- An entry of a region's pin table (R402), with the record and masters that it came from (R378). -/
structure Pin where
  core : BitVec 18
  addr : Nat
  tag : Half
  check : Word
  record : Nat
  master : DWord
  master2 : Option DWord
  bad : Bool := false
  /-- Times in µs at which it failed an audit within 24 h. -/
  fails : List Nat := []
  /-- The verified block is in place. -/
  pinned : Bool := false
  /-- Its fetch: 0 none, 1 due, 2 sent, 3 the second due, 4 the second sent; when it was sent; the controller has its pin order;
  no master answered (R378, R379, R405). -/
  fetch : Nat := 0
  sentUs : Nat := 0
  ordered : Bool := false
  holed : Bool := false
  /-- The WEIGHT_PIN command and its entry. -/
  job : Option (Ticket × Nat) := none
  deriving DecidableEq, Repr

/-- A relocation in progress (R431). -/
structure Reloc where
  lost : Nat
  reserve : Nat
  startUs : Nat
  phase : Nat
  /-- Logical cores whose state was restored and not moved. -/
  restored : List Nat := []
  deriving DecidableEq, Repr

/-- An order sent to a Harbour channel and not yet acknowledged (R301, R304). -/
structure Order where
  target : Nat
  tide : Word
  sentUs : Nat
  deriving DecidableEq, Repr

/-- One engine: Stream Engines 0–7, Transfer Engines 8–11, the Configuration Engine 12. -/
structure Engine where
  /-- ADM_ENG_OWNER. -/
  owner : BitVec 5 := 0
  owned : Bool := true
  /-- ENG_STAT.STATE: 0 IDLE, 1 LOADING, 2 BOUND, 3 STREAMING, 4 FAULTED, 5 RESETTING (R362). -/
  state : BitVec 3 := 0
  faultStatus : Half := 0
  params : TideParams := {}
  /-- A change that waits for the next tide start (R189). -/
  pend : Option TideParams := none
  image : Option Image := none
  /-- CCLK cycle of the bind, or of the last join of a relocated stage (R190, R431). -/
  boundAt : Nat := 0
  /-- IMAGE_UNBIND is running (R364). -/
  unbinding : Bool := false
  tide : TideRun := {}
  /-- On-time commits since the last complete checkpoint, the slot to use next, checkpoints completed, and a CHECKPOINT
  command that waits (R207, R208, R373). -/
  commits : Nat := 0
  ckptSlot : Nat := 0
  ckptSeq : Nat := 0
  ckptAsked : Bool := false
  ckpt : Option Ckpt := none
  /-- ENG_AUDIT, and the counts of the pass that runs (R403, R404). -/
  auditPeriod : Half := 60
  auditEn : Bool := true
  auditRun : Option (Nat × Nat × Nat) := none
  /-- TID_TIME at the bind, and the last periodic pass that fell due (R403). -/
  auditBase : DWord := 0
  auditDone : DWord := 0
  pins : List Pin := []
  reloc : Option Reloc := none
  /-- Stages that wait for a relocation (R428, R435). -/
  relocQueue : List Nat := []
  triedReserves : List Nat := []
  jobs : List Job := []
  xfers : List Xfer := []
  orders : List Order := []
  deriving DecidableEq, Repr

def Engine.init : Engine := {}

/-- A frame of a stream (R370). -/
structure Frame where
  ticket : Ticket
  outAddr : DWord
  outCap : Nat
  /-- The input read from host memory, none for FRAME_OUT. -/
  input : Option (List Byte)
  /-- The input lies complete in the Condition bridge. -/
  ready : Bool
  /-- Its relay has been sent (R220). -/
  relayed : Bool := false
  /-- A block of its relay failed its check: the frame is used and marked, lost, or lost with a halt (R397). -/
  taint : Bool := false
  lost : Bool := false
  halt : Bool := false
  deriving DecidableEq, Repr

/-- A block of egress audio in a staging half, by its descriptor (R235, R248). -/
structure Staged where
  tide : Word
  endpoint : Nat
  sub : Nat
  part : Nat
  parts : Nat
  elements : Nat
  data : List Byte
  tainted : Bool := false
  deriving DecidableEq, Repr

/-- An open stream (R366–R372, R390, and the audio state of R238, R240, R250, R251). -/
structure Stream where
  engine : Fin 8
  fn : Nat
  inEng : Nat
  outEng : Nat
  /-- The audio parameter record (R236). -/
  audio : List Byte
  /-- Stream map: region, row, WHOLE (R368); empty for every row of both images. -/
  map : List (Nat × Nat × Bool)
  policy : BitVec 2 := 0
  pendPolicy : Option (BitVec 2) := none
  queue : List Frame := []
  taken : Option Frame := none
  /-- The tide that the stream runs, and its last tide. -/
  tide : Word := 0xFFFFFFFF
  running : Bool := false
  closing : Option Ticket := none
  /-- The completion of the taken frame waits for Deliver, and its output. -/
  frame : Option (List (List Byte)) := none
  output : Option (List Byte) := none
  delivered : Bool := false
  /-- The output frame's relay: arrived, sent, and the parts that have arrived (R220); those of an input relay. -/
  relayOut : Bool := false
  outSent : Bool := false
  partsOut : List (Nat × List Byte) := []
  partsIn : List (Nat × List Byte) := []
  /-- Conditions that wait for a completion: CONTEXT_HOLE at the next one; REBASED at the first one after that tide. -/
  hole : Bool := false
  rebased : Option Word := none
  /-- Conditions of the running tide: late, broken, tainted (R372). -/
  late : Bool := false
  broken : Bool := false
  tainted : Bool := false
  noInput : Bool := false
  /-- Output bytes of Condition not yet packed, and the parts that they make. -/
  cond : List Byte := []
  condPart : Nat := 0
  condParts : Nat := 0
  /-- Last resampled input sample; histories of both resamplers; samples of the feature window; overlap tail; dither. -/
  lastX : Word := 0
  histIn : List Word := []
  window : List Word := []
  tail : List Word := []
  histOut : List Word := []
  dither : Word := 0
  deriving DecidableEq, Repr

/-- An image load in progress (R177–R179). -/
structure Load where
  eng : Nat
  ticket : Ticket
  image : Image
  fn : Nat
  startUs : Nat
  /-- When its last flits were sent. -/
  sentUs : Nat
  group : Nat
  /-- RECORD_CHECK and PROGRAM_CHECK expected of each stage region. -/
  expect : List (Nat × Word × Word)
  confirmed : List Nat := []
  resent : List Nat := []
  deriving DecidableEq, Repr

/-- The sender of a link with a retry buffer: the frames or units sent and not acknowledged, oldest first: the sequence number,
and the packet, flit and whether it is the packet's last; none for a credit frame or a management unit (R224, R264). -/
structure LinkTx where
  retry : List (Nat × Option (Nat × Nat × Bool)) := []
  next : Nat := 0
  /-- The packet that is being sent, and how many of its flits have been. -/
  cur : Option (Nat × Nat) := none
  /-- Consecutive failures, and how many frames of the buffer were first sent before the latest replay (R227). -/
  fails : Nat := 0
  mark : Nat := 0
  /-- Flits sent for which no credit has come back, by VC and lane (2 × VC + LANE) on an SHI (R104, R228), by VC on a Xeulend link
  (R260). -/
  owed : Tbl Nat := []
  deriving DecidableEq, Repr

/-- The receiver of a link: the next sequence number, whether its NAK has been sent, and the acknowledgement that it gives
(R225, R265). -/
structure LinkRx where
  expect : Nat := 0
  naked : Bool := false
  deriving DecidableEq, Repr

def LinkTx.init : LinkTx := {}
def LinkRx.init : LinkRx := {}

/-- A word of the packing FIFO: its stream, its bytes, its valid bytes, and the end-of-frame mark (R243). -/
structure PackWord where
  stream : Nat
  bytes : List Byte
  valid : Nat
  last : Bool
  deriving DecidableEq, Repr

/-- One shore bridge (R219–R253). -/
structure Bridge where
  /-- BRG_SHI_STAT: 0 RESET, 1 CLOCK, 2 DESKEW, 3 SYNC, 4 ACTIVE, 5 DOWN. -/
  shiState : BitVec 3 := 0
  grpOut : BitVec 4 := 0
  cause : BitVec 3 := 0
  failGrp : BitVec 2 := 0
  /-- Groups that a fenced attach router takes out at the next boundary (R232). -/
  grpDue : BitVec 4 := 0
  /-- Senders and receivers: key 2 · group + direction, 0 wafer to bridge, 1 bridge to wafer. -/
  tx : Tbl LinkTx := []
  rx : Tbl LinkRx := []
  /-- BRG_TAIL_CTL and BRG_WM_CTL. -/
  tailTimeout : BitVec 12 := 64
  tailBurst : BitVec 6 := 16
  wmHigh : BitVec 10 := 768
  wmLow : BitVec 10 := 256
  wmHold : Bool := false
  /-- HOLD_N_IN of the port, deglitched, is 0 (R262). -/
  holdIn : Bool := false
  /-- Tail-timeout FIFOs: the packet of each flit, by group (R247). -/
  tail : Tbl (List Nat) := []
  /-- CCLK cycle of each FIFO's last move (R247). -/
  tailSince : Tbl Nat := []
  /-- Flits of each packet that lie in staging memory. -/
  moved : Tbl Nat := []
  staged : List Staged := []
  pack : List PackWord := []
  /-- Flits in the watermark FIFO (R244). -/
  wmCount : Nat := 0
  /-- The consequences of DOWN have been carried out (R231). -/
  downDone : Bool := false
  /-- Service map: the regions served through their south service router (R111). -/
  svcMap : BitVec 512 := 0
  deriving DecidableEq, Repr

def Bridge.init : Bridge := {}

/-- One Xeulend port (R256–R286). -/
structure Port where
  /-- XL_PORT_STAT. -/
  pstate : BitVec 3 := 0
  partner : BitVec 2 := 0
  partnerPort : BitVec 4 := 0
  cause : BitVec 3 := 0
  alignDelay : BitVec 10 := 0
  /-- What IDENT said of the partner: serial number, and DOM_CTL of a module (R268). -/
  serial : DWord := 0
  identId : BitVec 16 := 0
  identModule : BitVec 4 := 0
  identSize : BitVec 4 := 0
  identPriority : BitVec 4 := 0
  /-- The port may carry domain traffic (R274). -/
  domainOk : Bool := false
  /-- The partner's latest ADVERT: priority, module and distance of the best pair that it knows (R274). -/
  advert : Option (Nat × Nat × Nat) := none
  /-- Times in µs of the retrains within 24 h, of the last DOWN; and no retrain until Lighthouse orders one (R269). -/
  retrainUs : List Nat := []
  downUs : Nat := 0
  stayDown : Bool := false
  /-- Senders and receivers by direction: 0 from this module, 1 to it. -/
  tx : Tbl LinkTx := []
  rx : Tbl LinkRx := []
  /-- Flits of VC1 and VC2 started in the running turn (R261). -/
  sent1 : Nat := 0
  sent2 : Nat := 0
  /-- The port carries traffic (R269); its partner is refused (R288); the consequences of DOWN are done (R283). -/
  carries : Bool := false
  refused : Bool := false
  downDone : Bool := false
  /-- TID_TIME of the last rise of ALIGN_OUT, and whether the port leads to a child in the tree (R280). -/
  alignRise : Option DWord := none
  child : Bool := false
  deriving DecidableEq, Repr

def Port.init : Port := {}

/-- One ring pair: its registers and what it has in hand (R335–R344). -/
structure Pair where
  sr : DWord := 0
  cr : DWord := 0
  db : DWord := 0
  /-- RING_CTL: EN [0], ENGINE [4:1], LOG2SIZE [9:5], POLL [21:10]. -/
  ctl : Word := 0
  halted : Bool := false
  cause : BitVec 3 := 0
  head : Half := 0
  phase : Bool := true
  /-- PROD and CONS as last accepted (R343). -/
  prod : Half := 0
  cons : Half := 0
  /-- A doorbell read is outstanding (R340). -/
  reading : Bool := false
  /-- Entries fetched and on their way to the engine: index, phase, bytes. -/
  fetched : List (Nat × Bool × List Byte) := []
  /-- Index that the engine takes next (R338). -/
  expect : Nat := 0
  /-- Slots of entries fetched and not completed. -/
  owed : List Nat := []
  /-- Completions ready to be written. -/
  ready : List Cpl := []
  /-- Completions that the standby keeps, by slot (R350). -/
  kept : List (Nat × List Byte) := []
  reported : Half := 0
  /-- The entry whose wait for a slot has been counted (R341). -/
  waited : Option Nat := none
  deriving DecidableEq, Repr

def Pair.init : Pair := {}

/-- One MSI-X vector (R345). -/
structure Vec where
  count : BitVec 9 := 0
  time : BitVec 11 := 0
  pending : Nat := 0
  firstUs : Option Nat := none
  /-- Message address and data of its MSI-X table entry, its mask and its pending bit. -/
  addr : DWord := 0
  data : Word := 0
  masked : Bool := true
  pba : Bool := false
  /-- Messages sent. -/
  sent : Nat := 0
  deriving DecidableEq, Repr

def Vec.init : Vec := {}

/-- One function (R328–R354). -/
structure Fn where
  home : Bool := false
  keep : Bool := false
  port : Bool := false
  standbyOk : Bool := false
  resetBusy : Bool := false
  /-- RESIDENT_KEEP as sampled when the running reset began; the reset is a PCIe FLR (R346, R348). -/
  keepNow : Bool := false
  flr : Bool := false
  event : Byte := 0
  eventEn : Byte := 0xFF
  /-- STR_INT_POL.STREAM. -/
  polStream : BitVec 12 := 0
  deriving DecidableEq, Repr

def Fn.init : Fn := {}

/-- One host port (R327, R351, R354). -/
structure HostPort where
  l0 : Bool := false
  /-- Time in µs since which the link is out of L0. -/
  downUs : Nat := 0
  /-- VF Enable, and how many VFs are enabled. -/
  vfEn : Bool := false
  vfs : BitVec 5 := 0
  /-- PERST_N is asserted (R574). -/
  perst : Bool := false
  deriving DecidableEq, Repr

def HostPort.init : HostPort := {}

/-- A staged APPEND block (R299). -/
structure StagedBlk where
  eng : Nat
  tide : Word
  core : BitVec 18
  body : List Byte
  deriving DecidableEq, Repr

/-- A list slot of a bank: the entries kept, best first, the tide of the request, and its status (R315, R317). -/
structure ListSlot where
  entries : List (Word × Nat) := []
  tide : Word := 0xFFFFFFFF
  status : Nat := 0
  deriving DecidableEq, Repr

def ListSlot.init : ListSlot := {}

/-- One Harbour channel with its 32 banks (R289–R326). -/
structure HChan where
  /-- HB_CH_MODE.MODE: true for PROCESSOR. -/
  mode : Bool := false
  zeroing : Bool := false
  owner : BitVec 5 := 0
  owned : Bool := false
  last : BitVec 5 := 0
  lastValid : Bool := false
  band : BitVec 2 := 0
  limit : BitVec 15 := 24576
  /-- Bytes of the banks, key 2^30 · bank + offset. -/
  mem : Mem := []
  /-- Times in µs of uncorrectable errors of a bank within 24 h (R322). -/
  ueTimes : List (Nat × Nat) := []
  staging : List StagedBlk := []
  /-- Last tide order per engine, rows of blocks dropped since then, and blocks discarded as late since the last HACK. -/
  ordered : Tbl (Option Word) := []
  dropRows : List (Nat × Nat × Nat) := []
  late : Tbl Nat := []
  /-- List slots, key 16 · bank + slot, and the entries of the last TOPK answered per slot with its tide. -/
  lists : Tbl ListSlot := []
  answered : Tbl ListSlot := []
  /-- NMU-cycles spent in the running window (R312). -/
  spent : Nat := 0
  stalled : Bool := false
  deriving DecidableEq, Repr

def HChan.init : HChan := {}

/-- One Harbour (R287, R300). -/
structure Harbour where
  /-- HB_RGN_ENG: Stream Engine and VALID, by region. -/
  rgnEng : Tbl (Option (Fin 8)) := []
  /-- The Harbour is powered and its power-on test has run. -/
  powered : Bool := false
  deriving DecidableEq, Repr

def Harbour.init : Harbour := {}

/-- One sensor with its filter (R484): values are FP32. -/
structure Sensor where
  /-- The last plausible samples, at most five, oldest first, and the time of the last one in µs. -/
  vals : List Word := []
  lastUs : Nat := 0
  /-- Implausible samples in a row; samples in range in a row while FAILED; the last filtered value. -/
  bad : Nat := 0
  good : Nat := 0
  failed : Bool := false
  last : Word := 0
  deriving DecidableEq, Repr

def Sensor.init : Sensor := {}


/-- The state of the module, its host memory and its Harbours. -/
structure State where
  /-- The commands that wait, first in, first out. -/
  pending : List Instr
  /-- CCLK cycles since power-on. -/
  cclk : Nat
  /-- Physical cores by key (R411 unit id). -/
  cores : Tbl Core
  /-- Routers by the key of their core. -/
  routers : Tbl Router
  /-- Region controllers. -/
  regions : Tbl Region
  /-- Packets in flight, in the order in which each last moved. -/
  packets : List Packet
  /-- Serial number of the next packet. -/
  serial : Nat
  /-- Control flits and notices on their way, oldest first. -/
  ctl : List Ctl
  /-- All counters. -/
  cnt : Counters
  /-- Health of every unit, by unit id. -/
  health : Tbl Health
  /-- Log queues of the reporting units, by unit id. -/
  logq : Tbl LogQueue
  /-- The tide domain. -/
  dom : Domain
  /-- RGN_RELOC: the region that now carries a lost region's stage, the same in every controller and bridge (R430). -/
  reloc : Tbl (Option Nat)
  /-- TID_TIME, in ACLK cycles (R184). -/
  tid : DWord
  /-- CCLK cycles since the last ACLK edge, 0 to 49. -/
  phase : Nat
  /-- The 13 engines. -/
  engines : Tbl Engine
  /-- The 32 shore bridges. -/
  bridges : Tbl Bridge
  /-- The 16 Xeulend ports. -/
  ports : Tbl Port
  /-- Host memory; a byte that nothing has written reads 0 (log 4). -/
  hmem : Mem
  /-- Host ports HA (0) and HB (1). -/
  hports : Tbl HostPort
  /-- The 32 functions. -/
  fns : Tbl Fn
  /-- Ring pairs, key 256 · function + pair. -/
  pairs : Tbl Pair
  /-- MSI-X vectors, key 2048 · function + vector. -/
  vecs : Tbl Vec
  /-- Open streams by number. -/
  streams : Tbl (Option Stream)
  /-- The image load that the Configuration Engine runs. -/
  load : Option Load
  /-- REQ_ID of the next transfer packet. -/
  reqId : Word
  /-- Harbour channels, key 32 · quad + channel. -/
  hchans : Tbl HChan
  /-- Harbours by quad. -/
  harbours : Tbl Harbour
  /-- Sensors by id (R483). -/
  sensors : Tbl Sensor
  /-- Management nodes: regions by number, bridge b at 512 + b, Lighthouse at 1022. -/
  nodes : Tbl SwNode
  /-- Lighthouse; its flash holds two images that verify (log 7). -/
  lh : Lighthouse
  /-- Supplies, clocks and throttle levels. -/
  power : Power
  /-- Bring-up and in-field test. -/
  up : BringUp
  /-- Debug and test access. -/
  dbg : Debug
  deriving DecidableEq, Repr

/-- The module as power is applied: bring-up in phase 1, nothing powered, no command waiting (R45, R443). -/
def State.reset : State :=
  { pending := [],
    cclk := 0,
    cores := [],
    routers := [],
    regions := [],
    packets := [],
    serial := 0,
    ctl := [],
    cnt := {},
    health := [],
    logq := [],
    dom := {},
    reloc := [],
    tid := 0,
    phase := 0,
    engines := [],
    bridges := [],
    ports := [],
    hmem := [],
    hports := [],
    fns := [],
    pairs := [],
    vecs := [],
    streams := [],
    load := none,
    reqId := 0,
    hchans := [],
    harbours := [],
    sensors := [],
    nodes := [],
    lh := {},
    power := {},
    up := {},
    dbg := {} }

/-- The reasons at which the machine stops. No meaning of this model raises one: every behaviour of the spec is a next
state. The type is kept closed with one name. -/
inductive Fault where
  /-- Raised by nothing (safe: an unreachable stop). -/
  | none
  deriving DecidableEq, Repr

/-- The reasons at which a command is refused. -/
inductive Refusal where
  /-- Raised by the dispatch for a row without a meaning (safe: the run stops). -/
  | notModelled (mnemonic : String)
  /-- Raised for a command whose operands are ill formed (`WellFormed`): a list of a length the row cannot carry (safe). -/
  | illFormed
  deriving DecidableEq, Repr

end Sys2Proof.Machine
end

