-- ==== Sys2Proof/Machine/Ops.lean ====
section
/-! DEFINITION. Machine/Ops.lean: tables and memories, geometry and unit names, counters, the event log, and access to the
records of State. -/

namespace Sys2Proof.Machine

open Sys2Proof

/-! ### Sparse tables -/

/-- The entry at key `k`, or the default. -/
def tget {α : Type} (d : α) : Tbl α → Nat → α
  | [], _ => d
  | (k', v) :: t, k => if k = k' then v else tget d t k

/-- The table without its entries at key `k`. -/
def terase {α : Type} (k : Nat) : Tbl α → Tbl α
  | [] => []
  | (k', v') :: t => if k = k' then terase k t else (k', v') :: terase k t

/-- The table with `v` put in its place at key `k`. -/
def tins {α : Type} (k : Nat) (v : α) : Tbl α → Tbl α
  | [] => [(k, v)]
  | (k', v') :: t =>
    if k < k' then (k, v) :: (k', v') :: t
    else if k = k' then (k, v) :: t
    else (k', v') :: tins k v t

/-- The table with `v` at key `k`; an entry equal to the default is not listed. -/
def tset {α : Type} [DecidableEq α] (d : α) (t : Tbl α) (k : Nat) (v : α) : Tbl α :=
  if v = d then terase k t else tins k v t

/-- The entry at `k` changed by `f`. -/
def tupd {α : Type} [DecidableEq α] (d : α) (t : Tbl α) (k : Nat) (f : α → α) : Tbl α :=
  tset d t k (f (tget d t k))

/-- The canonical form: keys strictly rising, no default entry. -/
def twf {α : Type} [DecidableEq α] (d : α) : Tbl α → Bool
  | [] => true
  | (k, v) :: t =>
    decide (v ≠ d) && (match t with
      | [] => true
      | (k', _) :: _ => decide (k < k')) && twf d t

/-- Only the entries whose key satisfies `p`. -/
def tkeep {α : Type} (p : Nat → Bool) (t : Tbl α) : Tbl α := t.filter (fun e => p e.1)

/-- `f` applied at each key of a list, in order. -/
def tupdAll {α : Type} [DecidableEq α] (d : α) (t : Tbl α) (ks : List Nat) (f : Nat → α → α) : Tbl α :=
  ks.foldl (fun t k => tupd d t k (f k)) t

/-! ### Bytes -/

/-- `n` little-endian bytes of a number (R4). -/
def leBytes : Nat → Nat → List Byte
  | 0, _ => []
  | n + 1, v => BitVec.ofNat 8 v :: leBytes n (v / 256)

/-- The number that little-endian bytes spell (R4). -/
def ofBytes : List Byte → Nat
  | [] => 0
  | b :: t => b.toNat + 256 * ofBytes t

/-- One byte of a memory; an unlisted byte is 0. [DESIGN CHOICE: log 4] -/
def mget (m : Mem) (a : Nat) : Byte := tget 0 m a

/-- A memory with one byte written. -/
def mset (m : Mem) (a : Nat) (v : Byte) : Mem := tset 0 m a v

/-- `n` bytes from address `a` upward. -/
def readBytes (m : Mem) (a : Nat) : Nat → List Byte
  | 0 => []
  | n + 1 => mget m a :: readBytes m (a + 1) n

/-- Bytes written from address `a` upward. -/
def writeBytes (m : Mem) (a : Nat) : List Byte → Mem
  | [] => m
  | b :: t => writeBytes (mset m a b) (a + 1) t

/-- The canonical form of a memory. -/
def Memory.wf (m : Mem) : Bool := twf 0 m

/-- A little-endian number of `n` bytes in memory. -/
def readNat (m : Mem) (a n : Nat) : Nat := ofBytes (readBytes m a n)

/-- A field of a byte list. -/
def field (bs : List Byte) (off n : Nat) : Nat := ofBytes ((bs.drop off).take n)

/-- Bits [hi:lo] of a number. -/
def bits (x hi lo : Nat) : Nat := (x >>> lo) % 2 ^ (hi + 1 - lo)

/-- A byte list cut or filled with zeros to `n` bytes. -/
def padTo (n : Nat) (bs : List Byte) : List Byte := (bs ++ List.replicate n 0).take n

/-! ### CRC-32C (R108) -/

/-- Eight reflected steps of the CRC-32C polynomial. [PRESUMED: log 185] -/
def crcBits : Nat → Word → Word
  | 0, c => c
  | n + 1, c => crcBits n (if c.getLsbD 0 then (c >>> 1) ^^^ 0x82F63B78#32 else c >>> 1)

/-- CRC-32C of bytes from a running value, without the final inversion. -/
def crcRun (c : Word) : List Byte → Word
  | [] => c
  | b :: t => crcRun (crcBits 8 (c ^^^ b.setWidth 32)) t

/-- CRC-32C with initial value `seed` and final XOR 0xFFFF_FFFF (R39, R108). -/
def crc32cSeed (seed : Word) (bs : List Byte) : Word := crcRun seed bs ^^^ 0xFFFFFFFF#32

/-- CRC-32C with initial value 0xFFFF_FFFF (R108). [PRESUMED: log 185] -/
def crc32c (bs : List Byte) : Word := crc32cSeed 0xFFFFFFFF#32 bs

/-! ### Geometry (R18–R20, R102) -/

/-- First column, number of sites and first region of a grid row (site grid map). -/
def gridRow (row : Nat) : Nat × Nat × Nat :=
  match row with
  | 0 => (6, 12, 0)
  | 1 => (4, 16, 12)
  | 2 => (3, 18, 28)
  | 3 => (2, 20, 46)
  | 4 => (1, 22, 66)
  | 19 => (1, 22, 424)
  | 20 => (2, 20, 446)
  | 21 => (3, 18, 466)
  | 22 => (4, 16, 484)
  | 23 => (6, 12, 500)
  | r => if r < 24 then (0, 24, 88 + 24 * (r - 5)) else (0, 0, 512)

/-- The grid row of region `n` (R19). -/
def regionRow (n : Nat) : Nat :=
  if n < 12 then 0 else if n < 28 then 1 else if n < 46 then 2 else if n < 66 then 3 else if n < 88 then 4
  else if n < 424 then 5 + (n - 88) / 24
  else if n < 446 then 19 else if n < 466 then 20 else if n < 484 then 21 else if n < 500 then 22 else 23

/-- The grid column of region `n`. -/
def regionCol (n : Nat) : Nat := (gridRow (regionRow n)).1 + (n - (gridRow (regionRow n)).2.2)

/-- The region at a grid site, if the site is present (R18). -/
def regionAt (col row : Nat) : Option Nat :=
  let g := gridRow row
  if row < 24 ∧ g.1 ≤ col ∧ col < g.1 + g.2.1 then some (g.2.2 + (col - g.1)) else none

/-- The key of a core or router: its unit id without class (R411). -/
def coreKey (region row col : Nat) : Nat := region + 512 * row + 16384 * col
def keyRegion (k : Nat) : Nat := k % 512
def keyRow (k : Nat) : Nat := k / 512 % 32
def keyCol (k : Nat) : Nat := k / 16384 % 32

/-- Mesh coordinates of a router (R102). -/
def meshX (k : Nat) : Nat := 17 * regionCol (keyRegion k) + keyCol k
def meshY (k : Nat) : Nat := 32 * regionRow (keyRegion k) + keyRow k

/-- The router at mesh coordinates, if its site is present. -/
def routerAt (x y : Nat) : Option Nat := (regionAt (x / 17) (y / 32)).map (fun n => coreKey n (y % 32) (x % 17))

/-- The router beyond the hop `dir` (0 N, 1 E, 2 S, 3 W). -/
def neighbour (k dir : Nat) : Option Nat :=
  let x := meshX k
  let y := meshY k
  match dir with
  | 0 => if y = 0 then none else routerAt x (y - 1)
  | 1 => routerAt (x + 1) y
  | 2 => routerAt x (y + 1)
  | 3 => if x = 0 then none else routerAt (x - 1) y
  | _ => none

/-- The opposite direction. -/
def opposite (dir : Nat) : Nat := (dir + 2) % 4

/-- The regions that share an edge with region `n`. -/
def neighbourRegions (n : Nat) : List Nat :=
  let c := regionCol n
  let r := regionRow n
  (if r = 0 then [] else (regionAt c (r - 1)).toList) ++ (regionAt (c + 1) r).toList
    ++ (regionAt c (r + 1)).toList ++ (if c = 0 then [] else (regionAt (c - 1) r).toList)

/-- Region and face (0 N, 1 E, 2 S, 3 W) at which a bridge attaches (R126). -/
def bridgeSite (b : Nat) : Nat × Nat :=
  match b with
  | 0 => (7, 0) | 1 => (9, 0) | 2 => (11, 0) | 3 => (27, 0) | 4 => (65, 0) | 5 => (87, 1) | 6 => (159, 1) | 7 => (207, 1)
  | 8 => (303, 1) | 9 => (351, 1) | 10 => (399, 1) | 11 => (445, 1) | 12 => (483, 1) | 13 => (499, 2) | 14 => (510, 2)
  | 15 => (508, 2) | 16 => (504, 2) | 17 => (502, 2) | 18 => (500, 2) | 19 => (484, 2) | 20 => (446, 2) | 21 => (424, 3)
  | 22 => (352, 3) | 23 => (304, 3) | 24 => (208, 3) | 25 => (160, 3) | 26 => (112, 3) | 27 => (66, 3) | 28 => (28, 3)
  | 29 => (12, 0) | 30 => (1, 0) | _ => (3, 0)

/-- The router of attach index `a` of a bridge (R126). -/
def attachKey (b a : Nat) : Nat :=
  let n := (bridgeSite b).1
  match (bridgeSite b).2 with
  | 0 => coreKey n 0 (2 + 4 * a)
  | 1 => coreKey n (4 + 8 * a) 16
  | 2 => coreKey n 31 (2 + 4 * a)
  | _ => coreKey n (4 + 8 * a) 0

/-- The keys of all physical cores of a region, row 0 c00 to row 31 c16. -/
def regionCores (n : Nat) : List Nat :=
  (List.range 32).flatMap (fun r => (List.range 17).map (fun c => coreKey n r c))

/-- The keys of the physical cores of a row. -/
def rowCores (n row : Nat) : List Nat := (List.range 17).map (fun c => coreKey n row c)

/-! ### Unit ids (R411) -/

def uCore (k : Nat) : Nat := k
def uRouter (k : Nat) : Nat := 0x10000000 + k
def uLink (k axis : Nat) : Nat := 0x20000000 + k + 0x80000 * axis
def uRegion (n : Nat) : Nat := 0x30000000 + n
def uBridge (b : Nat) : Nat := 0x40000000 + b
def uPort (p : Nat) : Nat := 0x50000000 + p
def uHost (h : Nat) : Nat := 0x60000000 + h
def uBank (quad ch bank : Nat) : Nat := 0x70000000 + bank + 32 * ch + 1024 * quad
def uChannel (quad ch : Nat) : Nat := 0x80000000 + ch + 32 * quad
def uHarbour (quad : Nat) : Nat := 0x90000000 + quad

/-- The link of a hop: the router at its west or north end and 1 east, 2 south (R411). -/
def uHop (k dir : Nat) : Nat :=
  match dir with
  | 1 => uLink k 1
  | 2 => uLink k 2
  | 0 => uLink ((neighbour k 0).getD k) 2
  | _ => uLink ((neighbour k 3).getD k) 1

/-! ### Records of State -/

def getCore (s : State) (k : Nat) : Core := tget Core.init s.cores k
def setCore (s : State) (k : Nat) (v : Core) : State := { s with cores := tset Core.init s.cores k v }
def updCore (s : State) (k : Nat) (f : Core → Core) : State := setCore s k (f (getCore s k))
def getRouter (s : State) (k : Nat) : Router := tget Router.init s.routers k
def updRouter (s : State) (k : Nat) (f : Router → Router) : State :=
  { s with routers := tset Router.init s.routers k (f (getRouter s k)) }
def getRegion (s : State) (n : Nat) : Region := tget Region.init s.regions n
def updRegion (s : State) (n : Nat) (f : Region → Region) : State :=
  { s with regions := tset Region.init s.regions n (f (getRegion s n)) }

/-- `f` applied to the state at each element of a list, in order. -/
def forAll {α : Type} (xs : List α) (f : α → State → State) (s : State) : State := xs.foldl (fun s x => f x s) s

/-- A control flit or notice sent. [DEDUCED: log 9] -/
def sendCtl (c : Ctl) (s : State) : State := { s with ctl := s.ctl ++ [c] }

/-- The first control flit that `p` accepts, and the state without it. [DEDUCED: log 9] -/
def takeCtl {α : Type} (p : Ctl → Option α) (s : State) : Option (α × State) :=
  match s.ctl.findSome? p with
  | none => none
  | some a => some (a, { s with ctl := s.ctl.eraseP (fun c => (p c).isSome) })

/-- The row's slide point (R20). -/
def slideOf (s : State) (region row : Nat) : Slide := tget Slide.init (getRegion s region).slide row
def pointOf (s : State) (region row : Nat) : Nat := (slideOf s region row).point.toNat

/-- R20: the physical column that carries logical column `l` at slide point `f`. -/
def carrierCol (f l : Nat) : Nat := if l < f then l else l + 1

/-- The logical column that a physical column carries at slide point `f`, if any. -/
def logicalCol (f c : Nat) : Option Nat := if c < f ∧ c < 16 then some c else if f < c then some (c - 1) else none

/-- The key of the physical core that carries a logical core id (R9, R20). -/
def carrier (s : State) (id : Nat) : Nat :=
  let n := id / 512 % 512
  let r := id / 16 % 32
  coreKey n r (carrierCol (pointOf s n r) (id % 16))

/-- The logical core id that a physical core carries, if any (R9, R20). -/
def logicalId (s : State) (k : Nat) : Option Nat :=
  (logicalCol (pointOf s (keyRegion k) (keyRow k)) (keyCol k)).map
    (fun l => keyRegion k * 512 + keyRow k * 16 + l)

/-- The logical id of a core for a record: a core that carries no logical column is named by its row's column 15. -/
def coreIdOf (s : State) (k : Nat) : BitVec 18 :=
  BitVec.ofNat 18 ((logicalId s k).getD (keyRegion k * 512 + keyRow k * 16 + 15))

/-! ### Health (R412–R414) -/

def getHealth (s : State) (u : Nat) : Health := tget Health.init s.health u
def updHealth (s : State) (u : Nat) (f : Health → Health) : State :=
  { s with health := tset Health.init s.health u (f (getHealth s u)) }

/-- The effective state: the greater of the two views (R414); a unit in its self-check stays FENCED (R417). -/
def eff (s : State) (u : Nat) : Nat :=
  let h := getHealth s u
  max (max h.map.toNat h.live.toNat) (if h.checking then 2 else 0)

/-- A unit in use: IN_SERVICE or SUSPECT (R12). -/
def usable (s : State) (u : Nat) : Bool := decide (eff s u < 2)

/-! ### Counters (R151) -/

/-- The key of counter `n` of unit `u`. -/
def ctrKey (u n : Nat) : Nat := 65536 * u + n

def getCtr (s : State) (u n : Nat) : Counter := tget Counter.init s.cnt.live (ctrKey u n)

/-- R151: modulo 2^48; a carry out of the top sets OVF. -/
def Counter.add (c : Counter) (v : Nat) : Counter :=
  { c with val := BitVec.ofNat 48 (c.val.toNat + v), ovf := c.ovf || decide (2 ^ 48 ≤ c.val.toNat + v) }

/-- A counter advanced by `v`. -/
def bumpBy (u n v : Nat) (s : State) : State :=
  { s with cnt := { s.cnt with live := tupd Counter.init s.cnt.live (ctrKey u n) (fun c => c.add v) } }

/-- A counter advanced by one. -/
def bump (u n : Nat) (s : State) : State := bumpBy u n 1 s

/-! ### The event log (R479) -/

def getLogq (s : State) (u : Nat) : LogQueue := tget LogQueue.init s.logq u

/-- A record raised by the reporting unit `rep`: it joins the unit's queue of 64, or is discarded and counted (R479).
[DEDUCED: log 102] -/
def logAt (rep : Nat) (r : LogRec) (s : State) : State :=
  { s with
    logq := tupd LogQueue.init s.logq rep
      (fun q => if q.recs.length < 64 then { q with recs := q.recs ++ [r] } else { q with lost := q.lost + 1 }) }

/-- A record of type `typ` about unit `u`, with DATA as (size, value) fields (R480). [DEDUCED: log 102] -/
def mkRec (typ sev u : Nat) (fn : Option Nat) (tide : Word) (data : List (Nat × Nat)) : LogRec :=
  { typ := BitVec.ofNat 16 typ, sev := BitVec.ofNat 2 sev, fn := BitVec.ofNat 8 (fn.getD 0xFF), unit := BitVec.ofNat 32 u,
    tide := tide, data := data.flatMap (fun f => leBytes f.1 f.2) }

/-- The function that owns a region, for the FN field of a record. [DEDUCED: log 173] -/
def ownerOf (s : State) (n : Nat) : Option Nat :=
  if (getRegion s n).owned then some (getRegion s n).owner.toNat else none

/-- A record raised by the region controller of region `n`. [DEDUCED: log 173] -/
def logRegion (n typ sev u : Nat) (tide : Word) (data : List (Nat × Nat)) (s : State) : State :=
  logAt (uRegion n) (mkRec typ sev u (ownerOf s n) tide data) s

/-! ### Lists -/

/-- An element inserted before the first one that it may precede. -/
def insertBy {α : Type} (le : α → α → Bool) (x : α) : List α → List α
  | [] => [x]
  | y :: t => if le x y then x :: y :: t else y :: insertBy le x t

/-- A list in the order of `le`. -/
def sortBy {α : Type} (le : α → α → Bool) : List α → List α
  | [] => []
  | x :: t => insertBy le x (sortBy le t)

/-- A tide number that names no tide. -/
def noTide : Word := 0xFFFFFFFF#32

/-- The first `some` beyond an index, wrapping: round robin over `n` places starting after the one served last. -/
def roundRobin (n last : Nat) (ready : Nat → Bool) : Option Nat :=
  ((List.range n).map (fun i => (last + i) % n)).find? ready

end Sys2Proof.Machine
end

