-- ==== Sys2Proof/Machine/Flags.lean ====
section
/-! DEFINITION. Machine/Flags.lean: the numbers of the counters (R152, R384, R385, R409, R561), and how counters and W1C bits
are read, written, frozen and cleared (R6, R8, R151–R158). -/

namespace Sys2Proof.Machine

open Sys2Proof

/-! ### Counter units beside the unit ids of R411 -/

def uEngine (e : Nat) : Nat := 0xC0000000 + e
def uPair (p : Nat) : Nat := 0xD0000000 + p
def uModule : Nat := 0xE0000000
def uLighthouse : Nat := 0xF0000000

/-! ### Core counter numbers (R152) -/

def cCycRun : Nat := 4
/-- [DEDUCED: log 32] -/
def cInstr : Nat := 5
def cExc : Nat := 6
def cTmacBusy : Nat := 7
def cBlkWait : Nat := 9
def cBlkStale : Nat := 10
def cBlkDrop : Nat := 11
def cSyncWait : Nat := 12
def cSyncFull : Nat := 13
def cSlotMsgs (k : Nat) : Nat := 0x20 + k
def cSlotBlks (k : Nat) : Nat := 0x40 + k
def cSlotStall (k : Nat) : Nat := 0x60 + k
def cSlotDisc (k : Nat) : Nat := 0x80 + k
def cQMsgs (q : Nat) : Nat := 0xA0 + q
def cQWait (q : Nat) : Nat := 0xA8 + q
def cQDrop (q : Nat) : Nat := 0xB0 + q
def cRtFlits (p : Nat) : Nat := 0xC0 + p
def cRtDetour : Nat := 0xD0
def cRtUnreach : Nat := 0xD1
def cRtKilled : Nat := 0xD2
def cTagDrop : Nat := 0xD3
def cLinkFires : Nat := 0xD4

/-- The numbers that a core's own counters have (R152). -/
def coreCounter (n : Nat) : Bool :=
  decide (n ≤ 0xD) || (decide (0x20 ≤ n) && decide (n < 0xB8)) || (decide (0xC0 ≤ n) && decide (n ≤ 0xC6))
    || (decide (0xC8 ≤ n) && decide (n ≤ 0xCE)) || (decide (0xD0 ≤ n) && decide (n ≤ 0xD4))

/-! ### Region counters (SCOPE 1) and integrity counters (SCOPE 8, at 0x100 and up) -/

def rSyncOps : Nat := 0
def rSyncForfeits : Nat := 1
def rSyncTrel : Nat := 2
def rSyncFull : Nat := 3
def rChwFires : Nat := 4
def rTidNocmd : Nat := 5
def rSlides : Nat := 6
def rSlideBacks : Nat := 7
def rHmStale : Nat := 8
def rHmDisagree : Nat := 9
def rFtPass : Nat := 10
def rFtFail : Nat := 11
def rFtOverruled : Nat := 12
def rFtAbandon : Nat := 13
def rFtDropwin : Nat := 14
def rFtGrantRefused : Nat := 15
def rThrSwallowed : Nat := 16
def rThrChanges : Nat := 17
def rLandFail : Nat := 0x100
def rPinFail : Nat := 0x101
def rAudChecked : Nat := 0x102
def rAudFail : Nat := 0x103
def rSeqMismatch : Nat := 0x104
def rMirrorFail : Nat := 0x105
def rRestoreFail : Nat := 0x106
def bEgrFail : Nat := 0x40
def bRelayFail : Nat := 0x41
def eTainted : Nat := 0x100
def eDrop : Nat := 0x101
def eHalt : Nat := 0x102
def eTtaintLate : Nat := 0x103
def eAudPasses : Nat := 0x104
def eAudBad : Nat := 0x105

/-! ### Engine counters (R385) -/

def eOntime : Nat := 0
def eLate : Nat := 1
def eWithheld : Nat := 2
def eTdoneLate : Nat := 3
def eCkptOk : Nat := 4
def eCkptFail : Nat := 5
def eRebaseLost : Nat := 6
def eStageLate : Nat := 7
def eOrderTo : Nat := 8
def eFrames : Nat := 9
def eNoframe : Nat := 10
def eRefetch : Nat := 11
def eRelocDone : Nat := 12
def eRelocFail : Nat := 13
def eRestoreMirror : Nat := 14
def eRestoreCkpt : Nat := 15
def eRestoreNone : Nat := 16
def teBytes : Nat := 0
def teResend : Nat := 1
def teTimeout : Nat := 2
def ceLoads : Nat := 0
def ceResends : Nat := 1
def ceRefused : Nat := 2

/-! ### Reading and writing counters -/

/-- The freeze group of a unit: a Xeulend port belongs to its bridge's group, a Harbour channel to its Harbour's
(R157, register spaces of R561 and R562). -/
def freezeGroup (u : Nat) : Nat :=
  if u / 0x10000000 = 5 then uBridge (2 * (u % 16))
  else if u / 0x10000000 = 8 then uHarbour (u / 32 % 4)
  else u

def isFrozen (s : State) (u : Nat) : Bool := tget false s.cnt.frozen (freezeGroup u)

/-- The value that a read sees: the shadow while the group is frozen (R157). -/
def ctrRead (s : State) (u n : Nat) : BitVec 48 :=
  if isFrozen s u then tget 0 s.cnt.shadow (ctrKey u n) else (getCtr s u n).val

def snapKey (u path : Nat) : Nat := 4 * u + path

/-- A router has output port `p`: mesh ports toward present sites, the core port, a service port or a shore port (R102, R126). -/
def hasPort (k p : Nat) : Bool :=
  match p with
  | 4 => true
  | 5 => decide (keyCol k = 8) && (decide (keyRow k = 0) || decide (keyRow k = 31))
  | 6 => (List.range 32).any (fun b => (List.range 4).any (fun a => decide (attachKey b a = k)))
  | _ => (neighbour k p).isSome

/-- R152: the counter of a port that the router lacks: it reads 0 and never counts. -/
def deadCounter (u n : Nat) : Bool :=
  decide (u < 0x10000000)
    && ((decide (0xC0 ≤ n) && decide (n ≤ 0xC6) && !hasPort u (n - 0xC0))
      || (decide (0xC8 ≤ n) && decide (n ≤ 0xCE) && !hasPort u (n - 0xC8)))

/-- What a counter gains in a cycle (R152). -/
def gainOf (u n inc : Nat) : Nat := if deadCounter u n then 0 else inc

/-- A read of the low word: the low 32 bits, with a snapshot of all 48 for that path and unit (R153). -/
def ctrLoRead (path u n : Nat) (s : State) : Word × State :=
  let v := ctrRead s u n
  (v.setWidth 32, { s with cnt := { s.cnt with snap := tset 0 s.cnt.snap (snapKey u path) v } })

/-- The CNT_HI register: the snapshot's high bits, with OVF and WCOL always live (R153, R157). -/
def ctrHi (path u n : Nat) (s : State) : Word :=
  let c := getCtr s u n
  ((tget 0 s.cnt.snap (snapKey u path)).extractLsb' 32 16).setWidth 32
    ||| (if c.ovf then 0x10000#32 else 0) ||| (if c.wcol then 0x20000#32 else 0)

/-- R155, R156: the counter takes {staged high, written low}; an increment in the same cycle is discarded and sets WCOL. -/
def ctrLoWrite (path u n : Nat) (v : Word) (inc : Nat) (s : State) : State :=
  let hi := tget 0 s.cnt.staged (snapKey u path)
  if deadCounter u n then s
  else { s with cnt :=
    { s.cnt with live := tupd Counter.init s.cnt.live (ctrKey u n)
                  (fun c => { c with val := hi ++ v, wcol := c.wcol || decide (inc ≠ 0) }) } }

/-- R156, R8: the high bits are staged; a 1 in bit 16 or 17 clears OVF or WCOL, unless the counter wraps in this cycle. -/
def ctrHiWrite (path u n : Nat) (v : Word) (inc : Nat) (s : State) : State :=
  { s with cnt :=
    { s.cnt with
      staged := tset 0 s.cnt.staged (snapKey u path) (v.setWidth 16)
      live := tupd Counter.init s.cnt.live (ctrKey u n)
        (fun c => ({ c with ovf := c.ovf && !v.getLsbD 16, wcol := c.wcol && !v.getLsbD 17 } : Counter).add (gainOf u n inc)) } }

/-- R157: writing 1 copies every counter of the group into the shadow; writing 0 returns reads to the live counters. -/
def ctrFreeze (g : Nat) (on : Bool) (s : State) : State :=
  let mine := s.cnt.live.filter (fun e => freezeGroup (e.1 / 65536) = g)
  { s with cnt :=
    { s.cnt with
      frozen := tset false s.cnt.frozen g on
      shadow := if on then
          mine.foldr (fun e t => tset 0 t e.1 e.2.val) (tkeep (fun k => freezeGroup (k / 65536) ≠ g) s.cnt.shadow)
        else tkeep (fun k => freezeGroup (k / 65536) ≠ g) s.cnt.shadow } }

/-- R158: the counters of a unit at 0 with OVF, WCOL, FREEZE, snapshots, shadows and staged words cleared. -/
def ctrZero (u : Nat) (s : State) : State :=
  { s with cnt :=
    { s.cnt with
      live := tkeep (fun k => k / 65536 ≠ u) s.cnt.live
      frozen := tset false s.cnt.frozen u false
      shadow := tkeep (fun k => k / 65536 ≠ u) s.cnt.shadow
      snap := tkeep (fun k => k / 4 ≠ u) s.cnt.snap
      staged := tkeep (fun k => k / 4 ≠ u) s.cnt.staged } }

/-- R8: a W1C bit after a write of `w`, when the hardware sets it in the same cycle (`hw`). -/
def w1c (old w hw : Bool) : Bool := hw || (old && !w)

end Sys2Proof.Machine
end

