-- ==== Sys2Proof/Config.lean ====
section
/-! DEFINITION. Config.lean: what the spec leaves to the implementation or leaves open. Each constant has no body: no proof
can use a value of it. -/

namespace Sys2Proof

/-- R63: how far from the nearest FP32 value, in units in the last place, the result of VEXP2 (0), VLOG2 (1), VRCP (2) or
VRSQRT (3) lies for an input. The meaning uses it modulo 5, minus 2 (log 10). -/
opaque Config.approxUlp : Nat → Word → Nat

/-- VRSQRT of minus zero: R63 states the result for +0 and for negative inputs only (log 10). -/
opaque Config.rsqrtNegZero : Word

/-- The order in which a sum of `n` terms is associated where the spec fixes none: the place at which a run of `n`
terms is split (used modulo its length; log 11). -/
opaque Config.sumSplit : Nat → Nat

/-- The PCM value of a sample that is NaN, for samples of `b` bits: R250 states none (log 17). -/
opaque Config.nanPcm : Nat → Nat

/-- STEP and MINOR of HB_ID (high byte) and of ID_DEV (low byte): set per part, software may not read a meaning into them (R1, R3; log 7). -/
opaque Config.idStepMinor : BitVec 16

/-- RGN_THR.VSET: the fused voltage code of a region (log 7). -/
opaque Config.vset : Nat → BitVec 5

/-- The CAUSE byte of a log record whose codes the spec does not list: by event type and the model's number of the reason
(log 18). -/
opaque Config.causeByte : Nat → Nat → BitVec 8

/-- Bytes that a copy between overlapping ranges leaves: by source, destination, length and offset (log 19). -/
opaque Config.overlapByte : Nat → Nat → Nat → Nat → BitVec 8

/-- FAIL_INDEX of a WEIGHT_PIN in which no entry failed (log 20). -/
opaque Config.noFailIndex : BitVec 32

/-- The value that a physical core returns for its scrub signature when it did not read back zero: by core and seed (log 21). -/
opaque Config.badScrub : Nat → BitVec 32 → BitVec 32

/-- What a core under in-field test holds in its registers, instruction store and scratchpad: by core, CCLK cycle of the start,
kind of storage and index (log 22). -/
opaque Config.tested : Nat → Nat → Nat → Nat → BitVec 32

/-- VALUE of the SUPPLY_RANGE record of the root clock, which is no sensor (log 23). -/
opaque Config.rootValue : BitVec 32

end Sys2Proof
end

