-- ==== Sys2Proof/Machine/Float.lean ====
section
/-! DEFINITION. Machine/Float.lean: the floating-point formats and conversions of R47, R48, R577, the special functions of
R63 and the product rule of R64, on exact integers. -/

namespace Sys2Proof.Machine

/-- A floating-point format: exponent bits, fraction bits, and whether the top exponent holds infinities (E4M3 has none). -/
structure Fmt where
  eb : Nat
  mb : Nat
  ieee : Bool
  deriving DecidableEq, Repr

/-- The value of a floating-point number: NaN, infinity, or sign, magnitude `m · 2^e`. -/
inductive FV where
  | nan (neg : Bool)
  | inf (neg : Bool)
  | fin (neg : Bool) (m : Nat) (e : Int)
  deriving DecidableEq, Repr

def fp32 : Fmt := { eb := 8, mb := 23, ieee := true }
def bf16 : Fmt := { eb := 8, mb := 7, ieee := true }
def fp16 : Fmt := { eb := 5, mb := 10, ieee := true }
def e4m3 : Fmt := { eb := 4, mb := 3, ieee := false }
def e5m2 : Fmt := { eb := 5, mb := 2, ieee := true }

/-- The exponent bias of a format. -/
def Fmt.bias (f : Fmt) : Int := 2 ^ (f.eb - 1) - 1

/-- The value that the bits `x` hold in format `f` (data type table). -/
def fpDecode (f : Fmt) (x : Nat) : FV :=
  let neg := x.testBit (f.eb + f.mb)
  let ex := (x >>> f.mb) % 2 ^ f.eb
  let fr := x % 2 ^ f.mb
  if f.ieee ∧ ex = 2 ^ f.eb - 1 then (if fr = 0 then .inf neg else .nan neg)
  else if ¬ f.ieee ∧ ex = 2 ^ f.eb - 1 ∧ fr = 2 ^ f.mb - 1 then .nan neg
  else if ex = 0 then .fin neg fr (1 - f.bias - f.mb)
  else .fin neg (fr + 2 ^ f.mb) ((ex : Int) - f.bias - f.mb)

/-- `m / 2^k` rounded to nearest, ties to even. -/
def rneShift (m k : Nat) : Nat :=
  let q := m >>> k
  let r := m % 2 ^ k
  if k = 0 then m
  else if r > 2 ^ (k - 1) ∨ (r = 2 ^ (k - 1) ∧ q % 2 = 1) then q + 1 else q

/-- The magnitude bits of the infinity of a format, or the first code past its largest finite number. -/
def Fmt.topCode (f : Fmt) : Nat :=
  if f.ieee then (2 ^ f.eb - 1) * 2 ^ f.mb else 2 ^ (f.eb + f.mb) - 1

/-- The quiet NaN of a format (0x7FC0_0000 for FP32). -/
def Fmt.quietNaN (f : Fmt) : Nat :=
  if f.ieee then (2 ^ f.eb - 1) * 2 ^ f.mb + 2 ^ (f.mb - 1) else 2 ^ (f.eb + f.mb) - 1

/-- The sign bit of a format as a number. -/
def Fmt.signBit (f : Fmt) (neg : Bool) : Nat := if neg then 2 ^ (f.eb + f.mb) else 0

/-- Overflow and infinity (R48): the largest finite number under SAT, else infinity, or NaN where the format has none. -/
def fpOverflow (f : Fmt) (sat : Bool) : Nat :=
  if sat then f.topCode - 1 else if f.ieee then f.topCode else f.quietNaN

/-- A value rounded to nearest even into format `f` (R47, R48). -/
def fpEncode (f : Fmt) (sat : Bool) : FV → Nat
  | .nan neg => f.signBit neg + f.quietNaN
  | .inf neg => f.signBit neg + fpOverflow f sat
  | .fin neg m e =>
    let qmin : Int := 1 - f.bias - f.mb
    let q := max ((Nat.log2 m : Int) + e - f.mb) qmin
    let m' := if q ≤ e then m * 2 ^ (e - q).toNat else rneShift m (q - e).toNat
    let code := (q - qmin).toNat * 2 ^ f.mb + m'
    f.signBit neg + (if m = 0 then 0 else if code ≥ f.topCode then fpOverflow f sat else code)

/-- The quiet NaN that every FP32 operation produces (R47). -/
def nan32 : Word := 0x7FC00000#32

/-- The value of FP32 bits. -/
def f32 (x : Word) : FV := fpDecode fp32 x.toNat

/-- An FP32 result: a NaN is always 0x7FC0_0000 (R47). -/
def to32 : FV → Word
  | .nan _ => nan32
  | v => BitVec.ofNat 32 (fpEncode fp32 false v)

/-- A signed mantissa. -/
def signed (neg : Bool) (m : Nat) : Int := if neg then -(m : Int) else m

/-- The exact sum of two values; the sum of opposite equal values is +0, of two −0 is −0. -/
def fvAdd : FV → FV → FV
  | .nan _, _ => .nan false
  | _, .nan _ => .nan false
  | .inf a, .inf b => if a = b then .inf a else .nan false
  | .inf a, _ => .inf a
  | _, .inf b => .inf b
  | .fin n1 m1 e1, .fin n2 m2 e2 =>
    let e := min e1 e2
    let v := signed n1 (m1 * 2 ^ (e1 - e).toNat) + signed n2 (m2 * 2 ^ (e2 - e).toNat)
    if v = 0 then .fin (n1 && n2) 0 e else .fin (decide (v < 0)) v.natAbs e

/-- The exact product of two values. -/
def fvMul : FV → FV → FV
  | .nan _, _ => .nan false
  | _, .nan _ => .nan false
  | .inf a, .inf b => .inf (a != b)
  | .inf a, .fin b m _ => if m = 0 then .nan false else .inf (a != b)
  | .fin a m _, .inf b => if m = 0 then .nan false else .inf (a != b)
  | .fin a m1 e1, .fin b m2 e2 => .fin (a != b) (m1 * m2) (e1 + e2)

/-- Negation of a value. -/
def fvNeg : FV → FV
  | .nan a => .nan a
  | .inf a => .inf (!a)
  | .fin a m e => .fin (!a) m e

/-- Strictly less, false when either is NaN; −0 is not below +0 here. -/
def fvLt : FV → FV → Bool
  | .nan _, _ => false
  | _, .nan _ => false
  | .inf a, .inf b => a && !b
  | .inf a, .fin .. => a
  | .fin .., .inf b => !b
  | .fin n1 m1 e1, .fin n2 m2 e2 =>
    let e := min e1 e2
    decide (signed n1 (m1 * 2 ^ (e1 - e).toNat) < signed n2 (m2 * 2 ^ (e2 - e).toNat))

/-- Equal values; zeros of either sign are equal, NaN equals nothing. -/
def fvEq : FV → FV → Bool
  | .nan _, _ => false
  | _, .nan _ => false
  | a, b => !fvLt a b && !fvLt b a

def fvIsNaN : FV → Bool
  | .nan _ => true
  | _ => false

/-- FP32 addition, subtraction, product and fused multiply-add (R47): one rounding each. -/
def fadd32 (a b : Word) : Word := to32 (fvAdd (f32 a) (f32 b))
def fsub32 (a b : Word) : Word := to32 (fvAdd (f32 a) (fvNeg (f32 b)))
def fmul32 (a b : Word) : Word := to32 (fvMul (f32 a) (f32 b))
def ffma32 (d a b : Word) : Word := to32 (fvAdd (f32 d) (fvMul (f32 a) (f32 b)))

/-- R47: −0 stands below +0 in MIN and MAX. -/
def fpBelow (a b : Word) : Bool :=
  fvLt (f32 a) (f32 b) || (fvEq (f32 a) (f32 b) && a.msb && !b.msb)

/-- FP32 minimum: the non-NaN operand when exactly one is NaN (R47). -/
def fmin32 (a b : Word) : Word :=
  if fvIsNaN (f32 a) then (if fvIsNaN (f32 b) then nan32 else b)
  else if fvIsNaN (f32 b) then a else if fpBelow b a then b else a

/-- FP32 maximum (R47). -/
def fmax32 (a b : Word) : Word :=
  if fvIsNaN (f32 a) then (if fvIsNaN (f32 b) then nan32 else b)
  else if fvIsNaN (f32 b) then a else if fpBelow a b then b else a

/-- A finite value rounded to the nearest integer, ties to even. -/
def fvRoundInt (neg : Bool) (m : Nat) (e : Int) : Int :=
  signed neg (if 0 ≤ e then m * 2 ^ e.toNat else rneShift m (-e).toNat)

/-- `v` limited to `lo … hi`. -/
def clampInt (lo hi v : Int) : Int := if v < lo then lo else if hi < v then hi else v

/-- R48: an FP value to a signed integer of `w` bits, saturating; NaN gives 0. -/
def fvToInt (w : Nat) : FV → Int
  | .nan _ => 0
  | .inf true => -(2 ^ (w - 1))
  | .inf false => 2 ^ (w - 1) - 1
  | .fin neg m e => clampInt (-(2 ^ (w - 1))) (2 ^ (w - 1) - 1) (fvRoundInt neg m e)

/-- FCVTWS and FCVTSW (R48). -/
def fcvtws32 (a : Word) : Word := BitVec.ofInt 32 (fvToInt 32 (f32 a))
def fvOfInt (v : Int) : FV := .fin (decide (v < 0)) v.natAbs 0
def fcvtsw32 (a : Word) : Word := to32 (fvOfInt a.toInt)

/-- The data types of the type code table; `none` is the refused code 0b111. -/
inductive DType where
  | fp32 | bf16 | fp16 | e4m3 | e5m2 | int32 | int8
  deriving DecidableEq, Repr

def dtype (c : BitVec 3) : Option DType :=
  match c.toNat with
  | 0 => some .fp32
  | 1 => some .bf16
  | 2 => some .fp16
  | 3 => some .e4m3
  | 4 => some .e5m2
  | 5 => some .int32
  | 6 => some .int8
  | _ => none

/-- The floating-point format of a type, if it has one. -/
def DType.fmt : DType → Option Fmt
  | .fp32 => some Machine.fp32
  | .bf16 => some Machine.bf16
  | .fp16 => some Machine.fp16
  | .e4m3 => some Machine.e4m3
  | .e5m2 => some Machine.e5m2
  | .int32 => none
  | .int8 => none

/-- The size of an element in bytes. -/
def DType.size : DType → Nat
  | .fp32 | .int32 => 4
  | .bf16 | .fp16 => 2
  | .e4m3 | .e5m2 | .int8 => 1

/-- R48: an exact value to a destination type, as low bits; SAT applies to the 8-bit floating types only. -/
def cvtTo (dst : DType) (sat : Bool) (v : FV) : Nat :=
  match dst with
  | .int32 => (BitVec.ofInt 32 (fvToInt 32 v)).toNat
  | .int8 => (BitVec.ofInt 8 (fvToInt 8 v)).toNat
  | .fp32 => fpEncode Machine.fp32 false v
  | .bf16 => fpEncode Machine.bf16 false v
  | .fp16 => fpEncode Machine.fp16 false v
  | .e4m3 => fpEncode Machine.e4m3 sat v
  | .e5m2 => fpEncode Machine.e5m2 sat v

/-- R577: an integer source, by way of FP32. -/
def cvtIntTo (dst : DType) (sat : Bool) (v : Int) : Nat :=
  match dst with
  | .int32 => (BitVec.ofInt 32 v).toNat
  | .int8 => (BitVec.ofInt 8 (clampInt (-128) 127 v)).toNat
  | d => cvtTo d sat (f32 (to32 (fvOfInt v)))

/-- R577: conversion between two types; the same type copies the bits. -/
def convert (src dst : DType) (sat : Bool) (x : Nat) : Nat :=
  if src = dst then x % 2 ^ (8 * src.size)
  else match src with
    | .int32 => cvtIntTo dst sat (BitVec.ofNat 32 x).toInt
    | .int8 => cvtIntTo dst sat (BitVec.ofNat 8 x).toInt
    | .fp32 => cvtTo dst sat (fpDecode Machine.fp32 x)
    | .bf16 => cvtTo dst sat (fpDecode Machine.bf16 x)
    | .fp16 => cvtTo dst sat (fpDecode Machine.fp16 x)
    | .e4m3 => cvtTo dst sat (fpDecode Machine.e4m3 x)
    | .e5m2 => cvtTo dst sat (fpDecode Machine.e5m2 x)

/-- R64: a product is exact unless its magnitude lies outside the FP32 range (above the largest finite number, or
non-zero and below the smallest subnormal); then it is rounded to FP32 (log 12). [DEDUCED: log 12] -/
def macProduct (a b : FV) : FV :=
  let p := fvMul a b
  match p with
  | .fin _ m e =>
    if m ≠ 0 ∧ ((Nat.log2 m : Int) + e ≥ 128 ∨ (Nat.log2 m : Int) + e < -149) then f32 (to32 p) else p
  | q => q

/-- One step of a TMAC sum: the product added with one rounding. [DEDUCED: log 12] -/
def macStep (acc : Word) (a b : FV) : Word := to32 (fvAdd (f32 acc) (macProduct a b))

/-- The integer square root, bit by bit from bit `k` down. -/
def isqrtFrom (n : Nat) : Nat → Nat → Nat
  | 0, r => if (r + 1) * (r + 1) ≤ n then r + 1 else r
  | k + 1, r => isqrtFrom n k (if (r + 2 ^ (k + 1)) * (r + 2 ^ (k + 1)) ≤ n then r + 2 ^ (k + 1) else r)

def isqrt (n : Nat) : Nat := isqrtFrom n (Nat.log2 n / 2 + 1) 0

/-- `2^f` scaled by `2^96`, for the fraction `f / 2^64`, from the square roots `c` of 2 taken `k` times. -/
def exp2Frac (f : Nat) : Nat → Nat → Nat → Nat
  | 0, _, acc => acc
  | k + 1, c, acc => exp2Frac f k (isqrt (c * 2 ^ 96)) (if f.testBit k then acc * c / 2 ^ 96 else acc)

/-- The base-2 exponential of a finite value, to about 60 bits. -/
def exp2Fin (neg : Bool) (m : Nat) (e : Int) : FV :=
  let v := signed neg (if -64 ≤ e then m * 2 ^ (e + 64).toNat else m / 2 ^ (-64 - e).toNat)
  let n := v / 2 ^ 64
  let f := (v % 2 ^ 64).toNat
  .fin false (exp2Frac f 64 (isqrt (2 * 2 ^ 192)) (2 ^ 96)) (n - 96)

/-- The fraction bits of a base-2 logarithm: `y / 2^192` lies in [1, 2); `k` bits are made by squaring. -/
def log2Bits : Nat → Nat → Nat → Nat
  | 0, _, acc => acc
  | k + 1, y, acc =>
    let z := y * y / 2 ^ 192
    if z ≥ 2 ^ 193 then log2Bits k (z / 2) (2 * acc + 1) else log2Bits k z (2 * acc)

/-- The base-2 logarithm of `m · 2^e` for `m > 0`, to 80 fraction bits. -/
def log2Fin (m : Nat) (e : Int) : FV :=
  let l := Nat.log2 m
  let v : Int := ((l : Int) + e) * 2 ^ 80 + log2Bits 80 (m * 2 ^ (192 - l)) 0
  .fin (decide (v < 0)) v.natAbs (-80)

/-- `1 / (m · 2^e)` with a sticky last bit. -/
def rcpFin (neg : Bool) (m : Nat) (e : Int) : FV :=
  let n := 2 ^ (64 + Nat.log2 m)
  .fin neg (2 * (n / m) + (if n % m = 0 then 0 else 1)) (-e - (64 + Nat.log2 m) - 1)

/-- `1 / sqrt (m · 2^e)` with a sticky last bit. -/
def rsqrtFin (m : Nat) (e : Int) : FV :=
  let m' := if e % 2 = 0 then m else 2 * m
  let e' := if e % 2 = 0 then e else e - 1
  let n := 2 ^ 200 / m'
  .fin false (2 * isqrt n + 1) (-(e' / 2) - 101)

/-- R63: a result moved by the implementation's offset of −2 to 2 units in the last place, never past infinity. -/
def ulpMove (fn : Nat) (x r : Word) : Word :=
  let off : Int := (Config.approxUlp fn x % 5 : Nat) - 2
  let mag : Int := (r.toNat % 2 ^ 31 : Nat)
  let v := (if r.msb then -mag else mag) + off
  let v' := clampInt (-0x7F800000) 0x7F800000 v
  BitVec.ofNat 32 ((if v' < 0 then 2 ^ 31 else 0) + v'.natAbs)

/-- VEXP2 (R63). -/
def vexp2 (x : Word) : Word :=
  match f32 x with
  | .nan _ => nan32
  | .inf neg => if neg then 0#32 else 0x7F800000#32
  | .fin neg m e =>
    if !neg && fvLt (.fin false 128 0) (.fin neg m e) then 0x7F800000#32
    else if fvLt (.fin neg m e) (.fin true 150 0) then 0#32
    else ulpMove 0 x (to32 (exp2Fin neg m e))

/-- VLOG2 (R63). -/
def vlog2 (x : Word) : Word :=
  match f32 x with
  | .nan _ => nan32
  | .inf neg => if neg then nan32 else 0x7F800000#32
  | .fin neg m e =>
    if m = 0 then 0xFF800000#32 else if neg then nan32 else ulpMove 1 x (to32 (log2Fin m e))

/-- VRCP (R63). -/
def vrcp (x : Word) : Word :=
  match f32 x with
  | .nan _ => nan32
  | .inf neg => if neg then 0x80000000#32 else 0#32
  | .fin neg m e =>
    if m = 0 then (if neg then 0xFF800000#32 else 0x7F800000#32) else ulpMove 2 x (to32 (rcpFin neg m e))

/-- VRSQRT (R63). -/
def vrsqrt (x : Word) : Word :=
  match f32 x with
  | .nan _ => nan32
  | .inf neg => if neg then nan32 else 0#32
  | .fin neg m e =>
    if m = 0 then (if neg then Config.rsqrtNegZero else 0x7F800000#32)
    else if neg then nan32 else ulpMove 3 x (to32 (rsqrtFin m e))

end Sys2Proof.Machine
end

