-- ==== Sys2Proof/Machine/Operands.lean ====
section
/-! DEFINITION. Machine/Operands.lean: the register files of a core, its scratchpad windows and its operand forms
(R23, R24, R46, R49, R53, R60, R61). -/

namespace Sys2Proof.Machine

open Sys2Proof

/-! ### Register files (R46) -/

/-- Scalar register r; s0 reads 0. -/
def sGet (k : Core) (r : BitVec 5) : Word := if r = 0 then 0 else tget 0 k.sreg r.toNat

/-- Scalar register r written; a write of s0 is ignored. -/
def sSet (r : BitVec 5) (v : Word) (k : Core) : Core :=
  if r = 0 then k else { k with sreg := tset 0 k.sreg r.toNat v }

/-- Address register. -/
def aGet (k : Core) (r : Nat) : Word := tget 0 k.areg r
def aSet (r : Nat) (v : Word) (k : Core) : Core := { k with areg := tset 0 k.areg r v }

/-- Lane i of vector register r. -/
def vGet (k : Core) (r i : Nat) : Word := tget 0 k.vreg (32 * r + i)
def vSetLane (r i : Nat) (v : Word) (k : Core) : Core := { k with vreg := tset 0 k.vreg (32 * r + i) v }

/-- Predicate register r; p0 reads all ones. -/
def pGet (k : Core) (r : Nat) : Word := if r = 0 then 0xFFFFFFFF#32 else tget 0 k.preg r

/-- Predicate register r written; a write of p0 is ignored. -/
def pSet (r : Nat) (v : Word) (k : Core) : Core := if r = 0 then k else { k with preg := tset 0 k.preg r v }

/-- Element [i][j] of tile t. -/
def tileGet (k : Core) (t i j : Nat) : Word := tget 0 k.tile (256 * t + 16 * i + j)
def tileSet (t i j : Nat) (v : Word) (k : Core) : Core := { k with tile := tset 0 k.tile (256 * t + 16 * i + j) v }

/-- Lane i is enabled by predicate register pr (R53). -/
def laneOn (k : Core) (pr : BitVec 3) (i : Nat) : Bool := (pGet k pr.toNat).getLsbD i

/-- Every enabled lane of vd set from `f` (R53). -/
def vWrite (d : Nat) (pr : BitVec 3) (f : Nat → Word) (k : Core) : Core :=
  (List.range 32).foldl (fun k' i => if laneOn k pr i then vSetLane d i (f i) k' else k') k

/-- Every enabled bit of predicate pd set from `f` (R53). -/
def pWrite (d : Nat) (pr : BitVec 3) (f : Nat → Bool) (k : Core) : Core :=
  pSet d ((List.range 32).foldl
    (fun (w : Word) i =>
      if laneOn k pr i then (if f i then w ||| (1#32 <<< i) else w &&& ~~~ (1#32 <<< i)) else w) (pGet k d)) k

/-- A register field that names a file of `2^n` registers has its high bits reserved (R49). -/
def hiBits (n : Nat) (r : BitVec 5) : Bool := decide (2 ^ n ≤ r.toNat)

/-- The exception raised when a condition holds. -/
def chk (b : Bool) (e : Exc) : List Exc := if b then [e] else []

/-! ### The scratchpad address space (R23, R24, R29, R30) -/

/-- Bytes of one half of persistent state. -/
def halfSize (k : Core) : Nat := 2048 * k.psSize.toNat

/-- Direct address of the half selected by `b` (R29). -/
def halfBase (k : Core) (b : Bool) : Nat := 2048 * k.psBase.toNat + (if b then halfSize k else 0)

/-- The kind of bank b (CORE_PART): 0 working, 1 resident, 2 mirror. -/
def bankKind (k : Core) (b : Nat) : Nat := k.part.toNat / 4 ^ b % 4

/-- The windows of R24. -/
inductive Window where
  | direct | committed | next
  deriving DecidableEq, Repr

/-- The window that holds all `n` bytes from `a`, with the direct address of the first. -/
def resolve (k : Core) (a n : Nat) : Option (Window × Nat) :=
  if a + n ≤ 0x30000 then some (.direct, a)
  else if 0x40000 ≤ a ∧ a + n ≤ 0x40000 + halfSize k then some (.committed, halfBase k k.sel + (a - 0x40000))
  else if 0x60000 ≤ a ∧ a + n ≤ 0x60000 + halfSize k then some (.next, halfBase k (!k.sel) + (a - 0x60000))
  else none

/-- Some byte of the direct range lies in a mirror bank. -/
def inMirror (k : Core) (a n : Nat) : Bool :=
  (List.range 12).any (fun b => decide (bankKind k b = 2) && decide (b * 0x4000 < a + n) && decide (a < (b + 1) * 0x4000))

/-- Some byte of the direct range lies in the committed half. -/
def inCommitted (k : Core) (a n : Nat) : Bool :=
  decide (0 < halfSize k) && decide (halfBase k k.sel < a + n) && decide (a < halfBase k k.sel + halfSize k)

/-- R24: the access of `n` bytes at `a` raises the scratchpad access exception. -/
def spadBad (k : Core) (store : Bool) (a n : Nat) : Bool :=
  match resolve k a n with
  | none => true
  | some (.direct, d) => inMirror k d n || (store && inCommitted k d n)
  | some (.committed, _) => store
  | some (.next, _) => false

/-- The direct address of an access that R24 allows. -/
def spadAddr (k : Core) (a n : Nat) : Nat := ((resolve k a n).map (·.2)).getD 0

/-- Bytes loaded by an access of `n` bytes at address `a`. -/
def spadLoad (k : Core) (a n : Nat) : List Byte := readBytes k.spad (spadAddr k a n) n

/-- Bytes stored by an access at address `a`. -/
def spadStore (a : Nat) (bs : List Byte) (k : Core) : Core :=
  { k with spad := writeBytes k.spad (spadAddr k a bs.length) bs }

/-! ### The M format (R60) -/

/-- Δ: off × access size. -/
def mDelta (f : FmtM) (size : Nat) : Word := f.off.signExtend 32 * BitVec.ofNat 32 size

/-- The address of an M-format access. -/
def mAddr (k : Core) (f : FmtM) (size : Nat) : Nat :=
  (if f.pm = 0 then aGet k f.x.toNat + mDelta f size else aGet k f.x.toNat).toNat

/-- The post-modify update of a(x). -/
def mUpdate (f : FmtM) (size : Nat) (k : Core) : Core :=
  let a := aGet k f.x.toNat
  match f.pm.toNat with
  | 1 => aSet f.x.toNat (a + mDelta f size) k
  | 2 => aSet f.x.toNat ((a &&& 0xFFFFC000#32) + ((a + mDelta f size) &&& 0x3FFF#32)) k
  | _ => k

/-- Sign extension of an I-format immediate, and its zero extension. -/
def immS (f : FmtI) : Word := f.imm.signExtend 32
def immZ (f : FmtI) : Word := f.imm.setWidth 32

end Sys2Proof.Machine
end

