-- ==== Sys2Proof/Machine/Issue.lean ====
section
/-! DEFINITION. Machine/Issue.lean: how an instruction issues: hazards, the choice of exception, taking it, and the flow of
the program counter and the hardware loops (R51, R54, R56, R58, R59, R579). -/

namespace Sys2Proof.Machine

open Sys2Proof

/-- The outcome type of a meaning. -/
abbrev Out := Host.Outcome State Fault Refusal

/-- The root runs, and the 12 V bus is up: the clocks of the wafer and the bridges run (R500, R504, R507).
[DEDUCED: log 141] -/
def clocksRun (s : State) : Bool := s.power.root && s.power.bus

/-- A command to a part that stands still while its clock does acts on nothing (R500, R507). [DEDUCED: log 141] -/
def clocked (s : State) (o : Out) : Out := if clocksRun s then o else .next s

/-- The exception codes of R54. -/
def Exc.code : Exc → Nat
  | .illegal => 1
  | .spadAccess => 2
  | .align => 3
  | .pcRange => 4
  | .loop => 5
  | .chanRefused => 6
  | .msgSize => 7
  | .tenant => 8
  | .syncRange => 9
  | .counterRange => 10
  | .testPriv => 11

/-- The order in which R579 records one of several. -/
def excOrder : List Exc :=
  [.illegal, .testPriv, .loop, .pcRange, .counterRange, .chanRefused, .align, .spadAccess, .syncRange, .tenant, .msgSize]

/-- The exception that an instruction meeting these conditions raises (R579). -/
def firstExc (es : List Exc) : Option Exc := excOrder.find? (fun e => es.contains e)

/-- R54: the core stops; CORE_FAULT records the first; the exception is counted and logged. -/
def raiseExc (key : Nat) (e : Exc) (pc : BitVec 12) (s : State) : State :=
  let k := getCore s key
  let f : CoreFault :=
    if k.fault.valid then k.fault
    else { code := BitVec.ofNat 8 e.code, pc := pc, valid := true, tide := k.tide }
  logRegion (keyRegion key) 0x0201 1 (uCore key) k.tide
    [(4, (coreIdOf s key).toNat), (1, e.code), (1, 0), (2, pc.toNat)]
    (bump (uCore key) cExc (setCore s key { k with run := .stopped, fault := f }))

/-- R51: the sequencer runs, and no register that the instruction names waits for the answer of a sync operation. -/
def canIssue (k : Core) (uses : List (BitVec 5)) : Bool :=
  decide (k.run = .running) && !(k.syncOps.any (fun o => decide (o.d ≠ 0) && uses.contains o.d))

/-- The effect of one instruction: it issues only when it can; it raises the first of its exceptions, with no other
effect, or it is counted and acts (R51, R54, R579). [DEDUCED: log 25, 32, 182] -/
def issueEff (key : Nat) (uses : List (BitVec 5)) (raised : List Exc) (act : State → State) (s : State) : State :=
  if clocksRun s && canIssue (getCore s key) uses then
    match firstExc raised with
    | some e => raiseExc key e (getCore s key).pc s
    | none => act (bump (uCore key) cInstr s)
  else s

/-- The outcome of one instruction. [DEDUCED: log 25] -/
def issue (key : Nat) (uses : List (BitVec 5)) (raised : List Exc) (act : State → State) (s : State) : Out :=
  .next (issueEff key uses raised act s)

/-! ### Program flow -/

/-- The end of a level-0 body: its back edge, or the word after it (R58). -/
def afterOuter (k : Core) (pc : Nat) : Core × Nat :=
  match k.loop0 with
  | some l =>
    if pc = l.stop then
      (if 1 < l.count.toNat then ({ k with loop0 := some { l with count := l.count - 1 } }, l.start)
       else ({ k with loop0 := none }, pc + 1))
    else (k, pc + 1)
  | none => (k, pc + 1)

/-- What follows the word at `pc` in sequence: the back edge of a loop whose last word it is, or the next word.
[DEDUCED: log 33] -/
def afterWord (k : Core) (pc : Nat) : Core × Nat :=
  match k.loop1 with
  | some l =>
    if pc = l.stop then
      (if 1 < l.count.toNat then ({ k with loop1 := some { l with count := l.count - 1 } }, l.start)
       else afterOuter { k with loop1 := none } pc)
    else afterOuter k pc
  | none => afterOuter k pc

/-- The program counter moved past the instruction in sequence. -/
def advance (k : Core) : Core :=
  { (afterWord k k.pc.toNat).1 with pc := BitVec.ofNat 12 (afterWord k k.pc.toNat).2 }

/-- R56: an instruction whose successor in sequence would be word 4,096 raises PC_RANGE. -/
def seqExc (k : Core) : List Exc := chk (decide (4095 < (afterWord k k.pc.toNat).2)) .pcRange

/-- R59: a taken branch or jump ends the loops whose body its target leaves. -/
def jumpTo (t : Nat) (k : Core) : Core :=
  let out (l : Option Loop) : Bool := l.any (fun l => decide (t < l.start ∨ l.stop < t))
  { k with
    loop0 := if out k.loop0 then none else k.loop0
    loop1 := if out k.loop0 || out k.loop1 then none else k.loop1
    pc := BitVec.ofNat 12 t }

/-- An instruction that changes only its core and goes on in sequence. -/
def issueCore (key : Nat) (uses : List (BitVec 5)) (raised : List Exc) (g : Core → Core) (s : State) : Out :=
  issue key uses (raised ++ seqExc (getCore s key)) (fun t => updCore t key (fun k => advance (g k))) s

/-- An instruction that acts on the whole state and goes on in sequence. -/
def issueSeq (key : Nat) (uses : List (BitVec 5)) (raised : List Exc) (act : State → State) (s : State) : Out :=
  issue key uses (raised ++ seqExc (getCore s key)) (fun t => updCore (act t) key advance) s

/-- An instruction that holds issue until an event retires it (R51). The program counter stays. -/
def issueWait (key : Nat) (uses : List (BitVec 5)) (raised : List Exc) (w : Wait) (act : State → State) (s : State) : Out :=
  issue key uses (raised ++ seqExc (getCore s key))
    (fun t => updCore (act t) key (fun k => { k with run := .waiting w })) s

/-- A waiting instruction retires: its result is written and the program goes on in sequence. -/
def retire (g : Core → Core) (k : Core) : Core := advance (g { k with run := .running })

/-- A row refused for ill-formed operands. -/
def illFormed : Out := .refused .illFormed

end Sys2Proof.Machine
end

