-- ==== Sys2Proof/Machine/Dests.lean ====
section
/-! DEFINITION. Machine/Dests.lean: where packets are bound: modules, relocated regions, attach routers, mirror holders, endpoints
and service routers, and which packets take a corner route (R13, R14, R32, R110–R113, R126, R232, R246, R271, R276, R324, R430). -/

namespace Sys2Proof.Machine

open Sys2Proof

/-- The module's own number and the size of its domain (DOM_CTL). -/
def ownModule (s : State) : Nat := if s.dom.en then s.dom.module.toNat else 0
def domainSize (s : State) : Nat := if s.dom.en then s.dom.size.toNat + 1 else 1

/-- R430: the region that carries the stage of region `n`. -/
def relocated (s : State) (n : Nat) : Nat := (tget none s.reloc n).getD n

/-- R430: a logical core id with its region replaced. -/
def relocCore (s : State) (id : BitVec 18) : BitVec 18 :=
  BitVec.ofNat 18 (relocated s (id.toNat / 512) * 512 + id.toNat % 512)

/-- R123, R277: the tenant check of a destination core, seen from region `n`. [DEDUCED: log 43] -/
def tenantOk (s : State) (n : Nat) (dst : BitVec 18) (module : BitVec 4) : Bool :=
  if module.toNat = ownModule s then
    (getRegion s n).ownMap.getLsbD (relocated s (dst.toNat / 512))
  else
    decide (module.toNat < domainSize s) && s.dom.present.getLsbD module.toNat
      && (tget 0 s.dom.funcMap (16 * (getRegion s n).owner.toNat + module.toNat)).getLsbD 5

/-- R113: the packet's X leg comes first, because the site of the source's column in the destination's grid row is absent. -/
def needsCorner (srcKey dstRegion : Nat) : Bool :=
  (regionAt (regionCol (keyRegion srcKey)) (regionRow dstRegion)).isNone

def getEngine (s : State) (e : Nat) : Engine := tget Engine.init s.engines e
def updEngine (s : State) (e : Nat) (f : Engine → Engine) : State :=
  { s with engines := tset Engine.init s.engines e (f (getEngine s e)) }
def getBridge (s : State) (b : Nat) : Bridge := tget Bridge.init s.bridges b
def updBridge (s : State) (b : Nat) (f : Bridge → Bridge) : State :=
  { s with bridges := tset Bridge.init s.bridges b (f (getBridge s b)) }
def getPort (s : State) (p : Nat) : Port := tget Port.init s.ports p
def updPort (s : State) (p : Nat) (f : Port → Port) : State :=
  { s with ports := tset Port.init s.ports p (f (getPort s p)) }

/-- R232: an attach index whose group is out is replaced by the next one in service. -/
def liveAttach (s : State) (b a : Nat) : Nat :=
  let out (i : Nat) : Bool := (getBridge s b).grpOut.getLsbD (i % 4)
  if !out a then a % 4 else if !out (a + 1) then (a + 1) % 4 else if !out (a + 2) then (a + 2) % 4 else (a + 3) % 4

/-- Bridge of a Xeulend port (R14). -/
def portBridge (p : Nat) : Nat := 2 * p

/-- R271: the port that carries the traffic of a Harbour channel: port h of its quad, or the next ACTIVE one. -/
def harbourPort (s : State) (quad ch : Nat) : Option Nat :=
  ((List.range 4).map (fun i => 4 * quad + (ch / 8 + i) % 4)).find? (fun p => (getPort s p).pstate = 5 && (getPort s p).carries && (getPort s p).partner = 2)

/-- R324: while the Harbour is unreachable its traffic goes to the bridge of the channel's own port. -/
def harbourVia (s : State) (quad ch : Nat) : Nat := (harbourPort s quad ch).getD (4 * quad + ch / 8)

/-- R32: the core that holds the mirror of a logical core: the next column's carrier, or the spare of an unslid row. -/
def mirrorHolder (s : State) (id : Nat) : Option Nat :=
  let n := id / 512
  let r := id / 16 % 32
  let holder := if id % 16 < 15 then some (carrier s (id + 1)) else if pointOf s n r = 16 then some (coreKey n r 16) else none
  holder.filter (fun k => !(getCore s k).underTest)

/-- The engine image whose channel table names the source core of a packet. -/
def imageOfCore (s : State) (core : BitVec 18) : Option Image :=
  match (getCore s (carrier s core.toNat)).engine with
  | some e => (getEngine s e.val).image
  | none => none

/-- R246: the bridge of an egress endpoint named by a KIND 2 target index of the same image. -/
def egressBridge (s : State) (src : BitVec 18) (idx : Nat) : Option Nat :=
  match imageOfCore s src with
  | none => none
  | some im => (im.shores.find? (fun r => r.egress && r.endpoint = idx - 0x3FC00)).map (·.bridge)

/-- A place to which packets are routed: region, row, column (logical or physical) and the port at which they leave. -/
structure Dest where
  region : Nat
  row : Nat
  col : Nat
  phys : Bool
  exit : Nat
  deriving DecidableEq, Repr

/-- The attach router of bridge `b` for attach index `a`, as a destination. [DEDUCED: log 40] -/
def bridgeDest (s : State) (b a : Nat) : Dest :=
  let k := attachKey b (liveAttach s b a)
  { region := keyRegion k, row := keyRow k, col := keyCol k, phys := true, exit := 6 }

/-- The service map that applies to a packet at router `at'`: the bridge's where a bridge sends it, else the region's (R111).
[DEDUCED: log 198] -/
def serviceMap (s : State) (at' : Nat) (p : Packet) : BitVec 512 :=
  match p.loc with
  | .router k 6 =>
    match (List.range 32).find? (fun b => (List.range 4).any (fun a => decide (attachKey b a = k))) with
    | some b => (getBridge s b).svcMap
    | none => (getRegion s (keyRegion at')).svcMap
  | _ => (getRegion s (keyRegion at')).svcMap

/-- Where a packet is bound (R110–R112, R246, R276). [DEDUCED: log 40] -/
def destOf (s : State) (at' : Nat) (p : Packet) : Option Dest :=
  let sb := p.sb
  if p.purpose = 1 then
    (mirrorHolder s p.srcCore.toNat).map (fun k =>
      { region := keyRegion k, row := keyRow k, col := keyCol k, phys := true, exit := 4 })
  else if sb.dstModule.toNat ≠ ownModule s then
    (tget none s.dom.route sb.dstModule.toNat).map (fun q => bridgeDest s (portBridge q.toNat) (sb.channel.toNat % 4))
  else match sb.kind.toNat with
    | 0 =>
      let n := sb.dstCore.toNat / 512
      let south := (serviceMap s at' p).getLsbD n
      some { region := n, row := if south then 31 else 0, col := 8, phys := true, exit := 5 }
    | 1 =>
      let id := sb.dstCore.toNat
      some { region := id / 512, row := id / 16 % 32, col := id % 16, phys := false, exit := 4 }
    | 2 =>
      if sb.channel = 0xFFF ∨ p.purpose = 6 then
        some (bridgeDest s (sb.dstCore.toNat % 32) (sb.dstCore.toNat / 32 % 4))
      else if 0x3FC00 ≤ sb.dstCore.toNat then
        (egressBridge s p.srcCore sb.dstCore.toNat).map (fun b => bridgeDest s b (sb.channel.toNat % 4))
      else
        let t := sb.dstCore.toNat
        some (bridgeDest s (portBridge (harbourVia s (t / 65536) (t / 2048 % 32))) (sb.channel.toNat % 4))
    | _ => none

/-- R113: CORNER of a packet where it enters the mesh at router `key`. [DEDUCED: log 41] -/
def cornerOf (s : State) (key : Nat) (p : Packet) : BitVec 1 :=
  if (destOf s key p).any (fun d => needsCorner key d.region) then 1 else 0

/-- R113: a packet as its source router sends it. A multicast packet follows its tree (R120). [DEDUCED: log 41] -/
def atSource (s : State) (key : Nat) (p : Packet) : Packet :=
  if p.sb.kind = 3 then p
  else
    { p with
      sb :=
        { p.sb with
          lane := cornerOf s key p
          corner := cornerOf s key p } }

end Sys2Proof.Machine
end

