-- ==== Sys2Proof/Machine/Channels.lean ====
section
/-! DEFINITION. Machine/Channels.lean: sending messages and blocks, receiving messages, landing slots and the test group of a
core (R66–R72, R77–R83, R98, R123, R277, R430, R578). -/

namespace Sys2Proof.Machine

open Sys2Proof

def getSlot (k : Core) (i : Nat) : Slot := tget Slot.init k.slots i
def setSlot (i : Nat) (f : Slot → Slot) (k : Core) : Core := { k with slots := tupd Slot.init k.slots i f }

/-- A packet put into the mesh: it joins the packets in flight with the next serial number. At a router it takes a corner route where
R113 says so. -/
def inject (p : Packet) (s : State) : State :=
  let q := match p.loc with
    | .router key _ => atSource s key p
    | _ => p
  { s with packets := s.packets ++ [{ q with serial := s.serial, since := s.cclk }], serial := s.serial + 1 }

/-- The sideband of a packet that a core sends on a slot (R107, R112, R123, R430). -/
def slotSideband (s : State) (key : Nat) (sl : Slot) (vc : BitVec 2) (block : Bool) (tide : Word) : Sideband :=
  let own := decide (sl.module.toNat = ownModule s) && decide (sl.kind = 1)
  { vc := vc, dstCore := if own then relocCore s sl.dst else sl.dst, dstModule := sl.module,
    dstQueue := if sl.kind = 1 then sl.queue else 0, kind := sl.kind, tenant := (getRegion s (keyRegion key)).owner,
    channel := sl.channel, tide := tide, block := block }

/-- The exceptions of a send (R67, R79, R98, R123): the BROKEN check comes before the tenant check. -/
def sendExc (s : State) (key : Nat) (sl : Slot) : List Exc :=
  chk (sl.kind = 0) .chanRefused
    ++ chk (sl.kind = 1 && !sl.broken && !tenantOk s (keyRegion key) sl.dst sl.module) .tenant

/-- CSEND (R67, R79, R98). -/
def execCsend (c : CoreRef) (f : FmtC) (s : State) : Out :=
  let key := c.key
  let k := getCore s key
  let sl := getSlot k f.k.toNat
  let a := (aGet k f.x.toNat).toNat
  let n := 64 * (f.n.toNat + 1)
  issueSeq key []
    (chk (f.d ≠ 0 || f.e ≠ 0) .illegal ++ sendExc s key sl ++ chk (decide (a % 64 ≠ 0)) .align
      ++ chk (spadBad k false a n) .spadAccess)
    (fun t => if sl.broken then bump (uCore key) (cSlotDisc f.k.toNat) t
      else bump (uCore key) (cSlotMsgs f.k.toNat) (inject
        { serial := 0, sb := slotSideband s key sl 1 false k.tide, flits := f.n.toNat + 1,
          loc := .router key 4, payload := .msg (spadLoad k a n), srcCore := coreIdOf s key,
          srcModule := BitVec.ofNat 4 (ownModule s) } t)) s

/-- The block header of BSEND (R69, R108). [DEDUCED: log 184] -/
def blockHeader (s : State) (key : Nat) (sl : Slot) (tag : Half) (staged untided : Bool) (body : List Byte) : BlkHdr :=
  { tag := tag, staged := staged, untided := untided, tide := if untided then noTide else (getCore s key).tide,
    seq := sl.seq, check := crc32c body, srcCore := coreIdOf s key, srcModule := BitVec.ofNat 4 (ownModule s),
    channel := sl.channel }

/-- BSEND (R69, R79, R98). [DEDUCED: log 184] -/
def execBsend (c : CoreRef) (f : FmtC) (s : State) : Out :=
  let key := c.key
  let k := getCore s key
  let sl := getSlot k f.k.toNat
  let a := (aGet k f.x.toNat).toNat
  let staged := f.e.getLsbD 0
  let untided := f.e.getLsbD 1
  let body := spadLoad k a 2048
  let h := blockHeader s key sl ((sGet k f.d).setWidth 16) staged untided body
  issueSeq key [f.d]
    (chk (f.n ≠ 0 || decide (4 ≤ f.e.toNat) || decide (65536 ≤ (sGet k f.d).toNat)) .illegal ++ sendExc s key sl
      ++ chk (staged && sl.kind ≠ 2) .chanRefused ++ chk (decide (a % 64 ≠ 0)) .align
      ++ chk (spadBad k false a 2048) .spadAccess)
    (fun t => if sl.broken then bump (uCore key) (cSlotDisc f.k.toNat) t
      else bump (uCore key) (cSlotBlks f.k.toNat) (updCore (inject
        { serial := 0, sb := slotSideband s key sl 2 true h.tide, flits := 33, loc := .router key 4,
          payload := .block h body, srcCore := h.srcCore, srcModule := h.srcModule } t) key
        (setSlot f.k.toNat (fun x => { x with seq := x.seq + 1 })))) s

/-! ### Inbound queues -/

def getQueue (k : Core) (q : Nat) : List Msg := tget [] k.queues q
def setQueue (q : Nat) (ms : List Msg) (k : Core) : Core := { k with queues := tset [] k.queues q ms }

/-- The whole message at the head of a queue, if one stands there (R86). -/
def headMsg (k : Core) (q : Nat) : Option Msg :=
  match getQueue k q with
  | m :: _ => if m.complete then some m else none
  | [] => none

/-- CRECV (R68): it waits; CRECV_COPY ends the wait. [DEDUCED: log 30] -/
def execCrecv (c : CoreRef) (f : FmtC) (s : State) : Out :=
  issueWait c.key [f.d] (chk (decide (8 ≤ f.k.toNat) || f.e ≠ 0) .illegal) (.recv f.d f.k.toNat f.x f.n) id s

/-- The end of a CRECV with the head message `m` (R68): its exceptions, or the copy, the pop and the count in sd.
[DEDUCED: log 30] -/
def recvCopy (key : Nat) (d : BitVec 5) (q : Nat) (x : BitVec 3) (n : BitVec 4) (m : Msg) (s : State) : State :=
  let k := getCore s key
  let a := (aGet k x.toNat).toNat
  let es := chk (decide (a % 64 ≠ 0)) .align ++ chk (spadBad k true a (64 * m.flits)) .spadAccess
    ++ chk (decide (n.toNat + 1 < m.flits)) .msgSize
  match firstExc es with
  | some e => raiseExc key e k.pc s
  | none => updCore s key
      (fun k => retire (fun k => sSet d (BitVec.ofNat 32 m.flits)
        (setQueue q ((getQueue k q).drop 1) (spadStore a (padTo (64 * m.flits) m.body) k))) k)

/-- CRECV_COPY (R68). -/
def execCrecvCopy (c : CoreRef) (s : State) : Out := clocked s <|
  .next (match (getCore s c.key).run with
    | .waiting (.recv d q x n) =>
      match headMsg (getCore s c.key) q with
      | some m => recvCopy c.key d q x n m s
      | none => s
    | _ => s)

/-- CPOLL (R578). -/
def execCpoll (c : CoreRef) (f : FmtC) (s : State) : Out :=
  let k := getCore s c.key
  issueCore c.key [f.d] (chk (decide (8 ≤ f.k.toNat) || f.x ≠ 0 || f.n ≠ 0 || f.e ≠ 0) .illegal)
    (sSet f.d (BitVec.ofNat 32 (((headMsg k f.k.toNat).map (·.flits)).getD 0))) s

/-- COPEN (R83): class, reserved bits, tenant, then the binding. [DEDUCED: log 43, 44] -/
def execCopen (c : CoreRef) (f : FmtC) (s : State) : Out :=
  let k := getCore s c.key
  let v := sGet k f.d
  let dst : BitVec 18 := v.setWidth 18
  let module : BitVec 4 := v.extractLsb' 18 4
  issueCore c.key [f.d]
    (chk (f.x ≠ 0 || f.n ≠ 0 || f.e ≠ 0) .illegal
      ++ chk ((getSlot k f.k.toNat).static || v &&& 0xF8C00000#32 ≠ 0) .chanRefused
      ++ chk (!tenantOk s c.region.val dst module) .tenant)
    (setSlot f.k.toNat (fun x => { x with dst := dst, module := module, queue := v.extractLsb' 24 3, kind := 1 })) s

/-- CCLOSE (R79, R83). -/
def execCclose (c : CoreRef) (f : FmtC) (s : State) : Out :=
  issueCore c.key []
    (chk (f.x ≠ 0 || f.n ≠ 0 || f.d ≠ 0 || f.e ≠ 0) .illegal
      ++ chk (getSlot (getCore s c.key) f.k.toNat).static .chanRefused)
    (setSlot f.k.toNat (fun x => { x with kind := 0 })) s

/-! ### Landing slots -/

def getLanding (k : Core) (i : Nat) : Option Landing := tget none k.landing i
def setLanding (i : Nat) (l : Option Landing) (k : Core) : Core := { k with landing := tset none k.landing i l }

/-- A landing into slot `i` that is under way ends: the words written stay, the rest is discarded (R70). -/
def endIngest (i : Nat) (k : Core) : Core :=
  match k.ingest with
  | some g => if g.slot = i then { k with ingest := none } else k
  | none => k

/-- A landing into slot `i` is under way. -/
def ingesting (k : Core) (i : Nat) : Bool := k.ingest.any (fun g => g.slot = i)

/-- BLAND (R70, R71): the slot is armed, or re-armed. -/
def execBland (c : CoreRef) (f : FmtC) (s : State) : Out :=
  let k := getCore s c.key
  let a := aGet k f.x.toNat
  issueSeq c.key [f.d]
    (chk (decide (8 ≤ f.k.toNat) || f.n ≠ 0 || f.e ≠ 0) .illegal ++ chk (decide (a.toNat % 64 ≠ 0)) .align
      ++ chk (spadBad k true a.toNat 2048) .spadAccess)
    (fun t => (if ingesting k f.k.toNat then bump (uCore c.key) cBlkDrop else id)
      (updCore t c.key (fun k' => setLanding f.k.toNat (some { tag := (sGet k f.d).setWidth 16, addr := a })
        (endIngest f.k.toNat k')))) s

/-- The result of BWAIT or BTRY that does not wait: the status of a landed block, with the slot disarmed, or 0xFFFF_FFFF. -/
def takeLanding (d : BitVec 5) (i : Nat) (k : Core) : Core :=
  match (getLanding k i).bind (·.status) with
  | some st => sSet d (st.setWidth 32) (setLanding i none k)
  | none => sSet d 0xFFFFFFFF#32 k

/-- BWAIT (R70): a slot that is not armed, or has landed, does not wait. -/
def execBwait (c : CoreRef) (f : FmtC) (s : State) : Out :=
  let k := getCore s c.key
  let ill := chk (decide (8 ≤ f.k.toNat) || f.x ≠ 0 || f.n ≠ 0 || f.e ≠ 0) .illegal
  if (getLanding k f.k.toNat).any (fun l => l.status.isNone) then
    issueWait c.key [f.d] ill (.land f.d f.k.toNat) id s
  else issueCore c.key [f.d] ill (takeLanding f.d f.k.toNat) s

/-- BTRY (R70). -/
def execBtry (c : CoreRef) (f : FmtC) (s : State) : Out :=
  issueCore c.key [f.d] (chk (decide (8 ≤ f.k.toNat) || f.x ≠ 0 || f.n ≠ 0 || f.e ≠ 0) .illegal)
    (takeLanding f.d f.k.toNat) s

/-- BCHK (R108): CRC-32C of 2,048 B at a(x). -/
def execBchk (c : CoreRef) (f : FmtC) (s : State) : Out :=
  let k := getCore s c.key
  let a := (aGet k f.x.toNat).toNat
  issueCore c.key [f.d]
    (chk (f.k ≠ 0 || f.n ≠ 0 || f.e ≠ 0) .illegal ++ chk (decide (a % 64 ≠ 0)) .align
      ++ chk (spadBad k false a 2048) .spadAccess)
    (sSet f.d (crc32c (spadLoad k a 2048))) s

/-! ### Counters -/

/-- CRDL (R74, R153): the low word, with the snapshot of the core's own path. -/
def execCrdl (c : CoreRef) (f : FmtR) (s : State) : Out :=
  let k := getCore s c.key
  let n := (sGet k f.a).toNat
  issueSeq c.key [f.d, f.a] (chk (f.b ≠ 0 || f.pr ≠ 0) .illegal ++ chk (!coreCounter n) .counterRange)
    (fun t => updCore
      { t with cnt := { t.cnt with snap := tset 0 t.cnt.snap (snapKey (uCore c.key) 2) (ctrRead s (uCore c.key) n) } }
      c.key (sSet f.d ((ctrRead s (uCore c.key) n).setWidth 32))) s

/-- CRDH (R74, R153). -/
def execCrdh (c : CoreRef) (f : FmtR) (s : State) : Out :=
  issueCore c.key [f.d] (chk (f.a ≠ 0 || f.b ≠ 0 || f.pr ≠ 0) .illegal)
    (sSet f.d (((tget 0 s.cnt.snap (snapKey (uCore c.key) 2)).extractLsb' 32 16).setWidth 32)) s

/-- CINC (R74): sb added to a kernel counter. -/
def execCinc (c : CoreRef) (f : FmtR) (s : State) : Out :=
  let k := getCore s c.key
  let n := (sGet k f.a).toNat
  issueSeq c.key [f.a, f.b] (chk (f.d ≠ 0 || f.pr ≠ 0) .illegal ++ chk (decide (3 < n)) .counterRange)
    (bumpBy (uCore c.key) n (sGet k f.b).toNat) s

/-! ### Test group (R77) -/

/-- The core that XSEL value `v` names: the east or south neighbour. [DEDUCED: log 29] -/
def testNeighbour (key : Nat) (v : Word) : Option Nat :=
  if v = 0 then neighbour key 1 else if v = 1 then neighbour key 2 else none

/-- The selected target of a tester. -/
def targetOf (s : State) (key : Nat) : Option Nat :=
  match (getCore s key).testSel with
  | none => none
  | some b => testNeighbour key (b.setWidth 32)

/-- The exception of a TEST instruction outside its mode. -/
def modeExc (k : Core) (m : TestMode) : List Exc := chk (decide (k.testMode ≠ m)) .testPriv

/-- A change made through the test port to the selected target, if there is one. -/
def onTarget (key : Nat) (f : Core → Core) (s : State) : State :=
  match targetOf s key with
  | some t => updCore s t f
  | none => s

/-- XSEL (R77). [DEDUCED: log 29] -/
def execXsel (c : CoreRef) (f : FmtR) (s : State) : Out :=
  let k := getCore s c.key
  let v := sGet k f.a
  let bad := match testNeighbour c.key v with
    | some t => decide ((getCore s t).testMode ≠ .target)
    | none => true
  issueCore c.key [f.a]
    (chk (f.d ≠ 0 || f.b ≠ 0 || f.pr ≠ 0) .illegal ++ modeExc k .tester ++ chk bad .testPriv)
    (fun k' => { k' with testSel := some (v.setWidth 1) }) s

/-- XPUT (R77): a word into the target's instruction store; no word stands beyond 4,095. [DEDUCED: log 28] -/
def execXput (c : CoreRef) (f : FmtR) (s : State) : Out :=
  let k := getCore s c.key
  let i := (sGet k f.a).toNat
  issueSeq c.key [f.a, f.b] (chk (f.d ≠ 0 || f.pr ≠ 0) .illegal ++ modeExc k .tester)
    (onTarget c.key (fun t => if i < 4096 then { t with istore := tset 0 t.istore i (sGet k f.b) } else t)) s

/-- XDATA (R77): 64 B from a(xa) to target scratchpad offset sb; no byte stands beyond the 12 banks. [DEDUCED: log 28] -/
def execXdata (c : CoreRef) (f : FmtR) (s : State) : Out :=
  let k := getCore s c.key
  let a := (aGet k f.a.toNat).toNat
  let o := (sGet k f.b).toNat
  issueSeq c.key [f.b]
    (chk (f.d ≠ 0 || hiBits 3 f.a || f.pr ≠ 0) .illegal ++ modeExc k .tester
      ++ chk (decide (a % 64 ≠ 0)) .align ++ chk (spadBad k false a 64) .spadAccess)
    (onTarget c.key (fun t => if o + 64 ≤ 0x30000 then { t with spad := writeBytes t.spad o (spadLoad k a 64) } else t)) s

/-- XGO (R77): the target starts at word sa. -/
def execXgo (c : CoreRef) (f : FmtR) (s : State) : Out :=
  let k := getCore s c.key
  let i := sGet k f.a
  issueSeq c.key [f.a] (chk (f.d ≠ 0 || f.b ≠ 0 || f.pr ≠ 0) .illegal ++ modeExc k .tester)
    (fun t => if i.toNat < 4096 then
        updCore (onTarget c.key (fun x => { x with run := .running, pc := i.setWidth 12, tended := false }) t) c.key
          (fun x => { x with targetDone := false })
      else t) s

/-- XWAIT (R77): it waits until the target executes TEND. -/
def execXwait (c : CoreRef) (f : FmtR) (s : State) : Out :=
  let k := getCore s c.key
  let es := chk (f.a ≠ 0 || f.b ≠ 0 || f.pr ≠ 0) .illegal ++ modeExc k .tester
  if k.targetDone then issueCore c.key [f.d] es (sSet f.d 0) s
  else issueWait c.key [f.d] es (.target f.d) id s

/-- XWAIT_TIMEOUT (R77): 0x0012 in sd after 1,048,576 cycles. -/
def execXwaitTimeout (c : CoreRef) (s : State) : Out := clocked s <|
  .next (match (getCore s c.key).run with
    | .waiting (.target d) => updCore s c.key (retire (sSet d 0x12))
    | _ => s)

/-- XSIG (R77). -/
def execXsig (c : CoreRef) (f : FmtR) (s : State) : Out :=
  let v := match targetOf s c.key with
    | some t => (getCore s t).signature
    | none => 0
  issueCore c.key [f.d] (chk (f.a ≠ 0 || f.b ≠ 0 || f.pr ≠ 0) .illegal ++ modeExc (getCore s c.key) .tester)
    (sSet f.d v) s

/-- XVERD (R77, R448): the verdict stands with the region controller. -/
def execXverd (c : CoreRef) (f : FmtR) (s : State) : Out :=
  let k := getCore s c.key
  issueCore c.key [f.a] (chk (f.d ≠ 0 || f.b ≠ 0 || f.pr ≠ 0) .illegal ++ modeExc k .tester)
    (fun k' => { k' with verdict := some (sGet k f.a) }) s

/-- XPUB (R77). -/
def execXpub (c : CoreRef) (f : FmtR) (s : State) : Out :=
  let k := getCore s c.key
  issueCore c.key [f.a] (chk (f.d ≠ 0 || f.b ≠ 0 || f.pr ≠ 0) .illegal ++ modeExc k .target)
    (fun k' => { k' with signature := sGet k f.a }) s

end Sys2Proof.Machine
end

