-- ==== Sys2Proof/Machine/Sync.lean ====
section
/-! DEFINITION. Machine/Sync.lean: the home of a synchronisation object: its operations, the waiters, the forfeit sweep and
the releases of a clean tide (R133–R148). -/

namespace Sys2Proof.Machine

open Sys2Proof

/-- The requester of an operation, as its flit names it (R140). Engine requests have OP raised by 0x40 (R374). -/
structure Requester where
  op : BitVec 8
  obj : BitVec 17
  core : BitVec 18
  module : BitVec 4
  eng : BitVec 3
  deriving DecidableEq, Repr

/-- RESULT codes of an answer (R140). -/
def resGranted : BitVec 8 := 0
def resForfeit : BitVec 8 := 1
def resLost : BitVec 8 := 2
def resNotOwner : BitVec 8 := 3
def resNotGranted : BitVec 8 := 4
def resFull : BitVec 8 := 5
def resRange : BitVec 8 := 6

/-- An answer to a requester: to its core, or to the engine (R140, R374). [DEDUCED: log 62] -/
def answer (q : Requester) (result : BitVec 8) (s : State) : State :=
  sendCtl (if q.op.toNat < 0x40 then .syncAns q.core q.obj q.op result else .engAns q.eng.toNat q.obj result) s

def getObj (s : State) (home o : Nat) : SyncObj := tget SyncObj.free (getRegion s home).sync o
def setObj (s : State) (home o : Nat) (v : SyncObj) : State :=
  updRegion s home (fun r => { r with sync := tset SyncObj.free r.sync o v })

/-- The waiter entries of one object, in arrival order. -/
def waitersOf (s : State) (home o : Nat) : List Waiter :=
  (getRegion s home).waiters.filter (fun w => w.obj.toNat = o)

def setWaiters (s : State) (home : Nat) (ws : List Waiter) : State := updRegion s home (fun r => { r with waiters := ws })

/-- The requester that a waiter entry stands for. -/
def waiterReq (home : Nat) (w : Waiter) : Requester :=
  { op := w.op, obj := BitVec.ofNat 17 (home * 16 + w.obj.toNat), core := w.core, module := w.module, eng := w.eng }

/-- The first waiter of an object removed. -/
def dropHead (s : State) (home o : Nat) : State :=
  setWaiters s home ((getRegion s home).waiters.eraseP (fun w => w.obj.toNat = o))

/-- The semaphore entry of a core (R135). -/
def semFind (o : SyncObj) (core : BitVec 18) (module : BitVec 4) : Option SemEntry :=
  o.table.find? (fun e => e.core = core ∧ e.module = module)

/-- R136: a unit can be taken: the count allows it, and the core has an entry or one is free. -/
def semCan (o : SyncObj) (q : Requester) : Bool :=
  decide (1 ≤ o.count.toNat) && ((semFind o q.core q.module).isSome || decide (o.table.length < 16))

/-- One unit taken by a core: its entry grows or is made, and it is the last taker (R135). -/
def semTake (o : SyncObj) (q : Requester) : SyncObj :=
  { o with
    count := o.count - 1
    table := if (semFind o q.core q.module).isSome then
        o.table.map (fun e => if e.core = q.core ∧ e.module = q.module then { e with units := e.units + 1 } else e)
      else o.table ++ [{ core := q.core, module := q.module, eng := q.eng, units := 1 }]
    holder := q.core
    holderMod := q.module
    holderEng := q.eng
    holderValid := true }

/-- The result of a grant, and the object with the flag that the grant carries cleared (R144). -/
def grantCode (o : SyncObj) : BitVec 8 := if o.forfeit then resForfeit else resGranted

/-- R136, R137: semaphore waiters granted from the head while their conditions hold. -/
def semGrants (home o : Nat) : Nat → State → State
  | 0, s => s
  | n + 1, s =>
    match waitersOf s home o with
    | [] => s
    | w :: _ =>
      let ob := getObj s home o
      let q := waiterReq home w
      if semCan ob q then
        semGrants home o n
          (answer q (grantCode ob) (setObj (dropHead s home o) home o { semTake ob q with forfeit := false }))
      else s

/-- A lock given to a requester. -/
def lockTo (o : SyncObj) (q : Requester) : SyncObj :=
  { o with held := true, forfeit := false, holder := q.core, holderMod := q.module, holderEng := q.eng, holderValid := true }

/-- R136, R137: a released lock passes to the head waiter, or stays free. -/
def lockNext (home o : Nat) (s : State) : State :=
  let ob := { getObj s home o with held := false }
  match waitersOf s home o with
  | [] => setObj s home o ob
  | w :: _ =>
    let q := waiterReq home w
    answer q (grantCode ob) (setObj (dropHead s home o) home o (lockTo ob q))

/-- Every waiter of an object answered in arrival order and removed (barrier release, event set). -/
def releaseAll (home o : Nat) (result : BitVec 8) (s : State) : State :=
  forAll (waitersOf s home o) (fun w => answer (waiterReq home w) result)
    (setWaiters s home ((getRegion s home).waiters.filter (fun w => w.obj.toNat ≠ o)))

/-- R139: the request queued, or answered FULL when the controller's 1,024 entries are taken. `onQueue` runs when an entry
is made. -/
def enqueue (home : Nat) (q : Requester) (onQueue : State → State) (s : State) : State :=
  let r := getRegion s home
  if r.waiters.length < 1024 then
    setWaiters (onQueue s) home
      (r.waiters ++ [{ obj := q.obj.setWidth 4, op := q.op, core := q.core, module := q.module, eng := q.eng }])
  else answer q resFull (bump (uRegion home) rSyncFull s)

/-- The operation without its engine mark. [DEDUCED: log 35] -/
def opOf (q : Requester) : Nat := q.op.toNat % 0x40

/-- The operation comes from an engine, which is never recorded as a holder (R374). -/
def fromEngine (q : Requester) : Bool := decide (0x40 ≤ q.op.toNat)

/-- Operations on a lock (R136). -/
def lockOp (home o : Nat) (q : Requester) (s : State) : State :=
  let ob := getObj s home o
  let mine := ob.held && decide (ob.holder = q.core ∧ ob.holderMod = q.module) && !fromEngine q
  match opOf q with
  | 1 => if mine || fromEngine q then answer q resRange s
    else if !ob.held && (waitersOf s home o).isEmpty then answer q (grantCode ob) (setObj s home o (lockTo ob q))
    else enqueue home q id s
  | 2 => if mine || fromEngine q then answer q resRange s
    else if !ob.held && (waitersOf s home o).isEmpty then answer q (grantCode ob) (setObj s home o (lockTo ob q))
    else answer q resNotGranted s
  | 3 => if fromEngine q then answer q resRange s
    else if mine then lockNext home o (answer q resGranted s) else answer q resNotOwner s
  | _ => answer q resRange s

/-- SREL on a semaphore (R135, R136): the units are added to the count, and those that the core holds leave its entry. -/
def semRelease (o : SyncObj) (q : Requester) (u : Nat) : SyncObj :=
  { o with
    forfeit := false
    count := BitVec.ofNat 16 (o.count.toNat + u)
    table := if fromEngine q then o.table
      else (o.table.map (fun e => if e.core = q.core ∧ e.module = q.module then { e with units := e.units - u } else e)).filter
        (fun e => e.units ≠ 0) }

/-- Operations on a counting semaphore (R136). -/
def semOp (home o : Nat) (q : Requester) (operand : Word) (s : State) : State :=
  let ob := getObj s home o
  match opOf q with
  | 1 => if fromEngine q then answer q resRange s
    else if semCan ob q && (waitersOf s home o).isEmpty then
      answer q (grantCode ob) (setObj s home o { semTake ob q with forfeit := false })
    else enqueue home q id s
  | 2 => if fromEngine q then answer q resRange s
    else if semCan ob q && (waitersOf s home o).isEmpty then
      answer q (grantCode ob) (setObj s home o { semTake ob q with forfeit := false })
    else answer q resNotGranted s
  | 3 => if operand = 0 ∨ 65535 < ob.count.toNat + operand.toNat then answer q resRange s
    else semGrants home o 1024 (answer q (grantCode ob) (setObj s home o (semRelease ob q operand.toNat)))
  | _ => answer q resRange s

/-- Arrival at a barrier (R136, R137, R139): the arrival that completes the episode needs no entry and is answered in its
place, last. -/
def barrierOp (home o : Nat) (q : Requester) (s : State) : State :=
  let ob := getObj s home o
  let arrived : SyncObj :=
    { ob with holder := q.core, holderMod := q.module, holderEng := q.eng, holderValid := true }
  if opOf q ≠ 4 || fromEngine q then answer q resRange s
  else if ob.count.toNat + 1 ≥ ob.init.toNat then
    answer q (grantCode ob) (releaseAll home o (grantCode ob)
      (setObj s home o { arrived with count := 0, forfeit := false }))
  else enqueue home q (fun t => setObj t home o { arrived with count := ob.count + 1 }) s

/-- The state of an event: bit 2 of SYNC_STAT, which is the lowest bit of COUNT (DEDUCED, log 13). [DEDUCED: log 13] -/
def eventSet (o : SyncObj) : Bool := o.count.getLsbD 0

/-- Operations on an event (R136, R137). [DEDUCED: log 13] -/
def eventOp (home o : Nat) (q : Requester) (s : State) : State :=
  let ob := getObj s home o
  match opOf q with
  | 5 =>
    let ob' : SyncObj := if fromEngine q then { ob with count := 1 }
      else { ob with count := 1, holder := q.core, holderMod := q.module, holderEng := q.eng, holderValid := true }
    releaseAll home o resGranted (answer q resGranted (setObj s home o ob'))
  | 6 => answer q resGranted (setObj s home o { ob with count := 0 })
  | 7 => if eventSet ob then answer q resGranted s else enqueue home q id s
  | _ => answer q resRange s

/-- One request handled at its home by kind and operation (R136); a free object accepts none. [DEDUCED: log 35] -/
def objectOp (home : Nat) (q : Requester) (operand : Word) (s : State) : State :=
  let o := q.obj.toNat % 16
  match (getObj s home o).kind.toNat with
  | 1 => lockOp home o q s
  | 2 => semOp home o q operand s
  | 3 => barrierOp home o q s
  | 4 => eventOp home o q s
  | _ => answer q resRange s

/-- What a forfeit sweep looks for: one core, every core of a function, or one engine's grants. -/
abbrev LostBy := BitVec 18 → BitVec 4 → Bool

/-- A forfeiture is counted and logged (R145): object, lost core, and the grantee or 0xFFFF_FFFF. -/
def noteForfeit (home o : Nat) (lost : BitVec 18) (grantee : Option (BitVec 18)) (s : State) : State :=
  bump (uRegion home) rSyncForfeits
    (logRegion home 0x0502 1 (uRegion home) noTide
      [(4, home * 16 + o), (4, lost.toNat), (4, (grantee.map (·.toNat)).getD 0xFFFFFFFF)] s)

/-- R144 for one object: what the lost holder held is forfeited and passed on. -/
def sweepObject (home : Nat) (lost : LostBy) (o : Nat) (s : State) : State :=
  let ob := getObj s home o
  match ob.kind.toNat with
  | 1 =>
    if ob.held && lost ob.holder ob.holderMod then
      noteForfeit home o ob.holder ((waitersOf s home o).head?.map (·.core))
        (lockNext home o (setObj s home o { ob with forfeit := true }))
    else s
  | 2 =>
    let gone := ob.table.filter (fun e => lost e.core e.module)
    if gone.isEmpty then s
    else
      let units := (gone.map (·.units)).sum
      let s := setObj s home o
        { ob with
          forfeit := true
          count := BitVec.ofNat 16 (ob.count.toNat + units)
          table := ob.table.filter (fun e => !lost e.core e.module) }
      let grantee := match waitersOf s home o with
        | [] => none
        | w :: _ => if semCan (getObj s home o) (waiterReq home w) then some w.core else none
      noteForfeit home o ((gone.head?.map (·.core)).getD 0) grantee (semGrants home o 1024 s)
  | _ => s

/-- R144: the lost core's waiter entries are removed; an arrival at a barrier stays counted and its release carries
FORFEIT. -/
def sweepWaiters (home : Nat) (lost : LostBy) (s : State) : State :=
  let gone := (getRegion s home).waiters.filter (fun w => lost w.core w.module && decide (w.op.toNat < 0x40))
  forAll gone (fun w t =>
      if (getObj t home w.obj.toNat).kind = 3 then
        setObj t home w.obj.toNat { getObj t home w.obj.toNat with forfeit := true } else t)
    (setWaiters s home
      ((getRegion s home).waiters.filter (fun w => !(lost w.core w.module && decide (w.op.toNat < 0x40)))))

/-- One sweep of a controller: its 16 objects, then its waiter entries (R144). -/
def sweep (home : Nat) (lost : LostBy) (s : State) : State :=
  sweepWaiters home lost (forAll (List.range 16) (sweepObject home lost) s)

/-- R147 for one object: what engine `e` holds is released without FORFEIT. -/
def cleanObject (home e : Nat) (o : Nat) (s : State) : State :=
  let ob := getObj s home o
  match ob.kind.toNat with
  | 1 =>
    if ob.held && decide (ob.holderEng.toNat = e) then
      bump (uRegion home) rSyncTrel (lockNext home o s) else s
  | 2 =>
    let gone := ob.table.filter (fun x => x.eng.toNat = e)
    if gone.isEmpty then semGrants home o 1024 s
    else semGrants home o 1024 (bumpBy (uRegion home) rSyncTrel gone.length (setObj s home o
      { ob with
        count := BitVec.ofNat 16 (ob.count.toNat + (gone.map (·.units)).sum)
        table := ob.table.filter (fun x => x.eng.toNat ≠ e) }))
  | _ => s

/-- R147: what a home does when it takes TIDE_CLEAN for engine `e`: waiters of the engine leave first, barrier arrivals
with them, then its holdings are released and the remaining waiters granted. [DEDUCED: log 56] -/
def cleanHome (home e : Nat) (s : State) : State :=
  let gone := (getRegion s home).waiters.filter (fun w => w.eng.toNat = e)
  let s1 := setWaiters s home ((getRegion s home).waiters.filter (fun w => w.eng.toNat ≠ e))
  let s2 := forAll gone (fun w t =>
    if (getObj t home w.obj.toNat).kind = 3 then
      setObj t home w.obj.toNat { getObj t home w.obj.toNat with count := (getObj t home w.obj.toNat).count - 1 }
    else t) s1
  forAll (List.range 16) (cleanObject home e) s2

/-- R134: the conditions under which SYNC_CFG takes a write of KIND and INIT. -/
def syncCfgOk (s : State) (home o : Nat) (kind : BitVec 3) (init : BitVec 16) : Bool :=
  let ob := getObj s home o
  (waitersOf s home o).isEmpty && !ob.held && ob.table.isEmpty
    && !(decide (ob.kind = 3) && decide (ob.count ≠ 0)) && decide (kind.toNat ≤ 4)
    && (match kind.toNat with
      | 0 => decide (init = 0)
      | 1 => decide (init = 0)
      | 2 => true
      | 3 => decide (1 ≤ init.toNat ∧ init.toNat ≤ 1024)
      | _ => decide (init.toNat ≤ 1))

/-- R134: an accepted write of SYNC_CFG. The event's initial state is bit 3 of the register, the lowest bit of INIT. -/
def syncCfgWrite (s : State) (home o : Nat) (kind : BitVec 3) (init : BitVec 16) : State :=
  if syncCfgOk s home o kind init then
    setObj s home o
      { kind := kind, init := init, count := if kind = 2 ∨ kind = 4 then init else 0 }
  else s

end Sys2Proof.Machine
end

