-- ==== Sys2Proof/Machine/TideOps.lean ====
section
/-! DEFINITION. Machine/TideOps.lean: the synchronisation and tide groups of a core, and the tide arithmetic (R73, R75, R139–R149,
R186–R188). -/

namespace Sys2Proof.Machine

open Sys2Proof

/-- ACLK cycles of a PERIOD code (R185). -/
def periodCycles (p : BitVec 3) : Nat := 61440 * 2 ^ p.toNat

/-- The tide number at a time for a period (R186). -/
def tideNumber (tid : DWord) (p : Nat) : Word := BitVec.ofNat 32 (tid.toNat / p % 0xFFFFFFFF)

/-- A difference of tide numbers, modulo 0xFFFF_FFFF (R187). -/
def tideSub (a b : Nat) : Nat := (a % 0xFFFFFFFF + 0xFFFFFFFF - b % 0xFFFFFFFF) % 0xFFFFFFFF

/-- CCLK cycles left from now to a deadline of an engine (R188), 0 at and after it. -/
def cyclesLeft (s : State) (e : Engine) : Nat :=
  50 * (e.tide.start.toNat + e.params.deadline.toNat - s.tid.toNat) - s.phase

/-- The engine number of a core, for ENGINE fields. -/
def engineOf (k : Core) : BitVec 3 := BitVec.ofNat 3 ((k.engine.map (·.val)).getD 0)

/-- R142: the object's home region after RGN_RELOC. -/
def homeOf (s : State) (obj : BitVec 17) : Nat :=
  if obj.toNat / 8192 = ownModule s then relocated s (obj.toNat / 16 % 512) else obj.toNat / 16 % 512

/-- R140, R73: what RESULT puts into sd; FULL never reaches it. -/
def syncStatus (r : BitVec 8) : Word :=
  match r.toNat with
  | 0 => 0
  | 1 => 3
  | 2 => 0x22
  | 3 => 0x13
  | _ => 0xFFFFFFFF#32

/-- R142 check 3, R279: the object's home is offline in the controller's map of its module, or the module is not PRESENT. -/
def syncLost (s : State) (n : Nat) (obj : BitVec 17) : Bool :=
  let m := obj.toNat / 8192
  if m = ownModule s then (getRegion s n).offMap.getLsbD (homeOf s obj)
  else !(s.dom.present.getLsbD m) || (tget 0 (getRegion s n).offPeers m).getLsbD (homeOf s obj)

/-- R142, R277: SYNC_RANGE and TENANT checks of the sync unit and, for another module, of the router at injection. -/
def syncExc (s : State) (n : Nat) (sa : Word) : List Exc :=
  let obj : BitVec 17 := sa.setWidth 17
  let m := obj.toNat / 8192
  chk (decide (0x20000 ≤ sa.toNat) || decide (domainSize s ≤ m)) .syncRange
    ++ chk (if m = ownModule s then !((getRegion s n).ownMap.getLsbD (homeOf s obj))
      else !syncLost s n obj && !tenantOk s n 0 (BitVec.ofNat 4 m)) .tenant

/-- The request flit of a core (R140). [DEDUCED: log 62] -/
def sendSync (s : State) (key : Nat) (op : BitVec 8) (obj : BitVec 17) (operand : Word) : Ctl :=
  .syncReq (homeOf s obj) op obj operand (coreIdOf s key) (BitVec.ofNat 4 (ownModule s)) (engineOf (getCore s key))
    (getRegion s (keyRegion key)).owner

/-- A SYNC instruction (R73, R136, R142): checked in the core, completed at once when the home is offline, else sent. -/
def syncIns (c : CoreRef) (f : FmtR) (op : BitVec 8) (waits : Bool) (s : State) : Out :=
  let key := c.key
  let k := getCore s key
  let obj : BitVec 17 := (sGet k f.a).setWidth 17
  let es := chk (f.pr ≠ 0) .illegal ++ syncExc s c.region.val (sGet k f.a)
  let o : SyncOp :=
    { op := op, obj := obj, operand := sGet k f.b, d := f.d, pc := k.pc, waits := waits }
  let send (t : State) : State :=
    sendCtl (sendSync s key op obj (sGet k f.b)) (updCore t key (fun x => { x with syncOps := x.syncOps ++ [o] }))
  if syncLost s c.region.val obj then issueCore key [f.d, f.a, f.b] es (sSet f.d 0x22) s
  else if waits then issueWait key [f.d, f.a, f.b] es .sync send s
  else issueSeq key [f.d, f.a, f.b] es send s

/-- SACQ (R136). -/
def execSacq (c : CoreRef) (f : FmtR) (s : State) : Out := syncIns c f 1 true s

/-- STRY (R136). -/
def execStry (c : CoreRef) (f : FmtR) (s : State) : Out := syncIns c f 2 false s

/-- SREL (R136). -/
def execSrel (c : CoreRef) (f : FmtR) (s : State) : Out := syncIns c f 3 false s

/-- SBAR (R136). -/
def execSbar (c : CoreRef) (f : FmtR) (s : State) : Out := syncIns c f 4 true s

/-- SSET (R136). -/
def execSset (c : CoreRef) (f : FmtR) (s : State) : Out := syncIns c f 5 false s

/-- SCLR (R136). -/
def execSclr (c : CoreRef) (f : FmtR) (s : State) : Out := syncIns c f 6 false s

/-- SWAIT (R136). -/
def execSwait (c : CoreRef) (f : FmtR) (s : State) : Out := syncIns c f 7 true s

/-! ### TEND -/

/-- R77: the tester that has selected this target and waits, or will wait, learns of its TEND. -/
def tellTester (key : Nat) (s : State) : State :=
  forAll ([neighbour key 3, neighbour key 0].filterMap id)
    (fun t s' =>
      if (getCore s' t).testMode = .tester ∧ targetOf s' t = some key then
        (match (getCore s' t).run with
          | .waiting (.target d) => updCore s' t (retire (sSet d 0))
          | _ => updCore s' t (fun k => { k with targetDone := true }))
      else s') s

/-- The end of a core's tide work (R75): the sequencer stops; a target's tester learns of it. -/
def finishTend (key : Nat) (s : State) : State :=
  let s' := updCore s key (fun k => { k with run := .stopped, tended := true })
  if (getCore s key).testMode = .target then tellTester key s' else s'

/-- A TEND that waits ends when no operation is outstanding (R75). -/
def settleTend (key : Nat) (s : State) : State :=
  let k := getCore s key
  if k.run = .waiting .tend ∧ k.syncOps.isEmpty then finishTend key s else s

/-- TEND (R75): it waits while a sync operation of the core is outstanding. -/
def execTend (c : CoreRef) (f : FmtR) (s : State) : Out :=
  let ill := chk (f.d ≠ 0 || f.a ≠ 0 || f.b ≠ 0 || f.pr ≠ 0) .illegal
  issue c.key [] ill
    (fun t => if (getCore s c.key).syncOps.isEmpty then finishTend c.key t
      else updCore t c.key (fun k => { k with run := .waiting .tend })) s

/-- A TIDE instruction that reads a value into sd. -/
def tideRead (c : CoreRef) (f : FmtR) (v : Word) (s : State) : Out :=
  issueCore c.key [f.d] (chk (f.a ≠ 0 || f.b ≠ 0 || f.pr ≠ 0) .illegal) (sSet f.d v) s

/-- TNUM (R75): the current tide number. -/
def execTnum (c : CoreRef) (f : FmtR) (s : State) : Out := tideRead c f (getCore s c.key).tide s

/-- TLAST (R206): the tide number of the committed half. -/
def execTlast (c : CoreRef) (f : FmtR) (s : State) : Out := tideRead c f (getCore s c.key).tlast s

/-- TLEFT (R75): CCLK cycles to the deadline. -/
def execTleft (c : CoreRef) (f : FmtR) (s : State) : Out :=
  tideRead c f (match (getCore s c.key).engine with
    | some e => if (getEngine s e.val).tide.active then BitVec.ofNat 32 (cyclesLeft s (getEngine s e.val)) else 0
    | none => 0) s

/-- TSTAT (R75): CLEAN, RESTORED and TAINT. -/
def execTstat (c : CoreRef) (f : FmtR) (s : State) : Out :=
  let k := getCore s c.key
  tideRead c f ((if k.clean then 1 else 0) ||| (if k.restored then 2 else 0) ||| (if k.taint then 4 else 0)) s

end Sys2Proof.Machine
end

