-- ==== Sys2Proof/Machine/Fence.lean ====
section
/-! DEFINITION. Machine/Fence.lean: what excludes a unit: live-view changes, the fence of a core, router, link or region, the
forfeit of its holdings, and SYNC_LOST (R43, R89, R115, R129, R143, R149, R414, R418, R420). -/

namespace Sys2Proof.Machine

open Sys2Proof

/-- Microseconds since power-on, from the CCLK count (1,228.8 cycles per µs). -/
def nowUs (s : State) : Nat := s.cclk * 10 / 12288

/-- The unit that reports for another one: the region controller for classes 0 to 3, the Harbour for its banks and channels,
else the unit itself. -/
def reporterOf (u : Nat) : Nat :=
  if u / 0x10000000 ≤ 3 then uRegion (u % 512)
  else if u / 0x10000000 = 7 then uHarbour (u / 1024 % 4)
  else if u / 0x10000000 = 8 then uHarbour (u / 32 % 4)
  else u

/-- The severity of a state change: 0 back in service, 1 suspect, 2 excluded (log 14). [DEDUCED: log 14] -/
def stateSev (v : Nat) : Nat := min v 2

/-- The last epoch that the holder of a unit has accepted; the first map, sent in phase 7, was at epoch 1 (R415, R451). -/
def epochOf (s : State) (u : Nat) : Word :=
  let e := (getHealth s u).epoch
  if e = 0 ∧ 7 < s.up.phase then 1 else e

/-- A live-view change, logged and reported to Lighthouse with the last accepted epoch (R414). [DEDUCED: log 14] -/
def setLive (u : Nat) (v : BitVec 3) (s : State) : State :=
  let h := getHealth s u
  if h.live = v then s
  else sendCtl (.live u v (epochOf s u))
    (logAt (reporterOf u) (mkRec 0x0E01 (stateSev v.toNat) u none noTide
        [(1, h.live.toNat), (1, v.toNat), (1, 1), (1, 0), (4, (epochOf s u).toNat)])
      (updHealth s u (fun h => { h with live := v })))

/-- R418: a disagreement on a unit, counted in its region and logged. -/
def noteDisagree (u : Nat) (s : State) : State :=
  let h := getHealth s u
  let recent := h.disagree.filter (fun t => decide (nowUs s < t + 86400000000))
  (if u / 0x10000000 ≤ 3 then bump (uRegion (u % 512)) rHmDisagree else id)
    (logAt (reporterOf u) (mkRec 0x0E03 1 u none noTide [(1, recent.length + 1)])
      (updHealth s u (fun h => { h with disagree := recent ++ [nowUs s] })))

/-- A live-view fence of a unit; within 1 h of its release it is a disagreement (R418). -/
def fenceLive (u : Nat) (s : State) : State :=
  let h := getHealth s u
  if 2 ≤ h.live.toNat then s
  else
    let s' := setLive u 2 s
    if h.releasedAt.any (fun t => decide (nowUs s < t + 3600000000)) then noteDisagree u s' else s'

/-- Every present region but one. -/
def otherRegions (n : Nat) : List Nat := (List.range 512).filter (fun r => r ≠ n)

/-- R143: a lost core's holdings: its own region's sweep, and a FORFEIT notice to every other controller. -/
def forfeitCore (key : Nat) (s : State) : State :=
  match logicalId s key with
  | none => s
  | some id =>
    let core : BitVec 18 := BitVec.ofNat 18 id
    let m : BitVec 4 := BitVec.ofNat 4 (ownModule s)
    let s' := sweep (keyRegion key) (fun c k => c = core && k = m) s
    { s' with ctl := s'.ctl ++ (otherRegions (keyRegion key)).map (fun r => .forfeitCore r core m) }

/-- R43, R420: the core stops for good; a waiting instruction is abandoned with nothing written. -/
def stopCore (k : Core) : Core :=
  { k with run := .stopped, syncOps := [], fencedTide := k.fencedTide || k.engine.isSome }

/-- The cores of a test are no longer under test. -/
def endTarget (k : Core) : Core := { k with underTest := false, testMode := .none }

/-- The in-field test of a region ends without a verdict; its cores stay due (R426, R435, R462, R464). [DEDUCED: log 122] -/
def abandonTest (n : Nat) (s : State) : State :=
  match (getRegion s n).ft with
  | none => s
  | some t =>
    bump (uRegion n) rFtAbandon (updRegion (forAll t.cores (fun k u => updCore u k endTarget) s) n (fun r => { r with ft := none }))

/-- R464: a core of the row of a spare test becomes excluded, which ends the test. -/
def dropSpareTest (key : Nat) (s : State) : State :=
  if (getRegion s (keyRegion key)).ft.any (fun t =>
      decide (t.kind = 2) && t.cores.any (fun k => decide (k ≠ key) && decide (keyRow k = keyRow key)))
  then abandonTest (keyRegion key) s else s

/-- R34: a mirror copy that failed, counted and logged once. -/
def mirrorFail (src holder cause : Nat) (tide : Word) (s : State) : State :=
  let n := keyRegion holder
  bump (uRegion n) rMirrorFail (logRegion n 0x0103 1 (uCore holder) tide
    [(4, src), (4, (coreIdOf s holder).toNat), (1, cause)] s)

/-- R34: the mirror copy of a source that stops before its last block has arrived ends there (CAUSE 1). -/
def endCopy (key : Nat) (s : State) : State :=
  match (logicalId s key).bind (fun id => (mirrorHolder s id).map (fun h => (id, h))) with
  | none => s
  | some (id, h) =>
    if (getCore s h).mirrorGot.isNone then s
    else
      let s1 : State := { s with packets := s.packets.filter (fun p => decide (p.purpose ≠ 1) || decide (p.srcCore.toNat ≠ id)) }
      mirrorFail id h 1 (getCore s key).tlast (updCore s1 h (fun k => { k with mirrorGot := none }))

/-- R34, R43, R89, R143, R420: a core is fenced. -/
def fenceCore (key : Nat) (s : State) : State :=
  dropSpareTest key (forfeitCore key (endCopy key (updCore (fenceLive (uCore key) s) key stopCore)))

/-- A core that is excluded: FENCED or RETIRED (R421). -/
def excluded (s : State) (key : Nat) : Bool := decide (eff s (uCore key) = 2 ∨ eff s (uCore key) = 4)

/-- R89: DISCARD of a core. -/
def discards (s : State) (key : Nat) : Bool := excluded s key

/-- A region that is offline: FENCED or RETIRED, or both of its service routers out (R111, R115). -/
def serviceKey (n : Nat) (south : Bool) : Nat := if south then coreKey n 31 8 else coreKey n 0 8

def regionOffline (s : State) (n : Nat) : Bool :=
  decide (eff s (uRegion n) = 2 ∨ eff s (uRegion n) = 4)
    || (!usable s (uRouter (serviceKey n false)) && !usable s (uRouter (serviceKey n true)))

/-- R149: an outstanding sync operation of a core whose home is lost completes with SYNC_LOST. -/
def loseSync (lost : Nat) (s0 : State) (k : Core) : Core :=
  let mine (o : SyncOp) : Bool := decide (homeOf s0 o.obj = lost) && decide (o.obj.toNat / 8192 = ownModule s0)
  let hit := k.syncOps.filter mine
  let k1 := hit.foldl (fun k o => sSet o.d 0x22 k) { k with syncOps := k.syncOps.filter (fun o => !mine o) }
  if k.run = .waiting .sync ∧ hit.any (·.waits) then retire id k1 else k1

/-- R149: a controller adds a region to its offline map and tells its cores. -/
def addOffline (n lost : Nat) (s : State) : State :=
  forAll (((s.cores.map (·.1)).filter (fun k => keyRegion k = n))) (fun key t => settleTend key (updCore t key (loseSync lost s)))
    (updRegion s n (fun r => { r with offMap := r.offMap ||| (1#512 <<< lost) }))

/-- BROKEN set in every slot, static or dynamic, of the cores of region `n` that `p` names (R97). -/
def breakSlots (n : Nat) (p : Nat → Slot → Bool) (s : State) : State :=
  forAll ((s.cores.map (·.1)).filter (fun k => keyRegion k = n))
    (fun key t => updCore t key (fun k =>
      { k with slots := tupdAll Slot.init k.slots ((k.slots.map (·.1)).filter (fun i => p key (getSlot k i)))
                (fun _ sl => { sl with broken := true }) })) s

end Sys2Proof.Machine
end

