-- ==== Sys2Proof/Machine/Routing.lean ====
section
/-! DEFINITION. Machine/Routing.lean: where a packet goes next: hop codes, Y-first routing, corner routes, walks and the detour
tables (R109–R117). -/

namespace Sys2Proof.Machine

open Sys2Proof

/-- A hop code table: router and direction to HOP code. -/
abbrev Hops := Nat → Nat → Nat

/-- HOP of a router in a direction: 0b11 toward an absent site or off the wafer, else as marked (RTR_ROUTE). -/
def hopOf (s : State) : Hops := fun k d =>
  if (neighbour k d).isNone then 3 else (tget 0 (getRouter s k).mark d).toNat

/-- The core or router at which a destination lies. -/
def destKey (s : State) (d : Dest) : Nat :=
  coreKey d.region d.row (if d.phys then d.col else carrierCol (pointOf s d.region d.row) d.col)

/-- A hop that is out, for a packet bound for `dk`: any code but 0b00, and but 0b01 next to the destination (R109). -/
def hopOut (h : Hops) (dk k d : Nat) : Bool :=
  h k d ≠ 0 && !(h k d = 1 && neighbour k d = some dk)

/-- The hop that Y-first or corner routing chooses, or none at the destination (R109, R113). [DEDUCED: log 36] -/
def chooseHop (s : State) (d : Dest) (corner : Bool) (k : Nat) : Option Nat :=
  let x := meshX k
  let y := meshY k
  let dc := regionCol d.region
  let dr := regionRow d.region
  let ty := 32 * dr + d.row
  let tx := 17 * dc + d.col
  if corner ∧ x ≠ tx ∧ k ≠ destKey s d then some (if tx < x then 3 else 1)
  else if y ≠ ty then some (if ty < y then 0 else 2)
  else if x / 17 ≠ dc then some (if dc < x / 17 then 3 else 1)
  else
    let pc := if d.phys then d.col else carrierCol (pointOf s d.region d.row) d.col
    if x % 17 ≠ pc then some (if pc < x % 17 then 3 else 1) else none

/-- The two sides of a walk blocked in `dir`, the preferred one first (R116). -/
def sidesOf (dir : Nat) : List Nat := if dir % 2 = 1 then [0, 2] else [1, 3]

/-- Phase 2 of a walk at `k`: along `dir` while the hop opposite to `side` is out; true when it reaches PHASE 0.
[DEDUCED: log 39] -/
def walk2 (h : Hops) (dir side : Nat) : Nat → Nat → Bool
  | 0, _ => false
  | n + 1, k =>
    if h k dir ≠ 0 then false
    else match neighbour k dir with
      | none => false
      | some k' => if h k' (opposite side) = 0 then true else walk2 h dir side n k'

/-- Phase 1 of a walk at `k`: along `side` while the hop in `dir` is out (R114, R116). [DEDUCED: log 39] -/
def walk1 (h : Hops) (dir side : Nat) : Nat → Nat → Bool
  | 0, _ => false
  | n + 1, k =>
    if h k dir = 0 then walk2 h dir side 800 k
    else if h k side ≠ 0 then false
    else match neighbour k side with
      | none => false
      | some k' => walk1 h dir side n k'

/-- SIDE and UNREACH of a router for a blocked direction: the side chosen, or none (R116). [DEDUCED: log 15] -/
def walkSide (h : Hops) (k dir : Nat) : Option Nat := (sidesOf dir).find? (fun sd => walk1 h dir sd 800 k)

/-- What a router does with a head. -/
inductive Act where
  | hop (dir : Nat) (sb : Sideband) (walked : Bool)
  | leave (port : Nat)
  | discard
  deriving DecidableEq, Repr

/-- A hop that carries no flit: marked dead, or toward an absent or offline site (R129). -/
def hopDead (h : Hops) (k d : Nat) : Bool := decide (2 ≤ h k d)

/-- A head in phase 0 at router `k` (R109, R113, R114). [DEDUCED: log 36] -/
def route0 (s : State) (h : Hops) (d : Dest) (sb : Sideband) (k : Nat) : Act :=
  match chooseHop s d (sb.corner = 1) k with
  | none => .leave d.exit
  | some dir =>
    if !hopOut h (destKey s d) k dir then .hop dir sb false
    else if sb.walks = 15 then .discard
    else match walkSide h k dir with
      | none => .discard
      | some side =>
        let sb' : Sideband :=
          { sb with dir := BitVec.ofNat 2 dir, side := BitVec.ofNat 2 side, phase := 1, lane := 1, walks := sb.walks + 1 }
        if hopDead h k side then .discard else .hop side sb' true

/-- R109, R114: what router `k` does with the head of a packet bound for `d`. -/
def routeStep (s : State) (h : Hops) (d : Dest) (sb : Sideband) (k : Nat) : Act :=
  let dk := destKey s d
  let go (dir : Nat) (sb' : Sideband) : Act := if hopDead h k dir then .discard else .hop dir sb' false
  match sb.phase.toNat with
  | 1 => if hopOut h dk k sb.dir.toNat then go sb.side.toNat sb else .hop sb.dir.toNat { sb with phase := 2 } false
  | 2 =>
    if hopOut h dk k (opposite sb.side.toNat) then go sb.dir.toNat sb
    else route0 s h d { sb with phase := 0, lane := if sb.corner = 1 then 1 else 0 } k
  | _ => route0 s h d sb k

/-- The routers that a head visits from `k`, at most `n` of them, and whether it is delivered (R84, R176). -/
def pathFrom (s : State) (h : Hops) (d : Dest) : Nat → Sideband → Nat → List Nat × Bool
  | 0, _, _ => ([], false)
  | n + 1, sb, k =>
    match routeStep s h d sb k with
    | .leave _ => ([k], true)
    | .discard => ([k], false)
    | .hop dir sb' _ =>
      match neighbour k dir with
      | none => ([k], false)
      | some k' => (k :: (pathFrom s h d n sb' k').1, (pathFrom s h d n sb' k').2)

/-- More links than any path has: 15 walks and the longest route. -/
def pathBound : Nat := 20000

/-- The path of a slot's channel with hop codes `h`, or none when it has no destination (R97, R100). -/
def slotPath (s : State) (h : Hops) (key : Nat) (sl : Slot) : Option (List Nat × Bool) :=
  let p : Packet := atSource s key
    { serial := 0, sb := slotSideband s key sl 1 false 0, flits := 1, loc := .router key 4, payload := .msg [], srcCore := coreIdOf s key }
  (destOf s key p).map (fun d => pathFrom s h d pathBound p.sb key)

/-- Hop codes as they were before a set of routers went out: hops into or out of them count as usable. -/
def hopsBefore (s : State) (gone : Nat → Bool) : Hops := fun k d =>
  if hopOf s k d ≠ 3 ∧ (gone k ∨ ((neighbour k d).map gone).getD false) then 0 else hopOf s k d

/-- R97: a slot's path crossed one of the routers that went out. -/
def crossed (s : State) (gone : Nat → Bool) (key : Nat) (sl : Slot) : Bool :=
  sl.kind ≠ 0 && (match slotPath s (hopsBefore s gone) key sl with
    | some (ks, _) => ks.any gone
    | none => true)

/-- R97: a slot's path crossed one hop. -/
def crossedHop (s : State) (r dir key : Nat) (sl : Slot) : Bool :=
  let h : Hops := fun k d => if (k = r ∧ d = dir) ∨ (neighbour r dir = some k ∧ d = opposite dir) then 0 else hopOf s k d
  sl.kind ≠ 0 && (match slotPath s h key sl with
    | some (ks, _) =>
      (ks.zip (ks.drop 1)).any (fun e => (e.1 = r && neighbour r dir = some e.2) || (e.2 = r && neighbour r dir = some e.1))
    | none => true)

/-- R100: the destination of a slot is reachable now. -/
def reachable (s : State) (key : Nat) (sl : Slot) : Bool := ((slotPath s (hopOf s) key sl).map (·.2)).getD false

/-- RTR_ROUTE as a word. [DEDUCED: log 15] -/
def rtrRoute (s : State) (k : Nat) : Word :=
  let hop := (List.range 4).foldl (fun w d => w + hopOf s k d * 4 ^ d) 0
  let sides := (List.range 4).foldl (fun w d =>
    if hopOf s k d ≠ 0 ∧ ((walkSide (hopOf s) k d).map (fun x => decide (2 ≤ x))).getD false then w + 2 ^ d else w) 0
  let unr := (List.range 4).foldl (fun w d =>
    if hopOf s k d ≠ 0 ∧ (walkSide (hopOf s) k d).isNone then w + 2 ^ d else w) 0
  BitVec.ofNat 32 (hop + 256 * sides + 4096 * unr + 65536 * pointOf s (keyRegion k) (keyRow k))

end Sys2Proof.Machine
end

