-- ==== Sys2Proof/Machine/Mesh.lean ====
section
/-! DEFINITION. Machine/Mesh.lean: the rows of the mesh, the inbound queues, the landing slots, the link watchdog, the
synchronisation homes and the counter registers (R42–R44, R70–R72, R85–R158). -/

namespace Sys2Proof.Machine

open Sys2Proof

/-! ### Sequencer faults (R43, R44, R55) -/

/-- SEQUENCER_MISMATCH (R43): the core is fenced, the event logged and counted, and the forfeit sweep runs. -/
def execSequencerMismatch (c : CoreRef) (s : State) : Out := clocked s <|
  let k := getCore s c.key
  .next (if k.run = .stopped then s
    else bump (uRegion c.region.val) rSeqMismatch
      (logRegion c.region.val 0x0101 2 (uCore c.key) k.tide [(4, (coreIdOf s c.key).toNat), (2, k.pc.toNat)]
        (fenceCore c.key s)))

/-- ISTORE_PARITY (R44): handled exactly as a sequencer mismatch. -/
def execIstoreParity (c : CoreRef) (s : State) : Out := clocked s <|
  let k := getCore s c.key
  .next (if k.run = .stopped then s
    else bump (uRegion c.region.val) rSeqMismatch
      (logRegion c.region.val 0x0102 2 (uCore c.key) k.tide [(4, (coreIdOf s c.key).toNat), (2, k.pc.toNat)]
        (fenceCore c.key s)))

/-! ### Packets at a router (R105–R124) -/

/-- The input of router `k` at which a packet stands. -/
def inputAt (k : Nat) (p : Packet) : Option Nat :=
  match p.loc with
  | .router k' i => if k' = k then some i else none
  | _ => none

/-- The heads of a router: the first packet of each input, VC and lane. -/
def headsAt (s : State) (k : Nat) : List Packet :=
  let here := s.packets.filter (fun p => (inputAt k p).isSome)
  here.foldl (fun hs p =>
    if hs.any (fun q => inputAt k q = inputAt k p && q.sb.vc = p.sb.vc && q.sb.lane = p.sb.lane) then hs else hs ++ [p]) []

/-- What the router does with a head: a packet without a destination is discarded. -/
def actionOf (s : State) (k : Nat) (p : Packet) : Act :=
  match destOf s k p with
  | some d => routeStep s (hopOf s) d p.sb k
  | none => .discard

/-- The output port of an action. -/
def Act.out : Act → Option Nat
  | .hop d _ _ => some d
  | .leave p => some p
  | .discard => none

def removePacket (serial : Nat) (s : State) : State := { s with packets := s.packets.filter (fun p => p.serial ≠ serial) }

/-- A packet moved: it becomes the last of the list. [DESIGN CHOICE: log 26] -/
def movePacket (p : Packet) (s : State) : State :=
  { s with packets := s.packets.filter (fun q => q.serial ≠ p.serial) ++ [{ p with since := s.cclk }] }

/-- R114: a head discarded with its packet. -/
def dropUnreach (k : Nat) (p : Packet) (s : State) : State := bump (uCore k) cRtUnreach (removePacket p.serial s)

/-- R106: among heads of one VC and lane, round robin over the inputs after the one served last. -/
def pickInput (r : Router) (k out vc lane : Nat) (hs : List Packet) : Option Packet :=
  let mine := hs.filter (fun p => p.sb.vc.toNat = vc && p.sb.lane.toNat = lane)
  match roundRobin 7 (tget 0 r.last (out * 8 + vc * 2 + lane)) (fun i => mine.any (fun p => inputAt k p = some i)) with
  | some i => mine.find? (fun p => inputAt k p = some i)
  | none => none

/-- R105: within a VC the detour lane comes first. -/
def pickVc (r : Router) (k out vc : Nat) (hs : List Packet) : Option Packet :=
  (pickInput r k out vc 1 hs).or (pickInput r k out vc 0 hs)

/-- R105: VC1 and VC2 share the port by weighted round robin, whole packets at a time. [DESIGN CHOICE: log 26] -/
def pickShared (r : Router) (w1 w2 : Nat) (k out : Nat) (hs : List Packet) : Option Packet :=
  let a := pickVc r k out 1 hs
  let b := pickVc r k out 2 hs
  if a.isSome && (b.isNone || decide (tget 0 r.sent1 out < w1) || decide (w2 ≤ tget 0 r.sent2 out)) then a else b

/-- R105: the head that an output port serves next. -/
def pickHead (s : State) (k out : Nat) (hs : List Packet) : Option Packet :=
  let r := getRouter s k
  let g := getRegion s (keyRegion k)
  let old := hs.filter (fun p => decide (p.since + 64 ≤ s.cclk))
  (pickVc r k out 0 hs).or ((pickVc r k out 3 old).or
    ((pickShared r g.w1.toNat g.w2.toNat k out hs).or (pickVc r k out 3 hs)))

/-- The arbitration state after a packet is sent on an output (R105, R106). -/
def sentOn (w1 w2 k out : Nat) (p : Packet) (r : Router) : Router :=
  let last := tset 0 r.last (out * 8 + p.sb.vc.toNat * 2 + p.sb.lane.toNat) (((inputAt k p).getD 0) + 1)
  let fresh := decide (w1 ≤ tget 0 r.sent1 out) && decide (w2 ≤ tget 0 r.sent2 out)
  let n1 := if fresh then 0 else tget 0 r.sent1 out
  let n2 := if fresh then 0 else tget 0 r.sent2 out
  if p.sb.vc = 1 then { r with last := last, sent1 := tset 0 r.sent1 out (n1 + p.flits), sent2 := tset 0 r.sent2 out n2 }
  else if p.sb.vc = 2 then
    { r with last := last, sent1 := tset 0 r.sent1 out (max n1 w1), sent2 := tset 0 r.sent2 out (n2 + p.flits) }
  else { r with last := last }

/-- R124: at ejection to a core port, a packet of another owner is discarded, counted and logged. -/
def ejectPacket (k : Nat) (p : Packet) (s : State) : State :=
  let g := getRegion s (keyRegion k)
  if (p.sb.vc = 1 ∨ p.sb.vc = 2) ∧ (!g.owned ∨ p.sb.tenant ≠ g.owner) then
    bump (uCore k) cTagDrop (logRegion (keyRegion k) 0x0401 1 (uRouter k) p.sb.tide
      [(4, uRouter k), (1, p.sb.tenant.toNat), (1, p.sb.vc.toNat), (4, p.sb.dstCore.toNat)] (removePacket p.serial s))
  else movePacket { p with loc := .eject k } s

/-- The bridge and attach index of an attach router. -/
def attachOf (k : Nat) : Option (Nat × Nat) :=
  ((List.range 32).flatMap (fun b => (List.range 4).map (fun a => (b, a)))).find? (fun e => attachKey e.1 e.2 = k)

/-- R231: at a shore port; a dead one discards the packet. -/
def leaveShore (k : Nat) (p : Packet) (s : State) : State :=
  match attachOf k with
  | some (b, a) =>
    if (getBridge s b).shiState = 5 then dropUnreach k p s else movePacket { p with loc := .shore b a } s
  | none => dropUnreach k p s

/-- One head sent on its way. -/
def sendHead (k : Nat) (p : Packet) (s : State) : State :=
  match actionOf s k p with
  | .discard => dropUnreach k p s
  | .leave port =>
    if port = 4 then ejectPacket k p s
    else if port = 5 then movePacket { p with loc := .service (keyRegion k) } s
    else leaveShore k p s
  | .hop dir sb walked =>
    match neighbour k dir with
    | none => dropUnreach k p s
    | some k' =>
      (if walked then bump (uCore k) cRtDetour else id)
        (movePacket { p with sb := sb, loc := .router k' (opposite dir) } s)

/-- PACKET_ROUTE (R105, R106, R109, R114): heads with no way on are discarded; then the output port serves one packet. -/
def execPacketRoute (r : CoreRef) (out : Fin 7) (s : State) : Out := clocked s <|
  let k := r.key
  let s1 := forAll ((headsAt s k).filter (fun p => (actionOf s k p).out.isNone)) (dropUnreach k) s
  let hs := (headsAt s1 k).filter (fun p => (actionOf s1 k p).out = some out.val)
  let g := getRegion s k
  .next (match pickHead s1 k out.val hs with
    | none => s1
    | some p => sendHead k p (bumpBy (uCore k) (cRtFlits out.val) p.flits
        (updRouter s1 k (sentOn g.w1.toNat g.w2.toNat k out.val p))))

/-- MULTICAST_FORWARD (R120, R122): a multicast packet leaves by every output of its group at once, or waits. -/
def execMulticastForward (r : CoreRef) (credit : BitVec 5) (s : State) : Out := clocked s <|
  let k := r.key
  .next (match (headsAt s k).find? (fun p => p.sb.vc = 3 && p.sb.kind = 3) with
    | none => s
    | some p =>
      let out := tget 0 (getRouter s k).mcast (p.sb.dstCore.toNat % 64)
      if out &&& credit ≠ out then s
      else
        forAll ((List.range 5).filter (fun o => out.getLsbD o)) (fun o t =>
          if o = 4 then bumpBy (uCore k) (cRtFlits 5) p.flits (inject { p with loc := .service (keyRegion k) } t)
          else match neighbour k o with
            | some k' => bumpBy (uCore k) (cRtFlits o) p.flits (inject { p with loc := .router k' (opposite o) } t)
            | none => t) (removePacket p.serial s))

/-! ### Ejection ports (R85–R91, R97) -/

/-- The packets of a VC at the ejection port of a core, in order of arrival. -/
def atEject (s : State) (k vc : Nat) : List Packet :=
  s.packets.filter (fun p => p.loc = .eject k && p.sb.vc.toNat = vc)

/-- A port of a router makes progress: it may fire again (R94). -/
def rearm (k bit : Nat) (s : State) : State :=
  updRouter s k (fun r => { r with fired := r.fired &&& ~~~(1#3 <<< bit) })

/-- R87: why a message is discarded at admission: its tide, or its class against STATIC_Q. -/
def classMismatch (k : Core) (sb : Sideband) : Bool :=
  k.staticQ.getLsbD sb.dstQueue.toNat != decide (sb.channel ≠ 0xFFF)

/-- A message discarded at admission, counted in Q_DROP (R87, R89). -/
def dropMsg (k : Nat) (p : Packet) (s : State) : State :=
  rearm k 0 (bump (uCore k) (cQDrop p.sb.dstQueue.toNat) (removePacket p.serial s))

/-- Flits in a queue, written or reserved: D + V (R86). -/
def queueFlits (k : Core) (q : Nat) : Nat := ((getQueue k q).map (·.flits)).sum

/-- The bytes of a message packet. -/
def msgBytes (p : Packet) : List Byte :=
  match p.payload with
  | .msg b => b
  | .block _ b => b
  | .xfer _ b => b

/-- MESSAGE_ADMISSION (R85–R90). -/
def execMessageAdmission (c : CoreRef) (s : State) : Out := clocked s <|
  let k := c.key
  .next (match atEject s k 1 with
    | [] => s
    | p :: _ =>
      let q := p.sb.dstQueue.toNat
      if discards s k then dropMsg k p s
      else if p.sb.tide ≠ (getCore s k).tide then dropMsg k p s
      else if classMismatch (getCore s k) p.sb then
        logRegion c.region.val 0x0301 1 (uCore k) p.sb.tide
          [(4, (coreIdOf s k).toNat), (1, q), (1, 0), (2, p.sb.channel.toNat), (1, p.sb.tenant.toNat)] (dropMsg k p s)
      else if queueFlits (getCore s k) q + p.flits ≤ 16 then
        rearm k 0 ((if p.poison then id else bump (uCore k) (cQMsgs q))
          (updCore (removePacket p.serial s) k (fun x => setQueue q (getQueue x q ++
            [{ sb := p.sb, flits := p.flits, body := msgBytes p, complete := !p.poison, serial := p.serial }]) x)))
      else bump (uCore k) (cQWait q) s)

/-- The lowest-numbered armed slot with the block's tag (R91). -/
def matchSlot (k : Core) (tag : Half) : Option Nat :=
  (List.range 8).find? (fun i => (getLanding k i).any (fun l => l.tag = tag && l.status.isNone))

/-- BLOCK_EJECTION (R71, R89–R91): blocks taken under an order of the region controller are not the landing slots'. -/
def execBlockEjection (c : CoreRef) (s : State) : Out := clocked s <|
  let k := c.key
  .next (match (atEject s k 2).find? (fun p => p.purpose = 0 || p.purpose = 5) with
    | none => s
    | some p =>
      match p.payload with
      | .msg _ => removePacket p.serial s
      | .xfer _ _ => removePacket p.serial s
      | .block h body =>
        if (getCore s k).ingest.isSome then s
        else if discards s k then rearm k 1 (bump (uCore k) cBlkDrop (removePacket p.serial s))
        else if p.sb.tide ≠ (getCore s k).tide ∧ p.sb.tide ≠ noTide then
          rearm k 1 (bump (uCore k) cBlkStale (removePacket p.serial s))
        else match matchSlot (getCore s k) h.tag with
          | some i => rearm k 1 (updCore (removePacket p.serial s) k (fun x =>
              { x with ingest := some { slot := i, sb := p.sb, hdr := h, body := body, written := 0, dropped := p.poison } }))
          | none => bump (uCore k) cBlkWait s)

/-- R410, R482: the record of a failed check. FOREIGN is bit 4 of POINT. -/
def foreign (s : State) (h : BlkHdr) : Bool :=
  decide (domainSize s ≤ h.srcModule.toNat)
    || (decide (h.channel ≠ 0xFFF) && !((List.range 8).any (fun e =>
        (getEngine s e).image.any (fun im => im.chans.any (fun c => c.channel = h.channel.toNat)))))

/-- [DEDUCED: log 74] -/
def logCheckFail (rep u : Nat) (fn : Option Nat) (h : BlkHdr) (computed : Word) (point : Nat) (rcd : Word) (haddr : Nat)
    (s : State) : State :=
  logAt rep (mkRec 0x0D01 1 u fn h.tide
    [(4, h.srcCore.toNat + 2 ^ 18 * h.srcModule.toNat), (2, h.channel.toNat), (2, h.tag.toNat), (4, h.seq.toNat),
     (4, h.check.toNat), (4, computed.toNat), (1, point + (if foreign s h then 16 else 0)), (1, 0), (4, rcd.toNat),
     (8, haddr)]) s

/-- The end of a landing (R70, R72): the status is reported, a failed check marks the core, its row and the log, and a
waiting BWAIT retires. -/
def finishLanding (key : Nat) (g : Ingest) (s : State) : State :=
  let n := keyRegion key
  let sum := crc32c g.body
  let bad := sum ≠ g.hdr.check
  let st : Half := if bad then 2 else 0
  let s1 := if bad then
      bump (uRegion n) rLandFail (logCheckFail (uRegion n) (uCore key) (ownerOf s n) g.hdr sum 0 0 0
        (updRegion s n (fun r => { r with rowsTaint := r.rowsTaint ||| (1#32 <<< keyRow key) })))
    else s
  updCore s1 key (fun k =>
    let k1 := setLanding g.slot ((getLanding k g.slot).map (fun l => { l with status := some st }))
      { k with ingest := none, taint := k.taint || bad }
    match k1.run with
    | .waiting (.land d i) => if i = g.slot then retire (takeLanding d i) k1 else k1
    | _ => k1)

/-- The words of a landing block from its number `m` on, `n` of them, written into the range (R72). -/
def landWords (g : Ingest) (n : Nat) (k : Core) : Core :=
  match getLanding k g.slot with
  | none => k
  | some l =>
    { k with
      spad := writeBytes k.spad (spadAddr k l.addr.toNat 2048 + 64 * g.written) ((g.body.drop (64 * g.written)).take (64 * n))
      ingest := some { g with written := g.written + n } }

/-- BLOCK_LANDING (R70, R72): the next `n` words are written; after the last, the landing is reported. -/
def execBlockLanding (c : CoreRef) (n : BitVec 6) (s : State) : Out := clocked s <|
  let key := c.key
  .next (match (getCore s key).ingest with
    | none => s
    | some g =>
      if discards s key then bump (uCore key) cBlkDrop (updCore s key (fun k => { k with ingest := none }))
      else
        let m := min n.toNat ((if g.dropped then 31 else 32) - g.written)
        let s1 := updCore s key (landWords g m)
        if g.written + m = 32 then finishLanding key g s1 else s1)

/-- POISON_TAIL_ARRIVAL (R97, R130): the partial message or block is discarded, and its reservation released.
[DEDUCED: log 37] -/
def execPoisonTailArrival (c : CoreRef) (s : State) : Out := clocked s <|
  let k := getCore s c.key
  .next (match (List.range 8).find? (fun q => (getQueue k q).any (fun m => !m.complete)) with
    | some q => bump (uCore c.key) (cQDrop q)
        (updCore s c.key (fun x => setQueue q ((getQueue x q).eraseP (fun m => !m.complete)) x))
    | none =>
      if k.ingest.any (·.dropped) then updCore s c.key (fun x => { x with ingest := none })
      else match (atEject s c.key 2).find? (fun p => p.poison) with
        | some p => removePacket p.serial s
        | none => s)

/-- STALL_WATCHDOG_FIRE (R94): a watched port that waits fires once per episode. -/
def execStallWatchdogFire (c : CoreRef) (port : Fin 3) (s : State) : Out := clocked s <|
  let k := c.key
  let n := c.region.val
  let waiting := match port.val with
    | 0 => (atEject s k 1).head?
    | 1 => (atEject s k 2).head?
    | _ => s.packets.find? (fun p => inputAt k p = some 4)
  .next (match waiting with
    | none => s
    | some p =>
      if !(getRegion s n).chwEn ∨ (getRouter s k).fired.getLsbD port.val then s
      else bump (uRegion n) rChwFires (logRegion n 0x0302 1 (uRouter k) p.sb.tide
        [(4, uRouter k), (1, port.val), (1, p.sb.dstQueue.toNat), (2, p.sb.channel.toNat), (4, p.sb.dstCore.toNat)]
        (updRegion (updRouter s k (fun r => { r with fired := r.fired ||| (1#3 <<< port.val) })) n
          (fun g => { g with chwFired := true }))))

/-! ### Link watchdog and recovery (R127–R131) -/

/-- ALIVE_BEAT (R127): every neighbour of a live router sees its beat. -/
def execAliveBeat (r : CoreRef) (s : State) : Out := clocked s <|
  let k := r.key
  .next (if (getRouter s k).dead then s
    else forAll (List.range 4) (fun d t => match neighbour k d with
      | some k' => updRouter t k' (fun x => { x with beat := tset 0 x.beat (opposite d) s.cclk })
      | none => t) s)

/-- A hop marked at a router. -/
def markHop (k dir : Nat) (code : BitVec 2) (s : State) : State :=
  updRouter s k (fun r => { r with mark := tset 0 r.mark dir code })

/-- R129: the packets of router `k` whose next hop is `dir` are discarded. -/
def discardBound (k dir : Nat) (s : State) : State :=
  { s with
    packets := s.packets.filter (fun p => !((inputAt k p).isSome && decide ((actionOf s k p).out = some dir))) }

/-- R130: packets cut in two end in a poison tail, counted at the router that appends it. [DEDUCED: log 27] -/
def poisonCut (k : Nat) (cut : List Nat) (s : State) : State :=
  bumpBy (uCore k) cRtKilled ((s.packets.filter (fun p => cut.contains p.serial && !p.poison)).length)
    { s with packets := s.packets.map (fun p => if cut.contains p.serial then { p with poison := true } else p) }

/-- LINK_WATCHDOG_FIRE (R128–R130): the hop is marked dead, what was bound through it is discarded, and it is reported.
[DEDUCED: log 27, 34] -/
def execLinkWatchdogFire (r : CoreRef) (dir : Fin 4) (cut : List Nat) (s : State) : Out := clocked s <|
  let k := r.key
  .next (poisonCut k cut (bump (uCore k) cLinkFires
    (logRegion r.region.val 0x0402 1 (uRouter k) noTide [(4, uRouter k), (1, dir.val)]
      (markHop k dir.val 2 (discardBound k dir.val s)))))

/-- A notice to every region controller of the module. -/
def notifyAll (f : Nat → Ctl) (s : State) : State := { s with ctl := s.ctl ++ (List.range 512).map f }

/-- The region controller moves to its south service router when its north one is out (R111). -/
def movesSouth (k : Nat) : Bool := keyRow k = 0 && keyCol k = 8

/-- R129: what follows when a router is out: its core is fenced, its neighbours mark it, and every controller is told. -/
def routerOut (k : Nat) (s : State) : State :=
    let s1 := fenceCore k s
    let s2 := forAll (List.range 4) (fun d t => match neighbour k d with
      | some k' => if hopOf t k' (opposite d) = 3 then t else markHop k' (opposite d) 2 t
      | none => t) s1
    let s3 := if movesSouth k then
        updRegion s2 (keyRegion k) (fun g => { g with svcMap := g.svcMap ||| (1#512 <<< keyRegion k) }) else s2
    notifyAll (fun n => .routerDown n k (movesSouth k))
      (logRegion (keyRegion k) 0x0403 2 (uRouter k) noTide [(4, uRouter k)] s3)

/-- R129: a dead router is fenced. -/
def routerDown (k : Nat) (s : State) : State :=
  if 2 ≤ eff s (uRouter k) then s else routerOut k (fenceLive (uRouter k) s)

/-- R129: a link is out: both ends mark it, and every controller is told. -/
def linkOut (k dir : Nat) (s : State) : State :=
    let s1 := markHop k dir 2 s
    let s2 := match neighbour k dir with
      | some k' => markHop k' (opposite dir) 2 s1
      | none => s1
    notifyAll (fun n => .linkDown n k dir)
      (logRegion (keyRegion k) 0x0404 2 (uHop k dir) noTide [(4, uHop k dir)] s2)

/-- R129: only the link is out: it is fenced. -/
def linkDown (k dir : Nat) (s : State) : State :=
  if 2 ≤ eff s (uHop k dir) then s else linkOut k dir (fenceLive (uHop k dir) s)

/-- FAR_ROUTER_QUERY (R129): the answer decides between the link and the router. -/
def execFarRouterQuery (r : CoreRef) (dir : Fin 4) (alive : Bool) (s : State) : Out := clocked s <|
  .next (if hopOf s r.key dir.val ≠ 2 then s
    else match neighbour r.key dir.val with
      | none => s
      | some k' => if alive then linkDown r.key dir.val s
        else routerDown k' (updRouter s k' (fun x => { x with dead := true })))

/-- R97: the slots that `p` names become BROKEN, and their rows are noted for TDONE (R192). -/
def breakAndNote (n : Nat) (p : Nat → Slot → Bool) (s : State) : State :=
  let rows := (s.cores.filter (fun e => keyRegion e.1 = n)).foldl (fun (w : BitVec 32) e =>
    if e.2.slots.any (fun x => !x.2.broken && p e.1 x.2) then w ||| (1#32 <<< keyRow e.1) else w) 0
  updRegion (breakSlots n p s) n (fun g => { g with rowsBroken := g.rowsBroken ||| rows })

/-- R111: region `m` is served from the south, in the maps of region `n` and of the bridges that attach there.
[DEDUCED: log 198] -/
def movedSouth (n m : Nat) (s : State) : State :=
  forAll ((List.range 32).filter (fun b => decide ((bridgeSite b).1 = n)))
    (fun b t => updBridge t b (fun x => { x with svcMap := x.svcMap ||| (1#512 <<< m) }))
    (updRegion s n (fun g => { g with svcMap := g.svcMap ||| (1#512 <<< m) }))

/-- ROUTER_DOWN_NOTICE (R97, R111, R129, R149). -/
def execRouterDownNotice (region : Fin 512) (s : State) : Out := clocked s <|
  let n := region.val
  let pick (c : Ctl) : Option Ctl := match c with
    | .routerDown r _ _ => if r = n then some c else none
    | .linkDown r _ _ => if r = n then some c else none
    | .offlineNotice r _ => if r = n then some c else none
    | _ => none
  .next (match takeCtl pick s with
    | some (.routerDown _ k south, t) =>
      let t1 := if south then movedSouth n (keyRegion k) t else t
      breakAndNote n (crossed t1 (fun x => x = k)) t1
    | some (.linkDown _ k dir, t) => breakAndNote n (crossedHop t k dir) t
    | some (.offlineNotice _ lost, t) =>
      addOffline n lost (breakAndNote n (crossed t (fun x => keyRegion x = lost)) t)
    | _ => s)

/-- STATUS_SCAN (R131): a router that has stopped beating is treated as in R129. -/
def execStatusScan (region : Fin 512) (dead : List (Fin 32 × Fin 17)) (s : State) : Out := clocked s <|
  .next (forAll dead (fun e t =>
    let k := coreKey region.val e.1.val e.2.val
    routerDown k (updRouter t k (fun x => { x with dead := true }))) s)

/-- No engine is bound in the region of a router or in those of its four neighbours (R119). -/
def quietAround (s : State) (k : Nat) : Bool :=
  (k :: (List.range 4).filterMap (neighbour k)).all (fun x => (getRegion s (keyRegion x)).engine.isNone)

/-- No engine is bound in the four regions beside a region (R119). -/
def quietBeside (s : State) (n : Nat) : Bool := (neighbourRegions n).all (fun r => (getRegion s r).engine.isNone)

/-- R119: a released region may rejoin the mesh. -/
def mayRejoin (s : State) (n : Nat) : Bool := (getRegion s n).awaitsRejoin && !regionOffline s n && quietBeside s n

/-- R119: the hop of router `k` in a direction opens again in a rebuild by region `n`. A hop held at 0b01 on both sides belongs to
a released link, one held on one side to the released router behind it; 0b11 belongs to the region. [DEDUCED: log 197] -/
def hopReopens (s : State) (n k dir : Nat) : Bool :=
  match neighbour k dir with
  | none => false
  | some k' =>
    let code := tget 0 (getRouter s k).mark dir
    decide (keyRegion k = n ∨ keyRegion k' = n) && usable s (uRouter k') && usable s (uRouter k) && usable s (uHop k dir)
      && ((decide (code = 1) && quietAround s k' && (decide (tget 0 (getRouter s k').mark (opposite dir) ≠ 1) || quietAround s k))
        || (decide (code = 3) && decide (keyRegion k' = n) && mayRejoin s n))

/-- R119: the tables with the hops that a rebuild by region `n` opens. [DEDUCED: log 197] -/
def reopenHops (n : Nat) (s : State) : State :=
  { s with
    routers := tupdAll Router.init s.routers (s.routers.map (·.1)) (fun k r =>
      { r with mark := tupdAll 0 r.mark ((List.range 4).filter (hopReopens s n k)) (fun _ _ => 0) }) }

/-- R111: the region's north service router is in service, and the tables are rebuilt around it. -/
def northBack (s : State) (n : Nat) : Bool := usable s (uRouter (serviceKey n false)) && quietAround s (serviceKey n false)

/-- TABLE_REBUILD (R111, R119, R149): once no engine is bound nearby, released routers, links and the region itself rejoin. -/
def execTableRebuild (region : Fin 512) (s : State) : Out := clocked s <|
  let n := region.val
  let north := northBack s n
  let back := mayRejoin s n
  let clear (b : Bool) (m : BitVec 512) : BitVec 512 := if b then m &&& ~~~(1#512 <<< n) else m
  let s1 := forAll (List.range 512) (fun r t =>
    updRegion t r (fun g => { g with svcMap := clear north g.svcMap, offMap := clear back g.offMap })) (reopenHops n s)
  let s2 := forAll (List.range 32) (fun b t => updBridge t b (fun g => { g with svcMap := clear north g.svcMap })) s1
  .next (if back then updRegion s2 n (fun g => { g with awaitsRejoin := false, sync := [], waiters := [] }) else s2)

/-- Bordering routers carry 0b11 toward an offline region (R115). -/
def ringRegion (n : Nat) (s : State) : State :=
  forAll (regionCores n) (fun k t => forAll (List.range 4) (fun d u =>
    match neighbour k d with
    | some k' => if keyRegion k' = n then u else markHop k' (opposite d) 3 u
    | none => u) t) s

/-- R115, R149: a region is offline: its ring closes, its cores' traffic breaks and every offline map takes it in.
[DEDUCED: log 42] -/
def closeRegion (n cause : Nat) (s : State) : State :=
  let s1 := abandonTest n (ringRegion n s)
  let s2 := logRegion n 0x0405 2 (uRegion n) noTide [(2, n), (1, cause)] s1
  let s3 := forAll (otherRegions n) (fun r t =>
    addOffline r n (breakAndNote r (crossed s1 (fun x => keyRegion x = n)) t)) s2
  { s3 with packets := s3.packets.filter (fun p => match p.loc with
      | .router k _ => keyRegion k ≠ n
      | .eject k => keyRegion k ≠ n
      | .service r => r ≠ n
      | _ => true) }

/-- REGION_OFFLINE (R115, R149): the region is fenced. [DEDUCED: log 42, 135] -/
def takeOffline (n cause : Nat) (s : State) : State := closeRegion n cause (fenceLive (uRegion n) s)

def execRegionOffline (region : Fin 512) (cause : Fin 5) (s : State) : Out := clocked s <| .next (takeOffline region.val cause.val s)

/-! ### Synchronisation homes and answers (R136–R149) -/

/-- SYNC_REQUEST (R136, R138, R142): the home handles the first request that has reached it. -/
def execSyncRequest (region : Fin 512) (s : State) : Out := clocked s <|
  let n := region.val
  let pick (c : Ctl) : Option (Requester × Word × BitVec 5) := match c with
    | .syncReq home op obj operand core m eng ten =>
      if home = n ∧ obj.toNat / 8192 = ownModule s then
        some ({ op := op, obj := obj, core := core, module := m, eng := eng }, operand, ten) else none
    | _ => none
  .next (match takeCtl pick s with
    | none => s
    | some ((q, operand, ten), t) =>
      let g := getRegion t n
      if !g.owned ∨ g.owner ≠ ten then
        bump (uCore (serviceKey n (g.svcMap.getLsbD n))) cTagDrop
          (logRegion n 0x0501 1 (uRegion n) noTide
            [(4, q.obj.toNat), (1, ten.toNat), (1, 0), (4, q.core.toNat + 2 ^ 18 * q.module.toNat)] t)
      else objectOp n q operand (bump (uRegion n) rSyncOps t))

/-- A grant that nobody waits for goes back to the home (R146, R148). -/
def returnGrant (key : Nat) (obj : BitVec 17) (op result : BitVec 8) (lost : Bool) (s : State) : State :=
  if (result = resGranted ∨ result = resForfeit) ∧ (op = 1 ∨ op = 2) then
    sendCtl (.grantReturn (homeOf s obj) obj (coreIdOf s key) (BitVec.ofNat 4 (ownModule s)) lost) s
  else s

/-- R73, R139, R140: an answer to an outstanding operation of a core. -/
def takeAnswer (key : Nat) (o : SyncOp) (result : BitVec 8) (s : State) : State :=
  if result = resFull then
    bump (uCore key) cSyncFull (updCore s key (fun k =>
      { k with syncOps := k.syncOps.map (fun x => if x = o then { x with full := true } else x) }))
  else
    let s1 := updCore s key (fun k => { k with syncOps := k.syncOps.erase o })
    if result = resRange then raiseExc key .syncRange o.pc s1
    else settleTend key (updCore s1 key (fun k =>
      if o.waits then retire (sSet o.d (syncStatus result)) k else sSet o.d (syncStatus result) k))

/-- SYNC_ANSWER (R140, R146, R148): the answer ends the core's operation; a grant to a fenced or restarted core is
returned. -/
def execSyncAnswer (c : CoreRef) (s : State) : Out := clocked s <|
  let key := c.key
  let pick (x : Ctl) : Option (BitVec 17 × BitVec 8 × BitVec 8) := match x with
    | .syncAns core obj op r => if carrier s core.toNat = key then some (obj, op, r) else none
    | _ => none
  .next (match takeCtl pick s with
    | none => s
    | some ((obj, op, r), t) =>
      if excluded t key then returnGrant key obj op r true t
      else match (getCore t key).syncOps.find? (fun o => o.obj = obj && o.op = op && !o.full) with
        | some o => takeAnswer key o r t
        | none =>
          let lost := (getCore t key).lostOps.contains obj
          returnGrant key obj op r lost (updCore t key (fun k => { k with lostOps := k.lostOps.erase obj })))

/-- SYNC_FULL_REISSUE (R139): the request goes to its home again. -/
def execSyncFullReissue (c : CoreRef) (s : State) : Out := clocked s <|
  .next (match (getCore s c.key).syncOps.find? (·.full) with
    | none => s
    | some o => sendCtl (sendSync s c.key o.op o.obj o.operand) (updCore s c.key (fun k =>
        { k with syncOps := k.syncOps.map (fun x => if x = o then { x with full := false } else x) })))

/-- The cores of a function: those of its regions (R143). -/
def lostFn (s : State) (fn : Nat) : LostBy := fun core m =>
  let g := getRegion s (core.toNat / 512)
  decide (m.toNat = ownModule s) && g.owned && decide (g.owner.toNat = fn)

/-- FORFEIT_NOTICE (R143–R145): the controller sweeps its objects and waiters for the lost holder. -/
def execForfeitNotice (region : Fin 512) (s : State) : Out := clocked s <|
  let n := region.val
  let pick (c : Ctl) : Option LostBy := match c with
    | .forfeitCore r core m => if r = n then some (fun c' m' => c' = core && m' = m) else none
    | .forfeitFn r fn => if r = n then some (lostFn s fn) else none
    | .forfeitPeer r x m => if r = n then some (fun c' m' => decide (c'.toNat / 512 = x) && m' = m) else none
    | _ => none
  .next (match takeCtl pick s with
    | none => s
    | some (lost, t) => sweep n lost t)

/-- R148: what a returned grant had given is released without FORFEIT. -/
def releaseGrant (home o : Nat) (core : BitVec 18) (m : BitVec 4) (s : State) : State :=
  let ob := getObj s home o
  match ob.kind.toNat with
  | 1 => if ob.held && ob.holder = core && ob.holderMod = m then bump (uRegion home) rSyncTrel (lockNext home o s) else s
  | 2 =>
    if (semFind ob core m).isSome then
      semGrants home o 1024 (bump (uRegion home) rSyncTrel (setObj s home o
        { ob with
          count := ob.count + 1
          table := (ob.table.map (fun e => if e.core = core ∧ e.module = m then { e with units := e.units - 1 } else e)).filter
            (fun e => e.units ≠ 0) }))
    else s
  | _ => s

/-- GRANT_RETURN (R146, R148). -/
def execGrantReturn (region : Fin 512) (s : State) : Out := clocked s <|
  let n := region.val
  let pick (c : Ctl) : Option (BitVec 17 × BitVec 18 × BitVec 4 × Bool) := match c with
    | .grantReturn home obj core m lost => if home = n then some (obj, core, m, lost) else none
    | _ => none
  .next (match takeCtl pick s with
    | none => s
    | some ((obj, core, m, lost), t) =>
      if lost then sweepObject n (fun c' m' => c' = core && m' = m) (obj.toNat % 16) t
      else releaseGrant n (obj.toNat % 16) core m t)

/-! ### Counter registers (R151–R157) -/

/-- CNT_LO_READ (R153, R154): the low word is returned, with the snapshot; what counts in the cycle is not in it. -/
def execCntLoRead (path : Fin 2) (unit : BitVec 32) (n : BitVec 16) (inc : BitVec 48) (s : State) : Out := clocked s <|
  let r := ctrLoRead path.val unit.toNat n.toNat s
  .next (bumpBy unit.toNat n.toNat (gainOf unit.toNat n.toNat inc.toNat)
    { r.2 with cnt := { r.2.cnt with out := tset 0 r.2.cnt.out path.val r.1 } })

/-- CNT_LO_WRITE (R155, R156). -/
def execCntLoWrite (path : Fin 2) (unit : BitVec 32) (n : BitVec 16) (v : BitVec 32) (inc : BitVec 48) (s : State) : Out := clocked s <|
  .next (ctrLoWrite path.val unit.toNat n.toNat v inc.toNat s)

/-- CNT_HI_WRITE (R8, R156). -/
def execCntHiWrite (path : Fin 2) (unit : BitVec 32) (n : BitVec 16) (v : BitVec 32) (inc : BitVec 48) (s : State) : Out := clocked s <|
  .next (ctrHiWrite path.val unit.toNat n.toNat v inc.toNat s)

/-- CNT_FREEZE (R157): bit 0 of the written value; what counts in the cycle reaches the live counter only. -/
def execCntFreeze (unit : BitVec 32) (v : BitVec 32) (n : BitVec 16) (inc : BitVec 48) (s : State) : Out := clocked s <|
  .next (bumpBy unit.toNat n.toNat (gainOf unit.toNat n.toNat inc.toNat) (ctrFreeze (freezeGroup unit.toNat) (v.getLsbD 0) s))

end Sys2Proof.Machine
end

