-- ==== Sys2Proof/Machine/HostOps.lean ====
section
/-! DEFINITION. Machine/HostOps.lean: functions, ring pairs and completions: status codes, the completion entry, events,
vectors, halts, and the jobs of the engines (R10, R11, R337–R345, R358–R362). -/

namespace Sys2Proof.Machine

open Sys2Proof

/-! ### Status codes (R10, R11) -/

def stOk : Nat := 0
def stLate : Nat := 0x01
def stTainted : Nat := 0x02
def stForfeit : Nat := 0x03
def stRebased : Nat := 0x04
def stBad : Nat := 0x10
def stRange : Nat := 0x11
def stTimeout : Nat := 0x12
def stNotOwner : Nat := 0x13
def stRemap : Nat := 0x20
def stHole : Nat := 0x21
def stSyncLost : Nat := 0x22
def stBroken : Nat := 0x23
def stReset : Nat := 0x30

/-- The order of R11. -/
def statusOrder : List Nat :=
  [stReset, stRemap, stSyncLost, stBroken, stNotOwner, stBad, stRange, stTimeout, stLate, stHole, stRebased, stForfeit,
   stTainted, stOk]

/-- R11: the first applicable code. [DEDUCED: log 178] -/
def pickStatus (codes : List Nat) : Nat := (statusOrder.find? (fun c => codes.contains c)).getD stOk

/-- R10: the effect was not done. -/
def notDone (code : Nat) : Bool :=
  [stLate, stBad, stRange, stTimeout, stNotOwner, stRemap, stSyncLost, stBroken, stReset].contains code

/-! ### Records -/

def pairKey (fn k : Nat) : Nat := 256 * fn + k
def getPair (s : State) (p : Nat) : Pair := tget Pair.init s.pairs p
def updPair (s : State) (p : Nat) (f : Pair → Pair) : State :=
  { s with pairs := tset Pair.init s.pairs p (f (getPair s p)) }
def getVec (s : State) (v : Nat) : Vec := tget Vec.init s.vecs v
def updVec (s : State) (v : Nat) (f : Vec → Vec) : State := { s with vecs := tset Vec.init s.vecs v (f (getVec s v)) }
def getFn (s : State) (f : Nat) : Fn := tget Fn.init s.fns f
def updFn (s : State) (f : Nat) (g : Fn → Fn) : State := { s with fns := tset Fn.init s.fns f (g (getFn s f)) }
/-- R554: the function's BAR0 takes writes. -/
def barOpen (s : State) (f : Nat) : Bool := !(getFn s f).resetBusy
def getHport (s : State) (h : Nat) : HostPort := tget HostPort.init s.hports h
def updHport (s : State) (h : Nat) (g : HostPort → HostPort) : State :=
  { s with hports := tset HostPort.init s.hports h (g (getHport s h)) }
def getStream (s : State) (n : Nat) : Option Stream := tget none s.streams n
def setStream (s : State) (n : Nat) (v : Option Stream) : State := { s with streams := tset none s.streams n v }
def updStream (s : State) (n : Nat) (f : Stream → Stream) : State := setStream s n ((getStream s n).map f)

/-- The bridge of a host port: SB8 for HA, SB24 for HB. -/
def hostBridge (hb : Bool) : Nat := if hb then 24 else 8

def pairEn (p : Pair) : Bool := p.ctl.getLsbD 0
def pairEngine (p : Pair) : Nat := (p.ctl.extractLsb' 1 4).toNat
def pairLog (p : Pair) : Nat := (p.ctl.extractLsb' 5 5).toNat
def pairSize (p : Pair) : Nat := 2 ^ pairLog p
def pairPoll (p : Pair) : Nat := (p.ctl.extractLsb' 10 12).toNat
def pairVector (p : Pair) : Nat := (p.cr.extractLsb' 0 11).toNat
def pairBase (r : DWord) : Nat := r.toNat / 4096 * 4096

/-- R336: commands fetched and not completed, or a read outstanding. -/
def pairBusy (p : Pair) : Bool := !p.owed.isEmpty || p.reading

/-- A ring difference. -/
def ringSub (size a b : Nat) : Nat := (a + size - b % size) % size

/-! ### Events (R345) -/

/-- An EVENTS bit set; when it becomes 1 while its enable is 1, vector 0 is due. -/
def setEvent (f bit : Nat) (s : State) : State :=
  let g := getFn s f
  let s1 := updFn s f (fun g => { g with event := g.event ||| (1#8 <<< bit) })
  if !g.event.getLsbD bit && g.eventEn.getLsbD bit then updVec s1 (2048 * f) (fun v => { v with pending := v.pending + 1 })
  else s1

/-- An MSI-X message sent, or held in the pending-bit array of a masked vector; the pending count returns to 0. -/
def sendMsi (v : Nat) (s : State) : State :=
  updVec s v (fun x =>
    if x.masked then { x with pba := true, pending := 0, firstUs := none }
    else { x with sent := x.sent + 1, pending := 0, firstUs := none })

/-! ### Completions (R341, R342) -/

/-- A completion entry as it is written: SR_HEAD is the pair's HEAD now. -/
def cplBytes (p : Pair) (c : Cpl) : List Byte :=
  leBytes 2 c.ticket.tag.toNat ++ leBytes 2 c.status ++ leBytes 2 p.head.toNat ++ leBytes 2 c.ticket.index
    ++ leBytes 1 c.ticket.op.toNat ++ leBytes 1 c.unit ++ leBytes 2 c.stream.toNat ++ leBytes 4 c.tide.toNat
    ++ padTo 12 c.result ++ [0, 0, 0] ++ [if c.ticket.phase then 1 else 0]

/-- A completion joins those that its pair will write; none is written for a function in a PCIe FLR (R346). -/
def queueCpl (c : Cpl) (s : State) : State :=
  let g := getFn s c.ticket.fn
  if g.resetBusy && g.flr then s
  else updPair s (pairKey c.ticket.fn c.ticket.pair) (fun p => { p with ready := p.ready ++ [c] })

/-- R344: a pair halts: it stops polling and fetching; the halt completion goes into slot HEAD when that is free; the event
is raised. -/
def haltPair (fn k cause : Nat) (s : State) : State :=
  let p := getPair s (pairKey fn k)
  let free := decide (ringSub (pairSize p) p.head.toNat p.cons.toNat < pairSize p - 1)
  let st := if cause ≤ 2 then stRange else if cause ≤ 4 then stBad else stTimeout
  let t : Ticket := { fn := fn, pair := k, index := p.head.toNat, phase := p.phase, tag := 0xFFFF }
  let s1 := updPair s (pairKey fn k) (fun p => { p with halted := true, cause := BitVec.ofNat 3 cause, reading := false })
  let s2 := if free then queueCpl { ticket := t, status := st, unit := pairEngine p } s1 else s1
  logAt (uHost (if (getFn s fn).port then 1 else 0))
    (mkRec 0x0B01 1 (uHost (if (getFn s fn).port then 1 else 0)) (some fn) noTide [(2, k), (1, cause)])
    (setEvent fn 0 s2)

/-! ### Commands -/

/-- OP of a command, and a field of it. -/
def opByte (cmd : List Byte) : Nat := field cmd 0 1

/-- Body bytes that a command names, as offset and size (command table), with the reserved bits of its flag bytes. -/
def bodyFields (op : Nat) : List (Nat × Nat) :=
  match op with
  | 0x01 => [(4, 2), (8, 8)]
  | 0x03 => [(4, 4), (8, 6), (16, 8)]
  | 0x10 => [(8, 12)]
  | 0x12 => [(4, 1), (8, 6), (16, 9)]
  | 0x13 => [(4, 12)]
  | 0x14 => [(4, 2)]
  | 0x15 => [(4, 2), (8, 24)]
  | 0x16 => [(4, 2), (16, 8), (28, 4)]
  | 0x18 => [(4, 8)]
  | 0x19 => [(4, 5), (12, 4)]
  | 0x20 => [(4, 1), (8, 20)]
  | 0x21 => [(4, 1), (8, 12)]
  | 0x30 => [(4, 8)]
  | 0x31 => [(4, 4)]
  | 0x32 => [(4, 2), (8, 8)]
  | 0x33 => [(4, 2), (8, 24)]
  | _ => []

/-- A flag byte whose bits above bit 0 are reserved. -/
def flagByte (op : Nat) : Option Nat :=
  match op with
  | 0x03 => some 5
  | 0x12 => some 24
  | 0x30 => some 7
  | 0x31 => some 7
  | _ => none

/-- R7: a byte that the command does not name, or a reserved bit of it, is not 0. -/
def reservedSet (cmd : List Byte) : Bool :=
  let named (i : Nat) : Bool := decide (i < 4) || (bodyFields (opByte cmd)).any (fun f => decide (f.1 ≤ i ∧ i < f.1 + f.2))
  (List.range 32).any (fun i => !named i && decide (field cmd i 1 ≠ 0))
    || (flagByte (opByte cmd)).any (fun i => decide (2 ≤ field cmd i 1))
    || (opByte cmd == 0x20 && decide (16 ≤ field cmd 4 1))

/-- R358: the kinds of engine that run a command: 0 Stream, 1 Transfer, 2 Configuration. -/
def opEngines (op : Nat) : List Nat :=
  if 1 ≤ op ∧ op ≤ 4 then [0, 1, 2]
  else if 0x10 ≤ op ∧ op ≤ 0x1A then [0]
  else if op = 0x20 ∨ op = 0x21 then [1]
  else if 0x30 ≤ op ∧ op ≤ 0x33 then [2]
  else []

def engineKind (e : Nat) : Nat := if e < 8 then 0 else if e < 12 then 1 else 2

/-- Class C: at most one at a time on an engine (R359). -/
def isConfig (op : Nat) : Bool := [0x01, 0x04, 0x10, 0x11, 0x12, 0x13, 0x14, 0x21, 0x33].contains op

/-- R362: the engine's state accepts the command. [DEDUCED: log 86] -/
def acceptsOp (e : Nat) (st : Nat) (op : Nat) : Bool :=
  if st = 5 then false
  else if op = 2 ∨ op = 3 ∨ op = 4 then true
  else if 8 ≤ e then decide (st = 0)
  else match st with
    | 0 => decide (op = 0x10 ∨ op = 0x12)
    | 2 => decide (op ≠ 0x10)
    | 3 => decide (op ≠ 0x10 ∧ op ≠ 0x11)
    | 4 => decide (op = 0x14 ∨ op = 0x11)
    | _ => false

/-- R361: commands that a list may not hold, and flags that its commands may not carry. -/
def notListed (cmd : List Byte) : Bool :=
  [0x01, 0x02, 0x15, 0x16, 0x17, 0x18].contains (opByte cmd) || decide (field cmd 1 1 ≠ 0)

/-- A listed command that completes BAD_DESCRIPTOR: one that a list may not hold, or that another kind of engine runs
(R358, R361). [DEDUCED: log 45] -/
def unlistable (e : Nat) (cmd : List Byte) : Bool :=
  notListed cmd || !(opEngines (opByte cmd)).contains (engineKind e)

/-! ### Jobs -/

def getJob (s : State) (e j : Nat) : Option Job := (getEngine s e).jobs[j]?

def updJob (s : State) (e j : Nat) (f : Job → Job) : State :=
  updEngine s e (fun g => { g with jobs := g.jobs.modify j f })

/-- Two jobs of one ring. -/
def sameRing (a b : Job) : Bool := a.ticket.fn = b.ticket.fn && a.ticket.pair = b.ticket.pair

/-- R359, R360: nothing earlier of its ring is unstarted, and a configuration command finds no other one running.
[DEDUCED: log 177] -/
def canStart (g : Engine) (j : Nat) : Bool :=
  match g.jobs[j]? with
  | none => false
  | some x =>
    (decide (g.state.toNat ≠ 5)) && !((g.jobs.take j).any (fun y => sameRing x y && !y.started))
      && (!isConfig (opByte x.cmd)
          || !((List.range g.jobs.length).any (fun i => decide (i ≠ j) &&
              (g.jobs[i]?).any (fun y => y.started && (y.lst.isSome || isConfig (opByte y.cmd))))))

/-- The job of engine `e` at place `j` when its command in hand has this OP and waits to start: a listed command starts once
the one before has completed. [DEDUCED: log 177] -/
def startable (s : State) (e j op : Nat) : Option Job :=
  match getJob s e j with
  | some x =>
    if opByte x.cmd = op ∧ (if x.lst.isSome then x.prog = .fresh ∧ op ≠ 1 else !x.started ∧ canStart (getEngine s e) j) then some x
    else none
  | none => none

/-- The place of the job with a ticket. -/
def jobAt (g : Engine) (t : Ticket) : Option Nat := g.jobs.findIdx? (fun x => x.ticket = t)

/-- RESULT of a LIST: DONE, FAIL_INDEX, FAIL_STATUS. -/
def listResult (l : ListRun) : List Byte :=
  match l.codes.findIdx? notDone with
  | some i => leBytes 2 l.done ++ leBytes 2 i ++ leBytes 2 (l.codes.getD i 0)
  | none => leBytes 2 l.done ++ leBytes 2 0xFFFF ++ leBytes 2 0

/-- A command completes: a listed one is recorded and the list goes on or ends (R361); any other's completion joins its
pair (R337). `stream` and `tide` are the completion's fields. [DEDUCED: log 45] -/
def finishJob (e j code : Nat) (result : List Byte) (stream : Half) (tide : Word) (s : State) : State :=
  match getJob s e j with
  | none => s
  | some x =>
    let drop (s : State) : State := updEngine s e (fun g => { g with jobs := g.jobs.eraseIdx j })
    match x.lst with
    | none => queueCpl { ticket := x.ticket, status := code, unit := e, stream := stream, tide := tide, result := result } (drop s)
    | some l =>
      let l' : ListRun := { l with done := l.done + 1, codes := l.codes ++ [code] }
      match l'.rest with
      | c :: cs =>
        if notDone code then
          queueCpl { ticket := x.ticket, status := pickStatus l'.codes, unit := e, result := listResult l' } (drop s)
        else if unlistable e c then
          let l2 : ListRun := { l' with done := l'.done + 1, codes := l'.codes ++ [stBad] }
          queueCpl { ticket := x.ticket, status := pickStatus l2.codes, unit := e, result := listResult l2 } (drop s)
        else updJob s e j (fun y => { y with cmd := c, lst := some { l' with rest := cs }, prog := .fresh })
      | [] => queueCpl { ticket := x.ticket, status := pickStatus l'.codes, unit := e, result := listResult l' } (drop s)

/-- A command without STREAM or TIDE fields completes. -/
def endJob (e j code : Nat) (result : List Byte) (s : State) : State := finishJob e j code result 0xFFFF noTide s

/-- The command starts: it runs `act` when the engine's state accepts it and its function may give it, and completes RANGE
or otherwise at once when not (R358, R362). [DEDUCED: log 178] -/
def startJob (e j op : Nat) (act : Job → State → State) (s : State) : State :=
  match startable s e j op with
  | none => s
  | some x =>
    if reservedSet x.cmd then endJob e j stBad [] s
    else if !acceptsOp e (getEngine s e).state.toNat op then endJob e j stRange [] s
    else act x (updJob s e j (fun y => { y with started := true, since := nowUs s, prog := .wait }))

/-- The function that gave a command. -/
def jobFn (x : Job) : Nat := x.ticket.fn

/-- Fields of a command. -/
def cmdNat (x : Job) (off n : Nat) : Nat := field x.cmd off n

/-- R492: the mailbox stops waiting for the answers to the orders that came by it. -/
def dropMailOrders (s : State) : State :=
  { s with lh := { s.lh with orders := s.lh.orders.map (fun o => if o.via = .mailbox then { o with dropped := true } else o) } }

end Sys2Proof.Machine
end

