-- ==== Sys2Proof/Machine/Sensors.lean ====
section
/-! DEFINITION. Machine/Sensors.lean: sensors, their filter and what replaces a failed one (R483–R485). -/

namespace Sys2Proof.Machine

open Sys2Proof

def getSensor (s : State) (id : Nat) : Sensor := tget Sensor.init s.sensors id
def updSensor (s : State) (id : Nat) (f : Sensor → Sensor) : State :=
  { s with sensors := tset Sensor.init s.sensors id (f (getSensor s id)) }

/-- A sensor id: kind in [15:12], index in [11:0]. -/
def sensorId (kind index : Nat) : Nat := 4096 * kind + index

/-- Indexes of a kind. -/
def sensorCount (kind : Nat) : Nat :=
  if 1 ≤ kind ∧ kind ≤ 5 then 512 else if kind = 6 ∨ kind = 9 then 128 else if kind = 7 then 2 else if kind = 8 then 3 else 0

def isSensor (id : Nat) : Bool := decide (id % 4096 < sensorCount (id / 4096))

/-- Ten times a value. -/
def tenTimes (x : FV) : FV := fvMul x (fvOfInt 10)

/-- Not above, for numbers. -/
def fvLe (a b : FV) : Bool := fvLt a b || fvEq a b

/-- Plausible range and largest step per ms, in tenths (table of R483). -/
def sensorRange (id : Nat) : Int × Int × Nat :=
  match id / 4096 with
  | 1 => (-200, 1500, 100)
  | 2 => (0, 12, 1)
  | 3 => (0, 12, 1)
  | 4 => (0, 1200, 400)
  | 5 => (0, 1200, 400)
  | 6 => (-200, 1500, 100)
  | 7 => (0, 900, 20)
  | 8 => if id % 4096 = 0 then (0, 800, 100) else if id % 4096 = 1 then (0, 6000, 1500) else (0, 160, 20)
  | _ => (-200, 1500, 100)

def inRange (id : Nat) (v : Word) : Bool :=
  let r := sensorRange id
  fvLe (fvOfInt r.1) (tenTimes (f32 v)) && fvLe (tenTimes (f32 v)) (fvOfInt r.2.1)

/-- The median of the samples kept, the lower of the two middle ones when their number is even. -/
def median (vs : List Word) : Option Word := (sortBy (fun a b => fvLe (f32 a) (f32 b)) vs)[(vs.length - 1) / 2]?

/-- The magnitude of a value. -/
def fvAbs (x : FV) : FV := if fvLt x (fvOfInt 0) then fvNeg x else x

/-- R484: a sample is plausible. -/
def plausible (s : State) (id : Nat) (v : Word) : Bool :=
  let g := getSensor s id
  inRange id v && (decide (g.vals.length < 5) || (match median g.vals with
    | none => true
    | some m =>
      fvLe (fvMul (tenTimes (fvAbs (fvAdd (f32 v) (fvNeg (f32 m))))) (fvOfInt 1000))
        (fvOfInt ((sensorRange id).2.2 * (nowUs s - g.lastUs) : Nat))))

/-- A sensor in service with a sample. -/
def inService (s : State) (id : Nat) : Option Word :=
  if (getSensor s id).failed then none else median (getSensor s id).vals

/-- The sensors next to one (R485). -/
def sensorNeighbours (id : Nat) : List Nat :=
  let i := id % 4096
  match id / 4096 with
  | 1 => (neighbourRegions i).map (sensorId 1)
  | 6 => ((List.range 4).filter (fun k => k ≠ i % 4)).map (fun k => sensorId 6 (i / 4 * 4 + k))
  | 7 => [sensorId 7 (1 - i)]
  | 9 => ((if i % 32 = 0 then [] else [i - 1]) ++ (if i % 32 = 31 then [] else [i + 1])).map (sensorId 9)
  | _ => []

/-- The throttle temperature of a sensor (R521). -/
def throttleTemp (id : Nat) : Nat :=
  match id / 4096 with
  | 1 => 95
  | 6 => 100
  | 7 => if id % 4096 = 0 then 45 else 55
  | _ => 85

/-- R485: what stands for a failed sensor. -/
def replaced (s : State) (id : Nat) : Word :=
  if id / 4096 = 1 ∨ id / 4096 = 6 ∨ id / 4096 = 7 ∨ id / 4096 = 9 then
    match (sensorNeighbours id).filterMap (inService s) with
    | [] => to32 (fvOfInt (throttleTemp id))
    | v :: vs => to32 (fvAdd (f32 (vs.foldl (fun a b => if fvLt (f32 a) (f32 b) then b else a) v)) (fvOfInt 5))
  else (getSensor s id).last

/-- The filtered or replaced value; none before the first sample. [DEDUCED: log 79] -/
def sensed (s : State) (id : Nat) : Option Word :=
  if (getSensor s id).failed then some (replaced s id) else median (getSensor s id).vals

/-- The value is at or above a number of tenths; at or below; above. No sample answers neither. [DEDUCED: log 79] -/
def atLeast (s : State) (id : Nat) (t : Int) : Bool := (sensed s id).any (fun v => fvLe (fvOfInt t) (tenTimes (f32 v)))
def atMost (s : State) (id : Nat) (t : Int) : Bool := (sensed s id).any (fun v => fvLe (tenTimes (f32 v)) (fvOfInt t))
def above (s : State) (id : Nat) (t : Int) : Bool := (sensed s id).any (fun v => fvLt (fvOfInt t) (tenTimes (f32 v)))

/-- The unit whose holder reports about a sensor. -/
def sensorUnit (id : Nat) : Nat :=
  let i := id % 4096
  match id / 4096 with
  | 6 => uBridge (i / 4)
  | 7 => uLighthouse
  | 8 => uLighthouse
  | 9 => uHarbour (i / 32)
  | _ => uRegion i

/-- R484: a sensor becomes FAILED. -/
def failSensor (id : Nat) (s : State) : State :=
  let last := (sensed s id).getD 0
  bump uModule 8 (logAt (sensorUnit id) (mkRec 0x1004 2 (sensorUnit id) none noTide [(2, id), (4, last.toNat)])
    (updSensor s id (fun g => { g with failed := true, bad := 0, good := 0, last := last })))

/-- R484: the filter takes a sample. A sensor that returns starts its median with the sample on which it returns.
[DEDUCED: log 78] -/
def takeSample (id : Nat) (v : Word) (s : State) : State :=
  let g := getSensor s id
  if g.failed then
    if !inRange id v then updSensor s id (fun g => { g with good := 0 })
    else if g.good + 1 < 5 then updSensor s id (fun g => { g with good := g.good + 1 })
    else updSensor s id (fun _ => { vals := [v], lastUs := nowUs s })
  else if plausible s id v then
    updSensor s id (fun g => { g with vals := (g.vals ++ [v]).drop (g.vals.length - 4), lastUs := nowUs s, bad := 0 })
  else if g.bad + 1 < 8 then updSensor s id (fun g => { g with bad := g.bad + 1 })
  else failSensor id s

end Sys2Proof.Machine
end

