-- ==== Sys2Proof/Machine/EngOps.lean ====
section
/-! DEFINITION. Machine/EngOps.lean: streams and their maps, the cores of an engine, clean work and resets of a core, Harbour
orders, unbinding, engine reset and engine fault (R45, R202, R301, R364, R366–R372, R386, R387). -/

namespace Sys2Proof.Machine

open Sys2Proof

/-! ### Streams -/

/-- Numbers of the open streams that `p` names, ascending. -/
def streamsWhere (s : State) (p : Stream → Bool) : List Nat :=
  s.streams.filterMap (fun e => if (e.2.map p).getD false then some e.1 else none)

/-- The streams that name an engine as IN_ENG or OUT_ENG (R367). -/
def namingStreams (s : State) (e : Nat) : List Nat := streamsWhere s (fun x => x.inEng = e || x.outEng = e)

/-- The streams that belong to an engine. -/
def ownStreams (s : State) (e : Nat) : List Nat := streamsWhere s (fun x => x.engine.val = e)

/-- Stage regions of the image that an engine holds. -/
def stageOf (s : State) (e : Nat) : List Nat := ((getEngine s e).image.map (·.stage)).getD []

/-- The rows of region `n` in a stream's map (R368). -/
def mapRows (s : State) (x : Stream) (n : Nat) : BitVec 32 :=
  if x.map.isEmpty then (if (stageOf s x.inEng).contains n || (stageOf s x.outEng).contains n then 0xFFFFFFFF#32 else 0)
  else (x.map.filter (fun m => m.1 = n)).foldl
    (fun (w : BitVec 32) m => if m.2.2 then 0xFFFFFFFF#32 else w ||| (1#32 <<< m.2.1)) 0

/-- The stream's map holds one of the rows named per region. -/
def mapMeets (s : State) (x : Stream) (rows : Tbl (BitVec 32)) : Bool :=
  rows.any (fun e => decide (mapRows s x e.1 &&& e.2 ≠ 0))

/-- Every stream whose map holds one of those rows is changed by `f`. -/
def markStreams (rows : Tbl (BitVec 32)) (f : Stream → Stream) (s : State) : State :=
  forAll (streamsWhere s (fun x => mapMeets s x rows)) (fun n t => updStream t n f) s

/-- R200, R204, R212: the first completion after tide `n` of each stream of those rows carries REBASED. -/
def markRebased (rows : Tbl (BitVec 32)) (n : Word) (s : State) : State :=
  markStreams rows (fun x => { x with rebased := some (if n = noTide then n else x.rebased.getD n) }) s

/-- R304, R325: their next completion carries CONTEXT_HOLE. -/
def markHole (rows : Tbl (BitVec 32)) (s : State) : State := markStreams rows (fun x => { x with hole := true }) s

/-- Samples per second of a rate code (R236). -/
def rateHz (code : Nat) : Nat :=
  match code with
  | 0 => 8000
  | 1 => 16000
  | 2 => 24000
  | _ => 48000

/-- Samples per tide at a rate, for a PERIOD code (R185). -/
def tideSamples (rate : Nat) (period : BitVec 3) : Nat := rateHz rate / 400 * 2 ^ period.toNat

/-- Fields of the audio parameter record (R236). -/
def audioField (x : Stream) (off n : Nat) : Nat := field x.audio off n
def inSamples (x : Stream) (p : BitVec 3) : Nat := tideSamples (audioField x 0 1) p
def outSamples (x : Stream) (p : BitVec 3) : Nat := tideSamples (audioField x 0x14 1) p
def inBytes (x : Stream) (p : BitVec 3) : Nat := inSamples x p * (2 + audioField x 1 1)
def outBytes (x : Stream) (p : BitVec 3) : Nat := outSamples x p * (2 + audioField x 0x15 1)

/-- The SHORE record of an endpoint in an engine's image. -/
def shoreOf (s : State) (e ep : Nat) (egress : Bool) : Option ShoreRec :=
  match (getEngine s e).image with
  | some im => im.shores.find? (fun r => r.egress = egress && r.endpoint = ep)
  | none => none

/-- The Condition and Deliver bridges of a stream (R219). -/
def condBridge (s : State) (x : Stream) : Option Nat := (shoreOf s x.inEng (audioField x 0x18 2) false).map (·.bridge)
def dlvBridge (s : State) (x : Stream) : Option Nat := (shoreOf s x.outEng (audioField x 0x1C 2) true).map (·.bridge)

def bridgeDown (s : State) (b : Nat) : Bool := decide ((getBridge s b).shiState = 5) || decide (2 ≤ eff s (uBridge b))

/-- The function is enabled on a host port (R351). -/
def fnEnabled (s : State) (h f : Nat) : Bool := decide (f = 0) || ((getHport s h).vfEn && decide (f ≤ (getHport s h).vfs.toNat))

/-- R351: the other port can take the function over. -/
def standbyReady (s : State) (f : Nat) : Bool :=
  let h := if (getFn s f).port then 0 else 1
  let b := hostBridge (decide (h = 1))
  decide ((getBridge s b).shiState = 4) && usable s (uBridge b) && (getHport s h).l0 && fnEnabled s h f

/-- STANDBY_OK of every function follows; its fall raises STANDBY_LOST (R345, R351). -/
def settleStandby (s : State) : State :=
  forAll (List.range 32) (fun f t =>
    let now := standbyReady t f
    let was := (getFn t f).standbyOk
    let t1 := if now = was then t else updFn t f (fun g => { g with standbyOk := now })
    if was && !now then
      let h := if (getFn t f).port then 0 else 1
      logAt (uHost h) (mkRec 0x0B03 1 (uHost h) (some f) noTide [(1, h)]) (setEvent f 2 t1)
    else t1) s

/-- R371, R372: a frame's completion. -/
def completeFrame (e n : Nat) (f : Frame) (code : Nat) (tide : Word) (bytes us : Nat) (s : State) : State :=
  bump (uEngine e) eFrames (queueCpl
    { ticket := f.ticket, status := code, unit := e, stream := BitVec.ofNat 16 n, tide := tide,
      result := leBytes 4 bytes ++ leBytes 4 us } s)

/-- Every frame of a stream, queued or taken, completes with a code and no output (R386, R387). -/
def dropFrames (n code : Nat) (s : State) : State :=
  match getStream s n with
  | none => s
  | some x =>
    forAll (x.taken.toList.map (fun f => (f, x.tide)) ++ x.queue.map (fun f => (f, noTide)))
      (fun f t => completeFrame x.engine.val n f.1 code f.2 0 0 t)
      (updStream s n (fun x => { x with queue := [], taken := none, frame := none, output := none, delivered := false }))

/-- An engine leaves STREAMING when no open stream names it (R367). -/
def settleStreaming (e : Nat) (s : State) : State :=
  let g := getEngine s e
  if g.state = 3 ∧ (namingStreams s e).isEmpty then updEngine s e (fun g => { g with state := 2 }) else s

/-- A stream is closed: the close that waited completes, and the engines that it named may leave STREAMING. -/
def closeStream (n code : Nat) (s : State) : State :=
  match getStream s n with
  | none => s
  | some x =>
    let s1 := settleStreaming x.outEng (settleStreaming x.inEng (setStream s n none))
    match x.closing.bind (jobAt (getEngine s1 x.engine.val)) with
    | some j => finishJob x.engine.val j code (leBytes 4 x.tide.toNat) (BitVec.ofNat 16 n) noTide s1
    | none => s1

/-! ### The cores of an engine -/

/-- Keys of the cores bound to an engine. -/
def coresOf (s : State) (e : Nat) : List Nat :=
  s.cores.filterMap (fun c => if (c.2.engine.map (·.val)) = some e then some c.1 else none)

/-- Keys of the cores of region `n` bound to an engine. -/
def regionCoresOf (s : State) (n e : Nat) : List Nat := (coresOf s e).filter (fun k => keyRegion k = n)

/-- The banks that `p` names are zero. -/
def zeroBanks (p : Nat → Bool) (k : Core) : Core := { k with spad := tkeep (fun a => !p (a / 0x4000)) k.spad }

/-- Registers, accumulators and loops of R45 at every reset: 0 and inactive. -/
def clearRegs (k : Core) : Core :=
  { k with sreg := [], areg := [], vreg := [], preg := [], tile := [], loop0 := none, loop1 := none }

/-- R202: the clean work on one core: it stops, its waits are abandoned, its queues are flushed and its working banks are
zero; its landing slots are disarmed at its start (R70). [DEDUCED: log 31] -/
def cleanWork (k : Core) : Core :=
  zeroBanks (fun b => bankKind k b = 0)
    { k with run := .stopped, syncOps := [], queues := [], ingest := none, landing := [], cleanNext := true }

/-- R88: every message in a core's inbound queues is discarded and counted. -/
def flushQueues (key : Nat) (s : State) : State :=
  updCore (forAll (getCore s key).queues (fun e t => bumpBy (uCore key) (cQDrop e.1) e.2.length t) s) key
    (fun k => { k with queues := [] })

/-- R70: a landing that a clean start or a reset ends is counted. -/
def countIngest (key : Nat) (s : State) : State :=
  if (getCore s key).ingest.isSome then bump (uCore key) cBlkDrop (updCore s key (fun k => { k with ingest := none })) else s

/-- R202 on one core, its messages and its landing counted. -/
def cleanCore (key : Nat) (s : State) : State := updCore (countIngest key (flushQueues key s)) key cleanWork

/-- Core reset (R45): stopped and cleared, memory kept. Sync operations in flight are abandoned (R148). [DEDUCED: log 31] -/
def coreReset (k : Core) : Core :=
  { clearRegs k with
    run := .stopped
    queues := []
    landing := []
    ingest := none
    lostOps := k.lostOps ++ k.syncOps.map (·.obj)
    syncOps := []
    cleanNext := true }

/-- Function-level reset of a core (R45, R348, R83): every slot returns to its reset value. -/
def flrCore (keep : Bool) (k : Core) : Core :=
  let r := { coreReset k with slots := [], mirrorGot := none }
  if keep then zeroBanks (fun b => bankKind k b = 0) r
  else
    { r with
      istore := []
      spad := []
      mirrorTide := 0
      mirrorValid := false
      sel := false
      tlast := noTide
      part := 0
      psBase := 0
      psSize := 0
      mirrorEn := false
      staticQ := 0 }

/-- A core bound to no engine. -/
def unbindCore (k : Core) : Core := { k with engine := none, tended := false, fencedTide := false, run := .stopped }

/-! ### Harbour orders (R301) -/

/-- The Harbour targets in the channel table of a bound image. -/
def harbourTargets (s : State) (e : Nat) : List Nat :=
  (((getEngine s e).image.map (·.chans)).getD []).foldl (fun ts c =>
    let t := c.dst.toNat % 2 ^ 18
    if c.kind = 2 ∧ t < 0x3FC00 ∧ !ts.contains t then ts ++ [t] else ts) []

/-- A tide order to every Harbour target of an engine. -/
def sendOrders (commit : Bool) (e : Nat) (tide : Word) (rows : List (Nat × Nat)) (s : State) : State :=
  forAll (harbourTargets s e) (fun t u =>
    sendCtl (.order commit e t tide rows)
      (updEngine u e (fun g => { g with orders := g.orders ++ [{ target := t, tide := tide, sentUs := nowUs s }] }))) s

/-- Rows named by a mask per region, as a list of (region, row). -/
def rowList (rows : Tbl (BitVec 32)) : List (Nat × Nat) :=
  rows.flatMap (fun e => ((List.range 32).filter (fun r => e.2.getLsbD r)).map (fun r => (e.1, r)))

/-- Rows as a table of masks. -/
def rowTable (rows : List (Nat × Nat)) : Tbl (BitVec 32) :=
  rows.foldl (fun t r => tupd 0 t r.1 (fun w => w ||| (1#32 <<< r.2))) []

/-! ### Unbinding, reset and fault -/

def getHarbour (s : State) (q : Nat) : Harbour := tget Harbour.init s.harbours q
def updHarbour (s : State) (q : Nat) (f : Harbour → Harbour) : State :=
  { s with harbours := tset Harbour.init s.harbours q (f (getHarbour s q)) }

/-- HB_RGN_ENG entries of regions, in every Harbour (R300). -/
def setRgnEng (regions : List Nat) (v : Option (Fin 8)) (s : State) : State :=
  forAll (List.range 4) (fun q t => updHarbour t q (fun h =>
    { h with rgnEng := regions.foldl (fun m n => tset none m n v) h.rgnEng })) s

/-- RGN_RELOC entries of an engine's stages cleared (R430): those that lead to one of these regions. -/
def clearReloc (regions : List Nat) (s : State) : State :=
  { s with reloc := s.reloc.filter (fun e => !((e.2.map regions.contains).getD false)) }

/-- The image of an engine is unbound: its regions and cores are free, its pins and HB_RGN_ENG entries are cleared (R364). -/
def unbindImage (e : Nat) (s : State) : State :=
  match (getEngine s e).image with
  | none => updEngine s e (fun g => { g with state := 0 })
  | some im =>
    let s1 := forAll (coresOf s e) (fun k t => updCore t k unbindCore) s
    let s2 := forAll (im.stage ++ im.reserve) (fun n t => updRegion t n (fun r =>
      { r with engine := none, held := false, heldBy := none, rebuilding := 0, rebuilt := 0, tdoneSent := false, cmdSeen := false })) s1
    let s3 : State :=
      { s2 with
        lh := { s2.lh with
                starved := s2.lh.starved.filter (fun x => !im.stage.contains x.1) } }
    updEngine (setRgnEng (im.stage ++ im.reserve) none (clearReloc (im.stage ++ im.reserve) s3)) e (fun g =>
      { g with
        image := none
        state := 0
        faultStatus := 0
        pins := []
        auditRun := none
        unbinding := false
        tide := {}
        ckpt := none
        commits := 0
        ckptSlot := 0
        ckptSeq := 0
        ckptAsked := false
        reloc := none
        relocQueue := []
        triedReserves := []
        orders := [] })

/-- The jobs of an engine that satisfy `p` complete with a code, in order; a list completes as a whole. -/
def endJobs (e code : Nat) (p : Job → Bool) (s : State) : State :=
  let g := getEngine s e
  forAll (g.jobs.filter p) (fun x t =>
      queueCpl { ticket := x.ticket, status := code, unit := e, result := (x.lst.map listResult).getD [] } t)
    (updEngine s e (fun g => { g with jobs := g.jobs.filter (fun x => !p x) }))

/-- RTR_MCAST of a group cleared in every router (R177). -/
def clearGroup (g : Nat) (s : State) : State :=
  forAll (s.routers.map (·.1)) (fun k t => updRouter t k (fun r => { r with mcast := tset 0 r.mcast g 0 })) s

/-- A load of the engine's image is abandoned: its held regions are released (R180, R386). -/
def dropLoad (e : Nat) (s : State) : State :=
  match s.load with
  | none => s
  | some l =>
    if l.eng ≠ e ∧ e ≠ 12 then s
    else
      { updEngine (forAll (l.image.stage ++ l.image.reserve) (fun n t => updRegion t n (fun r =>
          { r with held := false, heldBy := none })) (clearGroup l.group s)) l.eng (fun g => { g with state := 0 }) with
        load := none
        ctl := s.ctl.filter (fun c => match c with
          | .program .. => false
          | _ => true) }

/-- Pins whose WEIGHT_PIN has ended before their blocks came are given up. -/
def dropPins (ts : List Ticket) (s : State) : State :=
  forAll (List.range 8) (fun k t => updEngine t k (fun g =>
    { g with pins := g.pins.filter (fun p => p.pinned || !(p.job.any (fun x => ts.contains x.1))) })) s

/-- R386: an engine reset. `flr` holds RESIDENT_KEEP when the reset is a function-level reset. The jobs that it abandons
complete FUNCTION_RESET, but for the ENG_RESET that caused it, which completes when the reset ends. [DEDUCED: log 83] -/
def resetEngine (e : Nat) (flr : Option Bool) (cause : Option Ticket) (s : State) : State :=
  let g := getEngine s e
  let s1 := forAll (namingStreams s e) (fun n t => closeStream n stReset (dropFrames n stReset t)) s
  let s2 := dropPins (g.jobs.map (·.ticket)) (endJobs e stReset (fun x => x.started && some x.ticket ≠ cause) (dropLoad e s1))
  let s3 := if g.image.isSome then sendOrders false e g.tide.num [] s2 else s2
  let s4 := forAll (coresOf s3 e) (fun k t => match flr with
    | some keep => updCore (countIngest k t) k (flrCore keep)
    | none => cleanCore k t) s3
  let s5 := match flr with
    | some _ => s4
    | none => forAll (stageOf s4 e) (fun n t => cleanHome n e t) s4
  updEngine (unbindImage e s5) e (fun g =>
    { g with
      params := {}
      pend := none
      auditPeriod := 60
      auditEn := true
      xfers := []
      orders := [] })

/-- R387: an engine enters FAULTED with a status. -/
def faultEngine (e code : Nat) (s : State) : State :=
  let s1 := updEngine s e (fun g =>
    { g with
      state := 4
      faultStatus := BitVec.ofNat 16 code
      reloc := none
      relocQueue := []
      tide := { g.tide with active := false } })
  let s2 := forAll (coresOf s1 e) cleanCore s1
  let s3 := forAll (stageOf s2 e) (fun n t => cleanHome n e t) s2
  let s4 := forAll (namingStreams s3 e) (fun n t => dropFrames n code t) s3
  let own := (getEngine s4 e).owner.toNat
  logAt (uHost (if (getFn s4 own).port then 1 else 0))
    (mkRec 0x0C01 2 (uHost (if (getFn s4 own).port then 1 else 0)) (some own) (getEngine s e).tide.num [(1, e), (1, 0), (2, code)])
    (setEvent own 4 s4)

end Sys2Proof.Machine
end

