-- ==== Sys2Proof/Machine/Audio.lean ====
section
/-! DEFINITION. Machine/Audio.lean: the audio arithmetic of Condition and Deliver: coefficients, resampler, features, overlap-add
and dither (R238–R240, R250, R251). Coefficients are real numbers of the spec, computed here in fixed point with 96 fraction
bits and rounded to FP32 (log 16); sums whose order the spec leaves open are associated by `Config.sumSplit` (log 11). -/

namespace Sys2Proof.Machine

open Sys2Proof

/-! ### Fixed-point functions, 96 fraction bits -/

def fxOne : Int := 2 ^ 96
def fxPi : Int := 248902613312231085230521944622
def fxLn2 : Int := 54916777467707473351141471128

/-- A fixed-point value as a floating-point value. -/
def fxVal (v : Int) : FV := .fin (decide (v < 0)) v.natAbs (-96)

/-- The FP32 number nearest to a fixed-point value. [DEDUCED: log 16] -/
def fxTo32 (v : Int) : Word := to32 (fxVal v)

/-- The tail of the alternating series of sine or cosine from a term on; `k` is the index of the term. -/
def trigSeries (x2 : Int) : Nat → Nat → Int → Int
  | 0, _, _ => 0
  | n + 1, k, t => t + trigSeries x2 n (k + 2) (-(t * x2 / fxOne / ((k + 1) * (k + 2) : Nat)))

/-- sin(π a / b). -/
def fxSinPi (a b : Nat) : Int :=
  let x := fxPi * (a % (2 * b) : Nat) / b - (if b ≤ a % (2 * b) then fxPi else 0)
  let v := trigSeries (x * x / fxOne) 40 1 x
  if b ≤ a % (2 * b) then -v else v

/-- cos(π a / b). -/
def fxCosPi (a b : Nat) : Int := fxSinPi (2 * a + b) (2 * b)

/-- Σ q^k / (k!)² from a term on: the modified Bessel function I0 of x, with q = x² / 4. -/
def besselSeries (q : Int) : Nat → Nat → Int → Int
  | 0, _, _ => 0
  | n + 1, k, t => t + besselSeries q n (k + 1) (t * q / fxOne / ((k + 1) * (k + 1) : Nat))

/-- I0(8.6 · sqrt(1 − (t / w)²)). [PRESUMED: log 186] -/
def fxKaiser (t w : Nat) : Int :=
  besselSeries (fxOne * (86 * 86 * (w * w - t * t) : Nat) / (400 * (w * w) : Nat)) 60 0 fxOne

/-- log2 of a fixed-point value above 0. -/
def fxLog2 (v : Int) : Int :=
  match log2Fin v.natAbs (-96) with
  | .fin neg m _ => signed neg (m * 2 ^ 16)
  | _ => 0

/-- 2 to a fixed-point value, from 0 up. -/
def fxExp2 (v : Int) : Int :=
  let n := (v / fxOne).toNat
  let f := ((v % fxOne) / 2 ^ 32).toNat
  (exp2Frac f 64 (isqrt (2 * 2 ^ 192)) (2 ^ 96) : Nat) * 2 ^ n

/-- ln of an FP32 value above 0, to the nearest FP32 value. -/
def ln32 (x : Word) : Word :=
  match f32 x with
  | .fin _ m e =>
    (match log2Fin m e with
      | .fin neg l _ => to32 (.fin neg (l * fxLn2.natAbs) (-176))
      | v => to32 v)
  | v => to32 v

/-! ### Sums of an open order -/

/-- A sum of FP32 terms in the implementation's association. [DESIGN CHOICE: log 11] -/
def sumOpen : Nat → List Word → Word
  | 0, _ => 0
  | _, [] => 0
  | _, [x] => x
  | n + 1, xs =>
    let k := 1 + Config.sumSplit xs.length % (xs.length - 1)
    fadd32 (sumOpen n (xs.take k)) (sumOpen n (xs.drop k))

def sum32 (xs : List Word) : Word := sumOpen xs.length xs

/-! ### Resampler (R240) -/

/-- The taps of one output sample at tick `t` (ticks of the common rate): input index relative to the tide start, and
unnormalised coefficient. `l` ticks lie between inputs; `p` is a period of the lower rate. -/
def tapsAt (l p : Nat) (t : Int) : List (Int × Int) :=
  let first := -((32 * (p : Int) - t) / l)
  let n := 32 * p / l + 2
  ((List.range n).map (fun (i : Nat) => first + (i : Int))).filterMap (fun j =>
    let d := t - 16 * (p : Int) - j * l
    if -(16 * (p : Int)) ≤ d ∧ d ≤ 16 * (p : Int) then
      let a := d.natAbs
      let sinc := if a = 0 then fxOne else fxSinPi (92 * a) (100 * p) * fxOne / (fxPi * (92 * a : Nat) / (100 * p : Nat))
      some (j, sinc * fxKaiser a (16 * p) / fxOne)
    else none)

/-- One output sample: FP32 products and sums of the normalised taps. -/
def resampleAt (l p : Nat) (hist xs : List Word) (t : Int) : Word :=
  let taps := tapsAt l p t
  let total := (taps.map (·.2)).sum
  let buf := hist ++ xs
  sum32 (taps.map (fun c =>
    let i := (hist.length : Int) + c.1
    let v := if i < 0 then 0 else buf.getD i.toNat 0
    fmul32 v (fxTo32 (c.2 * fxOne / total))))

/-- The samples of a tide resampled from one rate to another, with the history before them. -/
def resample (fin fout : Nat) (hist xs : List Word) : List Word :=
  if fin = fout then xs
  else
    let g := Nat.gcd fin fout
    let l := fout / g
    let m := fin / g
    (List.range (xs.length * l / m)).map (fun n => resampleAt l (max l m) hist xs (n * m : Nat))

/-- The history that the next tide needs: 32 periods of the lower rate. -/
def keepHist (fin fout : Nat) (hist xs : List Word) : List Word :=
  let g := Nat.gcd fin fout
  let n := 32 * max (fout / g) (fin / g) / (fout / g) + 1
  let all := hist ++ xs
  all.drop (all.length - n)

/-! ### Condition (R238, R239) -/

/-- R238 step 1: a PCM sample of `w` bytes, little-endian, as FP32. -/
def pcmIn (w : Nat) (bs : List Byte) : Word :=
  let v := (BitVec.ofNat (8 * w) (ofBytes bs)).toInt
  to32 (.fin (decide (v < 0)) v.natAbs (-(8 * w - 1 : Nat)))

/-- The samples of a byte string, `w` bytes each. -/
def pcmSamples (w : Nat) : Nat → List Byte → List Word
  | 0, _ => []
  | n + 1, bs => pcmIn w (bs.take w) :: pcmSamples w n (bs.drop w)

/-- R238 step 3: pre-emphasis with α = PREEMPH / 32,768. -/
def preemph (alpha : Nat) (last : Word) : List Word → List Word
  | [] => []
  | x :: xs =>
    (if alpha = 0 then x else fsub32 x (fmul32 (to32 (.fin false alpha (-15))) last)) :: preemph alpha x xs

/-- R238 step 5: the window, the DFT and the power spectrum of one frame of W samples, zero-padded to N. -/
def powerSpectrum (xs : List Word) (n : Nat) : List Word :=
  let w := xs.length
  let ys := (List.range w).map (fun i =>
    fmul32 (xs.getD i 0) (fxTo32 ((fxOne - fxCosPi (2 * i) w) / 2)))
  (List.range (n / 2 + 1)).map (fun k =>
    let re := sum32 ((List.range w).map (fun i => fmul32 (ys.getD i 0) (fxTo32 (fxCosPi (2 * i * k) n))))
    let im := sum32 ((List.range w).map (fun i => fmul32 (ys.getD i 0) (fxTo32 (-(fxSinPi (2 * i * k) n)))))
    fadd32 (fmul32 re re) (fmul32 im im))

/-- R239: the mel points in Hz, fixed point. -/
def melPoint (fmin fmax b i : Nat) : Int :=
  let l0 := fxLog2 (fxOne + fxOne * fmin / 700)
  let l1 := fxLog2 (fxOne + fxOne * fmax / 700)
  700 * (fxExp2 (l0 + (l1 - l0) * i / (b + 1 : Nat)) - fxOne)

/-- R239: the weight of triangle `b` at a frequency, linear in frequency between its points (log 16). [DEDUCED: log 16] -/
def melWeight (lo mid hi f : Int) : Int :=
  if lo < f ∧ f ≤ mid then (f - lo) * fxOne / (mid - lo)
  else if mid < f ∧ f < hi then (hi - f) * fxOne / (hi - mid) else 0

/-- One bin of a feature frame, as BF16. -/
def melBin (rate n fmin fmax bins b : Nat) (ps : List Word) : Nat :=
  let lo := melPoint fmin fmax bins b
  let mid := melPoint fmin fmax bins (b + 1)
  let hi := melPoint fmin fmax bins (b + 2)
  let e := sum32 ((List.range ps.length).filterMap (fun k =>
    let w := melWeight lo mid hi (fxOne * (k * rate : Nat) / n)
    if w = 0 then none else some (fmul32 (fxTo32 w) (ps.getD k 0))))
  cvtTo .bf16 false (f32 (ln32 (fmax32 e (to32 (.fin false 1 (-24))))))

/-- The smallest power of two at least `w`. -/
def dftSize (w : Nat) : Nat := 2 ^ Nat.log2 (2 * w - 1)

/-- The feature frames of a tide: each takes the last W samples at its hop. -/
def features (x : Stream) (prev ys : List Word) (frames hop : Nat) : List Byte :=
  let rate := rateHz (audioField x 2 1)
  let ms := match audioField x 7 1 with
    | 0 => 20
    | 1 => 25
    | _ => 32
  let w := rate * ms / 1000
  let bins := if audioField x 8 1 = 0 then 80 else 128
  let all := List.replicate (w - prev.length) 0 ++ prev ++ ys
  let base := all.length - ys.length
  (List.range frames).flatMap (fun f =>
    let upto := base + (f + 1) * hop
    let ps := powerSpectrum ((all.take upto).drop (upto - w)) (dftSize w)
    (List.range bins).flatMap (fun b => leBytes 2
      (melBin rate (dftSize w) (audioField x 10 2) (audioField x 12 2) bins b ps)))

/-- R238: Condition on the samples of one tide. The history advances over zero samples when there is no input (R242). -/
def condition (x : Stream) (p : BitVec 3) (input : Option (List Byte)) : Stream :=
  let fin := rateHz (audioField x 0 1)
  let fc := rateHz (audioField x 2 1)
  let n := inSamples x p
  let xs := match input with
    | some bs => pcmSamples (2 + audioField x 1 1) n bs
    | none => List.replicate n 0
  let rs := resample fin fc x.histIn xs
  let ys := preemph (audioField x 4 2) x.lastX rs
  let hop := fc / 400 * 2 ^ audioField x 6 1
  let data := if audioField x 3 1 = 0 then ys.flatMap (fun v => leBytes 2 (cvtTo .fp16 false (f32 v)))
    else features x x.window ys (ys.length / hop) hop
  { x with
    cond := if input.isSome then data else List.replicate data.length 0
    noInput := input.isNone
    condPart := 0
    lastX := (rs.getLast?).getD x.lastX
    histIn := if fin = fc then [] else keepHist fin fc x.histIn xs
    window := if audioField x 3 1 = 0 then [] else (x.window ++ ys).drop ((x.window ++ ys).length - 1536) }

/-! ### Deliver (R250, R251) -/

/-- H: samples at SRC_RATE in one tide; V: the overlap. -/
def srcSamples (x : Stream) (p : BitVec 3) : Nat := tideSamples (audioField x 0x10 1) p
def overlap (x : Stream) : Nat := audioField x 0x12 2

/-- win(i) = sin²(π (i + 0.5) / 2V) and wout(i) = 1 − win(i). -/
def winAt (v i : Nat) : Word := let s := fxSinPi (2 * i + 1) (4 * v); fxTo32 (s * s / fxOne)
def woutAt (v i : Nat) : Word := fsub32 0x3F800000#32 (winAt v i)

/-- R250: overlap-add of a frame of H + V samples, or of none. -/
def overlapAdd (h v : Nat) (tail : List Word) (frame : Option (List Word)) : List Word × List Word :=
  let x (i : Nat) : Word := ((frame.map (fun f => f.getD i 0))).getD 0
  ((List.range h).map (fun i =>
      if i < v then
        (let t := fmul32 (tail.getD i 0) (woutAt v i)
         if frame.isSome then fadd32 t (fmul32 (x i) (winAt v i)) else t)
      else x i),
   (List.range v).map (fun i => x (h + i)))

/-- R251: one step of the xorshift generator. [PRESUMED: log 186] -/
def xorshift (z : Word) : Word :=
  let a := z ^^^ (z <<< 13)
  let b := a ^^^ (a >>> 17)
  b ^^^ (b <<< 5)

/-- R250: a sample quantised to `b` bits with dither (u1 − u2) / 2^32. [DESIGN CHOICE: log 17] -/
def quantise (b : Nat) (s : Word) (u1 u2 : Word) : Int :=
  match f32 s with
  | .nan _ => (BitVec.ofNat b (Config.nanPcm b)).toInt
  | .inf neg => if neg then -(2 ^ (b - 1)) else 2 ^ (b - 1) - 1
  | .fin neg m e =>
    let v : FV := fvAdd (.fin neg m (e + (b - 1 : Nat)))
      (let d := (u1.toNat : Int) - u2.toNat
       .fin (decide (d < 0)) d.natAbs (-32))
    fvToInt b v

/-- The PCM bytes of samples, with the dither state after them. -/
def pcmOut (w : Nat) (dither : Bool) : Word → List Word → List Byte × Word
  | z, [] => ([], z)
  | z, s :: ss =>
    let u1 := if dither then xorshift z else 0
    let u2 := if dither then xorshift u1 else 0
    let r := pcmOut w dither (if dither then u2 else z) ss
    (leBytes w (BitVec.ofInt (8 * w) (quantise (8 * w) s u1 u2)).toNat ++ r.1, r.2)

/-- Samples that the wafer sent, as FP32: FP16 (SRC_FMT 0) or FP32. -/
def srcWords (fmt : Nat) : Nat → List Byte → List Word
  | 0, _ => []
  | n + 1, bs =>
    let w := if fmt = 0 then 2 else 4
    let v := ofBytes (bs.take w)
    (if fmt = 0 then BitVec.ofNat 32 (convert .fp16 .fp32 false v) else BitVec.ofNat 32 v) :: srcWords fmt n (bs.drop w)

/-- R250, R251: Deliver on one stream: its frame's samples, or none for a concealment frame. [DEDUCED: log 189] -/
def deliver (x : Stream) (p : BitVec 3) (frame : Option (List Word)) : Stream :=
  let h := srcSamples x p
  let oa := overlapAdd h (overlap x) x.tail frame
  let fs := rateHz (audioField x 0x10 1)
  let fo := rateHz (audioField x 0x14 1)
  let out := resample fs fo x.histOut oa.1
  let r := pcmOut (2 + audioField x 0x15 1) (audioField x 0x16 1 = 1) x.dither out
  { x with
    tail := oa.2
    histOut := if fs = fo then [] else keepHist fs fo x.histOut oa.1
    dither := r.2
    output := some r.1
    delivered := true }

end Sys2Proof.Machine
end

