-- ==== Sys2Proof/Machine/Frames.lean ====
section
/-! DEFINITION. Machine/Frames.lean: what a tide does to its streams: withheld rows, policies, Collect, Deliver and the frame's
completion (R99, R195, R199, R249–R252, R371, R372, R390–R397). -/

namespace Sys2Proof.Machine

open Sys2Proof

/-- R356: the host-port bridge that holds the active instance of an engine, and Fetch and Complete of its function. -/
def fnBridge (s : State) (fn : Nat) : Nat := hostBridge (getFn s fn).port
def engineBridge (s : State) (e : Nat) : Nat := fnBridge s (getEngine s e).owner.toNat

/-! ### Rows of a tide -/

/-- The rows of an image that hold the destination core of a static channel whose source slot lies in one of those rows
(R195). -/
def destRows (im : Image) (src : Tbl (BitVec 32)) : Tbl (BitVec 32) :=
  rowTable ((im.chans.filter (fun c => decide (c.kind = 1)
      && (tget 0 src (c.src.toNat / 512)).getLsbD (c.src.toNat / 16 % 32))).map
    (fun c => (c.dst.toNat % 2 ^ 18 / 512, c.dst.toNat / 16 % 32)))

/-- The union of two tables of rows. -/
def rowUnion (a b : Tbl (BitVec 32)) : Tbl (BitVec 32) := b.foldl (fun t e => tupd 0 t e.1 (fun w => w ||| e.2)) a

/-- Streams of an engine that a taint report touches, with a policy (R390, R395). -/
def taintedStreams (s : State) (e : Nat) (policy : BitVec 2) : List Stream :=
  ((namingStreams s e).filterMap (getStream s)).filter
    (fun x => x.running && x.policy = policy && mapMeets s x (getEngine s e).tide.taintRows)

/-- R395 rule 1: a tainted stream has HALT. [DEDUCED: log 47] -/
def taintHalts (s : State) (e : Nat) : Bool := (getEngine s e).tide.halt || !(taintedStreams s e 2).isEmpty

/-- R395 rule 2: tainted rows to which a DROP_TIDE stream is mapped. -/
def taintRowsHeld (s : State) (e : Nat) : Tbl (BitVec 32) :=
  ((getEngine s e).tide.taintRows.map (fun r =>
    (r.1, r.2 &&& (taintedStreams s e 1).foldl (fun (w : BitVec 32) x => w ||| mapRows s x r.1) 0))).filter (fun r => r.2 ≠ 0)

/-- Rows withheld as ROWS_A rows: named by TDONE, or by policy (R195, R395). -/
def rowsHeldA (s : State) (e : Nat) : Tbl (BitVec 32) :=
  let t := (getEngine s e).tide
  rowUnion (t.rowsA.filterMap (fun r => r.2.bind (fun w => if w = 0 then none else some (r.1, w))))
    (if taintHalts s e then [] else taintRowsHeld s e)

/-- Rows withheld as ROWS_B rows or as their channels' destinations (R195). -/
def rowsHeldB (s : State) (e : Nat) : Tbl (BitVec 32) :=
  let g := getEngine s e
  rowUnion g.tide.rowsB (((g.image.map (fun im => destRows im g.tide.rowsB))).getD [])

/-- R99, R437: rows at either end of a static channel whose slot is BROKEN now. -/
def rowsBrokenNow (s : State) (e : Nat) : Tbl (BitVec 32) :=
  let im := ((getEngine s e).image).getD {}
  let bad := im.chans.filter (fun c => (getSlot (getCore s (carrier s c.src.toNat)) c.slot).broken)
  rowTable (bad.flatMap (fun c => (c.src.toNat / 512, c.src.toNat / 16 % 32)
    :: (if c.kind = 1 then [(c.dst.toNat % 2 ^ 18 / 512, c.dst.toNat / 16 % 32)] else [])))

/-! ### Conditions of a frame completion (R372) -/

/-- The judgement of the stream's tide by one engine: late, or not; a tainted HALT stream makes it late (R395). -/
def judgedLate (s : State) (e : Nat) : Bool :=
  let t := (getEngine s e).tide
  t.judged.isSome && (t.judged = some false || t.forceLate || taintHalts s e)

def engPair (x : Stream) : List Nat := if x.inEng = x.outEng then [x.inEng] else [x.inEng, x.outEng]

/-- The stream lost this tide by a withheld row or a broken channel. -/
def streamHeldA (s : State) (x : Stream) : Bool := (engPair x).any (fun e => mapMeets s x (rowsHeldA s e))
def streamBroken (s : State) (x : Stream) : Bool :=
  (engPair x).any (fun e => mapMeets s x (rowsHeldB s e) || mapMeets s x (rowsBrokenNow s e))
    || (condBridge s x).any (bridgeDown s) || (dlvBridge s x).any (bridgeDown s)

def streamLate (s : State) (x : Stream) : Bool := (engPair x).any (judgedLate s) || streamHeldA s x || x.late

/-- R396, R397: a FLOW stream one of whose tainted rows commits, or whose own block failed. -/
def streamTainted (s : State) (x : Stream) : Bool :=
  x.tainted || (engPair x).any (fun e => mapMeets s x (getEngine s e).tide.taintRows)

/-- The conditions that hold for a stream's completion now. -/
def frameCodes (s : State) (x : Stream) : List Nat :=
  (if streamBroken s x then [stBroken] else []) ++ (if streamLate s x then [stLate] else [])
    ++ (if x.hole then [stHole] else [])
    ++ (if x.rebased.any (fun n => n ≠ x.tide ∨ n = noTide) then [stRebased] else [])
    ++ (if streamTainted s x then [stTainted] else [])

/-! ### Collect (R194, R249) -/

/-- The parts of a stream's frame in the staging half of a tide. -/
def stagedParts (s : State) (x : Stream) (n : Word) : List Staged :=
  match dlvBridge s x with
  | none => []
  | some b => (getBridge s b).staged.filter (fun g =>
      g.tide = n && g.endpoint = audioField x 0x1C 2 && g.sub = audioField x 0x1E 2)

/-- R249: all PARTS are present and their ELEMENTS total H + V; the data in PART order. -/
def wholeFrame (x : Stream) (p : BitVec 3) (ps : List Staged) : Option (List (List Byte)) :=
  match ps with
  | [] => none
  | g :: _ =>
    let at' (i : Nat) : Option Staged := ps.find? (fun q => q.part = i)
    let all := (List.range g.parts).filterMap at'
    if all.length = g.parts ∧ (all.map (·.elements)).sum = srcSamples x p + overlap x then some (all.map (·.data)) else none

/-- Collect for one stream at the deadline of OUT_ENG. -/
def collectStream (ontime : Bool) (n : Nat) (s : State) : State :=
  match getStream s n with
  | none => s
  | some x =>
    if !x.running then s
    else
      let b := (dlvBridge s x).getD 0
      let ps := stagedParts s x x.tide
      let s1 := updBridge s b (fun r => { r with staged := r.staged.filter (fun g => !ps.contains g) })
      if !ontime then updStream s1 n (fun x => { x with frame := none })
      else match wholeFrame x (getEngine s x.outEng).params.period ps with
        | some d => updStream s1 n (fun x => { x with frame := some d })
        | none => bump (uBridge b) 32 (updStream s1 n (fun x => { x with frame := none, late := true }))

/-! ### Deliver and completion (R250, R371) -/

/-- SCLK cycles that Deliver takes for a stream (R250). [DEDUCED: log 61] -/
def deliverCycles (s : State) (x : Stream) : Nat :=
  let p := (getEngine s x.outEng).params.period
  max ((srcSamples x p + overlap x + 3) / 4) ((outSamples x p + 3) / 4) + 64

/-- R371: whole µs from the tide start to the end of Deliver's work on the stream. [DEDUCED: log 61] -/
def deliverUs (s : State) (n : Nat) (x : Stream) : Nat :=
  let before := (streamsWhere s (fun y => y.running && y.outEng = x.outEng && dlvBridge s y = dlvBridge s x)).filter (· ≤ n)
  let cyc := (before.map (fun i => ((getStream s i).map (deliverCycles s)).getD 0)).sum
  ((getEngine s x.outEng).params.deadline.toNat * 25 + cyc) * 10 / 6144

/-- The tide of a stream has been judged by both its engines. -/
def bothJudged (s : State) (x : Stream) : Bool := (engPair x).all (fun e => (getEngine s e).tide.judged.isSome && decide ((getEngine s e).tide.num = x.tide))

/-- R199, R250, R252, R397: Deliver on one stream: its frame when the tide's output stands, else the concealment frame; zero
samples when its bridge is down. [DEDUCED: log 189] -/
def deliverStream (n : Nat) (s : State) : State :=
  match getStream s n with
  | none => s
  | some x =>
    if !x.running ∨ x.delivered ∨ !bothJudged s x then s
    else
      let p := (getEngine s x.outEng).params.period
      let b := (dlvBridge s x).getD 0
      if bridgeDown s b then
        updStream s n (fun x => { x with output := some (List.replicate (outBytes x p) 0), delivered := true })
      else
        let data := if streamLate s x || streamBroken s x then none
          else x.frame.map (fun d => srcWords (audioField x 0x11 1) (srcSamples x p + overlap x) d.flatten)
        bump (uBridge b) 30 ((if data.isNone then bump (uBridge b) 31 else id)
          (setStream s n (some (deliver x p data))))

/-- The output frame has to be relayed to the Complete bridge (R220). -/
def outRelayDue (s : State) (x : Stream) : Bool :=
  (dlvBridge s x).any (fun b => decide (b ≠ fnBridge s x.fn) && !bridgeDown s b)

/-- The taken frame completes: its output, then its completion (R371, R372). -/
def writeFrame (n : Nat) (s : State) : State :=
  match getStream s n with
  | none => s
  | some x =>
    match x.taken with
    | none => updStream s n (fun x => { x with output := none })
    | some f =>
      let codes := frameCodes s x
      let code := pickStatus codes
      let out := x.output.getD []
      let s1 := { s with hmem := writeBytes s.hmem f.outAddr.toNat out }
      let s2 := completeFrame x.engine.val n f code x.tide out.length (deliverUs s n x) s1
      (if code = stTainted then bump (uEngine x.engine.val) eTainted else id)
        (updStream s2 n (fun x =>
          { x with
            taken := none
            output := none
            hole := false
            rebased := if codes.contains stRebased then none else x.rebased }))

/-- FRAME_COMPLETE (R371): after Deliver, and after the relay where there is one. -/
def completeStream (n : Nat) (s : State) : State :=
  match getStream s n with
  | none => s
  | some x =>
    if !x.delivered ∨ x.taken.isNone ∨ (outRelayDue s x ∧ x.output.isSome ∧ !x.relayOut) then s
    else writeFrame n s

/-- What is left of a stream's tide when the next one starts: Deliver and the completion. -/
def settleFrame (n : Nat) (s : State) : State := writeFrame n (deliverStream n s)

end Sys2Proof.Machine
end

