-- ==== Sys2Proof/Machine/ShoreOps.lean ====
section
/-! DEFINITION. Machine/ShoreOps.lean: the module's clock, and what a bridge does with egress blocks and relays: the
tail-timeout FIFOs, the staging memory and the shore frame descriptor (R184, R213–R215, R220, R235, R242, R247, R248, R393). -/

namespace Sys2Proof.Machine

open Sys2Proof

/-! ### Time (R184, R214, R281) -/

/-- CCLK cycles of the timebase now. -/
def tcycle (s : State) : Nat := 50 * s.tid.toNat + s.phase

/-- R510: cycle `i` of a group of 16 is swallowed at level `l`: the 4-bit reversal of `i` is less than `l`. -/
def swallows (l i : Nat) : Bool := decide (i % 2 * 8 + i / 2 % 2 * 4 + i / 4 % 2 * 2 + i / 8 % 2 < l)

/-- Swallowed cycles of a group from cycle `a`, of `n` in a row within the group. [DEDUCED: log 131] -/
def swallowedIn (l a n : Nat) : Nat := ((List.range n).filter (fun i => swallows l (a + i))).length

/-- R509: the effective throttle level of a region. -/
def levelOf (r : Region) : Nat := max r.tl.toNat r.gl.toNat

/-- Cycles swallowed in a region in the `n` cycles from cycle `c`: the running group keeps its level, and the groups after it take
the level as it stands (R510). [DEDUCED: log 131] -/
def swallowedOf (r : Region) (c n : Nat) : Nat :=
  let first := min n ((16 - c % 16) % 16)
  let l := levelOf r
  swallowedIn r.lvl.toNat (c % 16) first + (n - first) / 16 * l + swallowedIn l 0 ((n - first) % 16)

/-- The level of the group that runs after `n` cycles from cycle `c`. -/
def nextLevel (r : Region) (c n : Nat) : BitVec 4 :=
  if (16 - c % 16) % 16 < n then BitVec.ofNat 4 (levelOf r) else r.lvl

/-- Transfer Engine moves and weight streaming: XFER = 1 (R261, R295). -/
def isXfer (p : Packet) : Bool := p.purpose = 2 || p.purpose = 7

/-- R260: the far bridge's receive buffer, flits by VC. -/
def xlDepth (vc : Nat) : Nat := [64, 256, 1024, 128].getD vc 0

/-- R260: the transmitter holds credits for all flits of the packet. Transfer traffic uses none (R262). -/
def xlCredit (tx : LinkTx) (p : Packet) : Bool :=
  isXfer p || decide (tget 0 tx.owed p.sb.vc.toNat + p.flits ≤ xlDepth p.sb.vc.toNat)

/-- R286: a packet is ready at a port and has no credit. -/
def xlStalled (s : State) (p : Nat) (q : Port) : Bool :=
  let tx := tget LinkTx.init q.tx 0
  decide (q.pstate = 5) && s.packets.any (fun k => decide (k.loc = .xl p) && !xlCredit tx k
    && !tx.retry.any (fun e => e.2.any (fun f => f.1 = k.serial)))

/-- What counts as cycles pass: running cores by their unswallowed cycles, waiting sync instructions, swallowed cycles, and HOLD and
ports without credit, by SCLK cycles (R152, R253, R286, R511, R523). [DESIGN CHOICE: log 3] -/
def passCycles (n : Nat) (s : State) : State :=
  let s1 := forAll s.cores (fun e t =>
    let m := n - swallowedOf (getRegion s (keyRegion e.1)) s.cclk n
    match e.2.run with
    | .running => bumpBy (uCore e.1) cCycRun m t
    | .waiting w => (if w = .sync then bumpBy (uCore e.1) cSyncWait n else id) (bumpBy (uCore e.1) cCycRun m t)
    | .stopped => t) s
  let s2 := forAll s1.bridges (fun e t =>
    if e.2.wmHold then bumpBy (uBridge e.1) 25 ((t.cclk + n) / 2 - t.cclk / 2) t else t) s1
  let s3 := forAll s2.bridges (fun e t =>
    if e.2.holdIn then bumpBy (uPort (e.1 / 2)) 7 ((t.cclk + n) / 2 - t.cclk / 2) t else t) s2
  let s5 := forAll s3.ports (fun e t =>
    if xlStalled s3 e.1 e.2 then bumpBy (uPort e.1) 6 ((t.cclk + n) / 2 - t.cclk / 2) t else t) s3
  let s4 := forAll s5.regions (fun e t =>
    bumpBy (uRegion e.1) rThrSwallowed (swallowedOf e.2 s.cclk n)
      (updRegion t e.1 (fun r => { r with lvl := nextLevel r s.cclk n }))) s5
  { s4 with cclk := s4.cclk + n }

/-- The next multiple of 61,440 above a time (the grid step that follows). -/
def nextGrid (t : Nat) : Nat := (t / 61440 + 1) * 61440

/-- The clock moved on to a cycle of the timebase; a slew that is pending lengthens or shortens the guard before the next
grid step (R214). Nothing when that cycle has passed; only time goes on while the clocks stand. -/
def clockTo (c : Nat) (s : State) : State :=
  if c ≤ tcycle s then s
  else if !clocksRun s then { s with cclk := s.cclk + (c - tcycle s) }
  else
    let crosses := decide (50 * nextGrid s.tid.toNat ≤ c)
    let d : Int := (c - tcycle s : Nat) + (if crosses then 50 * s.dom.slew else 0)
    let s1 := passCycles d.toNat s
    { s1 with
      tid := BitVec.ofNat 64 (c / 50)
      phase := c % 50
      dom := if crosses then { s1.dom with slew := 0 } else s1.dom }

/-- The next value of TID_TIME at an ACLK edge: held, advanced, or brought forward to its grid step by a slew (R214, R281).
[DEDUCED: log 132] -/
def nextTid (s : State) : DWord × Int :=
  let t := s.tid.toNat + 1
  if s.dom.slew = 0 then (BitVec.ofNat 64 t, 0)
  else if 0 < s.dom.slew then
    (if t % 61440 = 0 then (s.tid, s.dom.slew - 1) else (BitVec.ofNat 64 t, s.dom.slew))
  else if (t + s.dom.slew.natAbs) % 61440 = 0 then (BitVec.ofNat 64 (t + s.dom.slew.natAbs), 0)
  else (BitVec.ofNat 64 t, s.dom.slew)

/-- One CCLK cycle. [DESIGN CHOICE: log 1; DEDUCED: log 132] -/
def tick (s : State) : State :=
  let s1 := passCycles 1 s
  if !clocksRun s then { s with cclk := s.cclk + 1 }
  else if s1.phase + 1 < 50 then { s1 with phase := s1.phase + 1 }
  else
    let n := nextTid s1
    { s1 with
      phase := 0
      tid := n.1
      dom := { s1.dom with slew := n.2 } }

/-! ### Shore frame descriptor (R235) -/

/-- A block's payload: the descriptor, then the data, zero-filled to 2,048 B. -/
def frameBody (endpoint sub : Nat) (tide : Word) (format flags part parts elements bins : Nat) (data : List Byte) : List Byte :=
  padTo 2048 (padTo 64 (leBytes 2 endpoint ++ leBytes 2 sub ++ leBytes 4 tide.toNat ++ leBytes 1 format ++ leBytes 1 flags
    ++ leBytes 1 part ++ leBytes 1 parts ++ leBytes 2 data.length
    ++ leBytes 1 (if data.isEmpty then 0 else (data.length - 1) % 64 + 1) ++ [0] ++ leBytes 2 elements ++ leBytes 2 bins)
    ++ data)

/-- Data of a list cut into pieces of `n` bytes; one empty piece when there is none. -/
def pieces (n : Nat) : Nat → List Byte → List (List Byte)
  | 0, bs => [bs]
  | k + 1, bs => if bs.length ≤ n then [bs] else bs.take n :: pieces n k (bs.drop n)

/-- 64 B words of data that one ingress block carries: whole feature frames only, or 31 words of samples (R235). -/
def partWords (x : Stream) : Nat := if audioField x 3 1 = 0 then 31 else if audioField x 8 1 = 0 then 30 else 28

/-! ### Streams by their endpoint -/

/-- The open stream of an (endpoint, sub) pair of an engine's image on the egress side. -/
def egressStream (s : State) (e ep sub : Nat) : Option Nat :=
  (streamsWhere s (fun x => x.outEng = e && audioField x 0x1C 2 = ep && audioField x 0x1E 2 = sub)).head?

/-- The engine that the source core of a packet serves. -/
def sourceEngine (s : State) (p : Packet) : Option Nat := (getCore s (carrier s p.srcCore.toNat)).engine.map (·.val)

/-! ### Egress (R246–R248) -/

/-- The engine's tide that still takes egress data: active, not yet judged. -/
def egressTide (s : State) (e : Nat) : Option Word :=
  let t := (getEngine s e).tide
  if t.active && t.judged.isNone then some t.num else none

/-- A packet and what its bridge keeps of it leave the bridge. -/
def forgetMoved (b : Nat) (p : Packet) (s : State) : State :=
  removePacket p.serial (updBridge s b (fun r => { r with moved := tset 0 r.moved p.serial 0 }))

/-- R393: a bridge's taint report of a stream, to the stream's engine. -/
def reportTaint (b n point : Nat) (x : Stream) (tide : Word) (s : State) : State :=
  sendCtl (.ttaintStream x.engine.val b tide n point) s

/-- The staging half of a tide in a bridge. -/
def halfCount (r : Bridge) (tide : Word) : Nat := (r.staged.filter (fun g => g.tide = tide)).length

/-- R248, R393, R397: a block that lies whole in staging memory is verified and placed, or discarded and counted. -/
def placeEgress (b : Nat) (p : Packet) (s : State) : State :=
  let s0 := forgetMoved b p s
  match p.payload with
  | .block h body =>
    match sourceEngine s p with
    | none => bump (uBridge b) 33 s0
    | some e =>
      if egressTide s e ≠ some h.tide then bump (uBridge b) 33 s0
      else
        let ep := field body 0 2
        let sum := crc32c body
        let bad := decide (sum ≠ h.check)
        let s1 := if bad then bump (uBridge b) bEgrFail (logCheckFail (uBridge b) (uBridge b) none h sum 1 0 0 s0) else s0
        match egressStream s e ep (field body 2 2) with
        | none => bump (uBridge b) 34 s1
        | some n =>
          match getStream s n with
          | none => s1
          | some x =>
            if ep ≠ p.sb.dstCore.toNat - 0x3FC00 ∨ field body 8 1 ≠ audioField x 0x11 1 + 2 then bump (uBridge b) 34 s1
            else
              let s2 := if bad then reportTaint b n 1 x h.tide s1 else s1
              if bad ∧ x.policy ≠ 0 then s2
              else if 1024 ≤ halfCount (getBridge s b) h.tide then bump (uBridge b) 35 s2
              else updBridge s2 b (fun r =>
                { r with staged := r.staged ++ [
                    { tide := h.tide, endpoint := ep, sub := field body 2 2, part := field body 10 1, parts := field body 11 1,
                      elements := field body 0x10 2, data := (body.drop 64).take (field body 12 2), tainted := bad }] })
  | _ => s0

/-- The first egress block of a bridge whose 33 flits lie in staging memory. -/
def wholeEgress (s : State) (b : Nat) : Option Packet :=
  s.packets.find? (fun p => p.loc = .arrived b && decide (33 ≤ tget 0 (getBridge s b).moved p.serial))

/-- Every such block placed, `n` at most. -/
def placeAll (b : Nat) : Nat → State → State
  | 0, s => s
  | n + 1, s =>
    match wholeEgress s b with
    | none => s
    | some p => placeAll b n (placeEgress b p s)

/-- Flits moved from a tail-timeout FIFO into staging memory. [DEDUCED: log 58] -/
def moveTail (b g n : Nat) (s : State) : State :=
  updBridge s b (fun r =>
    let fs := tget [] r.tail g
    { r with
      tail := tset [] r.tail g (fs.drop n)
      moved := (fs.take n).foldl (fun t p => tupd 0 t p (fun m => m + 1)) r.moved
      tailSince := tset 0 r.tailSince g s.cclk })

/-- R247: the drain of the deadline cycle, on every bridge; what it completes is placed (R248). -/
def drainTails (s : State) : State :=
  forAll (List.range 32) (fun b t =>
    placeAll b 4096 (forAll (List.range 4) (fun g u => moveTail b g 256 u) t)) s

end Sys2Proof.Machine
end

