-- ==== Sys2Proof/Machine/Xfer.lean ====
section
/-! DEFINITION. Machine/Xfer.lean: Harbour addresses, blocks as records, the transfer packets that engines send, and the logical
cores and checkpoint slots of an image (R108, R208–R211, R289, R290, R295, R377). -/

namespace Sys2Proof.Machine

open Sys2Proof

/-! ### Harbour addresses (R289, R290) -/

def haQuad (a : DWord) : Nat := a.toNat / 2 ^ 40 % 4
def haChan (a : DWord) : Nat := a.toNat / 2 ^ 35 % 32
def haBank (a : DWord) : Nat := a.toNat / 2 ^ 30 % 32
def haOff (a : DWord) : Nat := a.toNat % 2 ^ 30

/-- The key of a channel, and of a byte in its banks. -/
def chanKey (quad ch : Nat) : Nat := 32 * quad + ch
def haKey (a : DWord) : Nat := chanKey (haQuad a) (haChan a)
def haByte (a : DWord) : Nat := a.toNat % 2 ^ 35

def getChan (s : State) (k : Nat) : HChan := tget HChan.init s.hchans k
def updChan (s : State) (k : Nat) (f : HChan → HChan) : State :=
  { s with hchans := tset HChan.init s.hchans k (f (getChan s k)) }

/-- The channel of a target index (R290). -/
def targetKey (t : Nat) : Nat := t / 2048 % 128

/-! ### Blocks as records (R108, R296) -/

/-- The header flit of a block as 64 bytes. -/
def hdrBytes (h : BlkHdr) : List Byte :=
  padTo 64 (leBytes 2 h.tag.toNat ++ leBytes 2 ((if h.staged then 1 else 0) + (if h.untided then 2 else 0))
    ++ leBytes 4 h.tide.toNat ++ leBytes 4 h.seq.toNat ++ leBytes 4 h.check.toNat
    ++ leBytes 4 (h.srcCore.toNat + 2 ^ 18 * h.srcModule.toNat) ++ leBytes 2 h.channel.toNat)

/-- The header that 64 bytes spell. -/
def parseHdr (b : List Byte) : BlkHdr :=
  { tag := BitVec.ofNat 16 (field b 0 2), staged := decide (field b 2 2 % 2 = 1), untided := decide (field b 2 2 / 2 % 2 = 1),
    tide := BitVec.ofNat 32 (field b 4 4), seq := BitVec.ofNat 32 (field b 8 4), check := BitVec.ofNat 32 (field b 12 4),
    srcCore := BitVec.ofNat 18 (field b 16 4), srcModule := BitVec.ofNat 4 (field b 16 4 / 2 ^ 18),
    channel := BitVec.ofNat 12 (field b 20 2) }

/-- A block that the hardware makes itself for one payload. [DEDUCED: log 51] -/
def rawBlock (s : State) (src : BitVec 18) (tag : Half) (tide : Word) (seq : Nat) (body : List Byte) : BlkHdr :=
  { tag := tag, untided := decide (tide = noTide), tide := tide, seq := BitVec.ofNat 32 seq, check := crc32c body,
    srcCore := src, srcModule := BitVec.ofNat 4 (ownModule s) }

/-! ### Transfer packets (R295, R377) -/

/-- A packet put on its way from a bridge to Harbour channel (quad, channel): through the mesh, or at once when the bridge is
the port's own (R271, R324). [DESIGN CHOICE: log 50] -/
def toHarbour (from' quad ch : Nat) (p : Packet) (s : State) : State :=
  let port := harbourVia s quad ch
  let b := portBridge port
  let sb : Sideband :=
    { p.sb with
      dstCore := BitVec.ofNat 18 b
      dstModule := BitVec.ofNat 4 (ownModule s)
      kind := 2
      channel := 0xFFF }
  inject { p with sb := sb, loc := if b = from' then .xl port else .bridge from' } s

/-- A transfer packet of an engine sent: it takes the next REQ_ID and is held until its XACK (R377).
[DESIGN CHOICE: log 50] -/
def sendReq (e : Nat) (x : Xfer) (s : State) : State :=
  let x' : Xfer := { x with reqId := s.reqId, sentAt := nowUs s }
  let b := engineBridge s e
  let head : XferHead :=
    { op := x.op, flags := if x.bare then 1 else 0, count := BitVec.ofNat 16 x.count, reqId := s.reqId, haddr := x.haddr,
      ret := x.ret, ackTo := BitVec.ofNat 8 b }
  toHarbour b (haQuad x.haddr) (haChan x.haddr)
    { serial := 0, sb := { vc := 2, tenant := (getEngine s e).owner }, flits := 1 + (x.data.length + 63) / 64,
      loc := .bridge b, payload := .xfer head x.data, purpose := if x.use = 3 ∨ x.use = 4 then 4 else 7 }
    { updEngine s e (fun g => { g with xfers := g.xfers ++ [x'] }) with reqId := s.reqId + 1 }

/-- The same packet again, after 200 µs without an XACK (R377). -/
def resendReq (e : Nat) (x : Xfer) (s : State) : State :=
  let s1 := updEngine s e (fun g => { g with xfers := g.xfers.filter (fun y => y.reqId ≠ x.reqId) })
  let s2 := sendReq e { x with resent := true } { s1 with reqId := x.reqId }
  { s2 with reqId := s.reqId }

/-! ### The logical cores of an image, and its checkpoint slots (R208–R210) -/

/-- Logical core ids of an image's CORES records, ascending. -/
def imageCores (im : Image) : List Nat :=
  sortBy (fun a b => decide (a ≤ b)) (im.cores.flatMap (fun r => (List.range (r.rowLast + 1 - r.rowFirst)).flatMap (fun i =>
    (List.range (r.colLast + 1 - r.colFirst)).map (fun j =>
      512 * r.region + 16 * (r.rowFirst + i) + (r.colFirst + j)))))

/-- The CORES record of a logical core. -/
def coreRecOf (im : Image) (id : Nat) : Option CoreRec :=
  im.cores.find? (fun r => decide (r.region = id / 512 ∧ r.rowFirst ≤ id / 16 % 32 ∧ id / 16 % 32 ≤ r.rowLast
    ∧ r.colFirst ≤ id % 16 ∧ id % 16 ≤ r.colLast))

/-- The cores that a checkpoint holds, ascending. -/
def ckptCores (im : Image) : List Nat :=
  (imageCores im).filter (fun id => ((coreRecOf im id).map (fun r => decide (r.pstate.toNat / 128 % 16 ≠ 0))).getD false)

/-- DATA of R210 for C entries, and the size of a slot. -/
def ckptData (c : Nat) : Nat := (64 + 16 * c + 63) / 64 * 64
def ckptSize (c : Nat) : Nat := ckptData c + 16896 * c

/-- The HADDR of an offset in a slot. -/
def ckptAddr (g : Engine) (slot off : Nat) : DWord :=
  let c := (ckptCores (g.image.getD {})).length
  g.params.ckptBase + BitVec.ofNat 64 ((if slot = 1 then ckptSize c else 0) + off)

/-- The committed half of a core. -/
def committedHalf (k : Core) : List Byte := readBytes k.spad (halfBase k k.sel) (halfSize k)

/-- The core entry of a checkpoint. -/
def ckptEntry (s : State) (id : Nat) : List Byte :=
  let k := getCore s (carrier s id)
  padTo 16 (leBytes 4 id ++ leBytes 2 k.psSize.toNat ++ leBytes 2 0 ++ leBytes 4 k.tlast.toNat
    ++ leBytes 4 (crc32c (committedHalf k)).toNat)

/-- The slot header without its CHECK. -/
def ckptHead (e : Nat) (g : Engine) (c : Ckpt) (n : Nat) : List Byte :=
  padTo 60 (leBytes 4 0x54504B43 ++ leBytes 1 e ++ leBytes 1 c.slot ++ leBytes 2 0 ++ leBytes 4 c.tide.toNat ++ leBytes 4 n
    ++ padTo 16 ((g.image.getD {}).imageId) ++ leBytes 4 (g.ckptSeq + 1))

/-- Bytes at an HADDR as the bank holds them. -/
def harbourBytes (s : State) (a : DWord) (n : Nat) : List Byte := readBytes (getChan s (haKey a)).mem (haByte a) n

/-- R211: the header of a slot whose MAGIC and CHECK are good, with its core table. -/
def goodSlot (s : State) (g : Engine) (slot : Nat) : Option (List Byte × List Byte) :=
  let a := ckptAddr g slot 0
  let h := harbourBytes s a 64
  let t := harbourBytes s (a + 64) (16 * field h 12 4)
  if field h 0 4 = 0x54504B43 ∧ field h 60 4 = (crc32c (h.take 60 ++ t)).toNat
      ∧ field h 12 4 = (ckptCores (g.image.getD {})).length then some (h, t) else none

/-- The Harbour of an address is reachable and its bank in use. -/
def harbourUp (s : State) (a : DWord) : Bool :=
  (harbourPort s (haQuad a) (haChan a)).isSome && usable s (uHarbour (haQuad a)) && usable s (uChannel (haQuad a) (haChan a))
    && usable s (uBank (haQuad a) (haChan a) (haBank a))

end Sys2Proof.Machine
end

