-- ==== Sys2Proof/Machine/Domain.lean ====
section
/-! DEFINITION. Machine/Domain.lean: what a tide domain changes at a tide boundary guard: the tree, the routes and the ports
that carry traffic (R269, R274–R276, R279, R284). -/

namespace Sys2Proof.Machine

open Sys2Proof

/-- No Stream Engine holds an image: a port's traffic and a change of the tree need not wait for a boundary. -/
def noBoundary (s : State) : Bool := (List.range 8).all (fun e => !(getEngine s e).tide.active)

/-- A change of master and parent takes effect (R274–R276, R284). -/
def applyTree (s : State) : State :=
  match s.dom.nextTree with
  | none => s
  | some (m, dist, port) =>
    let old := s.dom.master.toNat
    let had := s.dom.dstate = 2 ∨ s.dom.dstate = 3 ∨ s.dom.dstate = 4
    let s1 : State :=
      { s with
        dom := { s.dom with
                 nextTree := none
                 master := BitVec.ofNat 4 m
                 parentPort := BitVec.ofNat 4 port
                 depth := BitVec.ofNat 2 (min dist 3)
                 dstate :=
                   if s.dom.dstate = 5 then 5
                   else if dist = 0 then 3
                   else if 3 < dist then 1
                   else if s.dom.dstate = 2 ∨ s.dom.dstate = 4 then s.dom.dstate else 1 } }
    if had ∧ old ≠ m then
      logAt (uPort port) (mkRec 0x0905 1 (uPort port) none noTide [(1, old), (1, m)]) s1
    else s1

/-- R149, R279: an outstanding operation of a core whose object's module is lost completes with SYNC_LOST. -/
def loseModule (m : Nat) (k : Core) : Core :=
  let mine (o : SyncOp) : Bool := decide (o.obj.toNat / 8192 = m)
  let hit := k.syncOps.filter mine
  let k1 := hit.foldl (fun k o => sSet o.d 0x22 k) { k with syncOps := k.syncOps.filter (fun o => !mine o) }
  if k.run = .waiting .sync ∧ hit.any (·.waits) then retire id k1 else k1

/-- R279: a module that ceases to be PRESENT: its holdings are forfeited and operations on its objects are lost. -/
def loseMember (m : Nat) (s : State) : State :=
  let s1 := forAll (List.range 512) (fun n t => sweep n (fun _ k => k.toNat = m) t) s
  let s2 := forAll (List.range 512) (fun n t => updRegion t n (fun r => { r with offPeers := tset 0 r.offPeers m (BitVec.allOnes 512) })) s1
  forAll (s2.cores.map (·.1)) (fun k t => settleTend k (updCore t k (loseModule m))) s2

/-- A module that is PRESENT again is offline in no region. -/
def gainMember (m : Nat) (s : State) : State :=
  forAll (List.range 512) (fun n t => updRegion t n (fun r => { r with offPeers := tset 0 r.offPeers m 0 })) s

/-- New routes take effect (R275, R276, R279). -/
def applyRoute (s : State) : State :=
  match s.dom.nextRoute with
  | none => s
  | some (routes, present, kids) =>
    let gone := (List.range 16).filter (fun m => decide (m ≠ ownModule s) && s.dom.present.getLsbD m && !present.getLsbD m)
    let back := (List.range 16).filter (fun m => !s.dom.present.getLsbD m && present.getLsbD m)
    let s1 : State :=
      { s with
        dom := { s.dom with
                 nextRoute := none
                 present := present
                 route := routes.foldl (fun t r => tset none t r.1 (some (BitVec.ofNat 4 r.2))) [] } }
    let s2 := forAll (List.range 16) (fun p t => updPort t p (fun q => { q with child := kids.contains p })) s1
    forAll back gainMember (forAll gone loseMember s2)

/-- R269: ports that have become ACTIVE carry traffic from the guard on. -/
def carryPorts (s : State) : State :=
  forAll (s.ports.map (·.1)) (fun p t => updPort t p (fun q =>
    { q with carries := q.carries || (decide (q.pstate = 5) && !q.refused && usable s (uPort p)) })) s

/-- Groups that went out of service, new ports, tree and routes take effect (R228, R269, R276). [DEDUCED: log 57] -/
def boundaryGroups (s : State) : State :=
  applyRoute (applyTree (carryPorts (forAll (s.bridges.map (·.1)) (fun b t => updBridge t b (fun r =>
    { r with
      grpOut := r.grpOut ||| r.grpDue
      grpDue := 0 })) s)))

end Sys2Proof.Machine
end

