-- ==== Sys2Proof/Machine/Tides.lean ====
section
/-! DEFINITION. Machine/Tides.lean: the rows of a tide: its start, TDONE, the deadline, the guard, the commands to the regions,
mirror copies, checkpoints and restores (R31–R34, R184–R212, R390–R401). -/

namespace Sys2Proof.Machine

open Sys2Proof

/-! ### Marks of a tide (R186–R190) -/

def tidePeriod (g : Engine) : Nat := periodCycles g.params.period
def deadlineAt (g : Engine) : Nat := 50 * (g.tide.start.toNat + g.params.deadline.toNat)
def tideEnd (g : Engine) : Nat := 50 * (g.tide.start.toNat + tidePeriod g)
def guardAt (g : Engine) : Nat := tideEnd g - 122880

/-- A multiple of `p` at or above `t`. -/
def ceilTo (t p : Nat) : Nat := (t + p - 1) / p * p

/-- R190, R189: the cycle at which the next tide starts, by the parameters that it will have. [DEDUCED: log 49] -/
def nextStart (s : State) (g : Engine) : Nat :=
  let p := 50 * periodCycles (g.pend.getD g.params).period
  let bound := tcycle s + (g.boundAt + 8192 - s.cclk)
  ceilTo (if g.tide.active then tideEnd g else bound) p

/-- Tides run: the engine is BOUND or STREAMING and holds an image (R362). -/
def tidesRun (g : Engine) : Bool := (decide (g.state = 2) || decide (g.state = 3)) && g.image.isSome

/-- R431, R433: the stage region runs its engine's tides: it is not relocating, and has joined. -/
def stageRuns (s : State) (e n : Nat) : Bool :=
  !((getEngine s e).reloc.any (fun r => r.lost = n)) && decide ((getRegion s n).joinedAt ≤ s.cclk)
    && !regionOffline s n

/-! ### TDONE and TTAINT (R192, R392) -/

/-- Rows of region `n` that hold a core of engine `e` satisfying `p`. -/
def rowsOf (s : State) (n e : Nat) (p : Nat → Core → Bool) : BitVec 32 :=
  (regionCoresOf s n e).foldl (fun (w : BitVec 32) k => if p k (getCore s k) then w ||| (1#32 <<< keyRow k) else w) 0

/-- ROWS_A: rows with a core of the engine fenced in the tide or in a drop window, and rows that are being rebuilt (R192, R425,
R466). -/
def rowsA (s : State) (n e : Nat) : BitVec 32 := rowsOf s n e (fun _ k => k.fencedTide || k.underTest) ||| (getRegion s n).rebuilding

/-- R192: every bound core that carries a program and is live has executed TEND. -/
def allTended (s : State) (n e : Nat) : Bool :=
  (regionCoresOf s n e).all (fun k =>
    let c := getCore s k
    !c.hasProgram || c.tended || excluded s k || c.underTest || (getRegion s n).rebuilding.getLsbD (keyRow k))

/-- R392: the rows named by a taint report: tainted landings, and cores with a BAD pin. -/
def taintRowsOf (s : State) (n e : Nat) : BitVec 32 :=
  (getEngine s e).pins.foldl (fun (w : BitVec 32) p =>
    if p.bad ∧ p.core.toNat / 512 = n then w ||| (1#32 <<< (p.core.toNat / 16 % 32)) else w) (getRegion s n).rowsTaint

/-- The taint report of a region, at most one in a tide. -/
def sendTaint (n e : Nat) (tide : Word) (s : State) : State :=
  let w := taintRowsOf s n e
  if w = 0 ∨ (getRegion s n).taintSent ≠ 0 then s
  else sendCtl (.ttaintRows e n tide w) (updRegion s n (fun r => { r with taintSent := w }))

/-- TDONE (R192, R392). -/
def execTdone (region : Fin 512) (s : State) : Out := clocked s <|
  let n := region.val
  .next (match (getRegion s n).engine with
    | none => s
    | some e =>
      let g := getEngine s e.val
      if g.tide.active ∧ !(getRegion s n).tdoneSent ∧ stageRuns s e.val n ∧ allTended s n e.val then
        sendCtl (.tdone e.val n g.tide.num (rowsA s n e.val) (getRegion s n).rowsBroken)
          (sendTaint n e.val g.tide.num (updRegion s n (fun r => { r with tdoneSent := true })))
      else s)

/-- TDONE_RECEIVE (R193): recorded, or discarded after the deadline cycle and counted. -/
def execTdoneReceive (e : Fin 8) (s : State) : Out := clocked s <|
  let pick (c : Ctl) : Option (Nat × Word × BitVec 32 × BitVec 32) := match c with
    | .tdone eng n t a b => if eng = e.val then some (n, t, a, b) else none
    | _ => none
  .next (match takeCtl pick s with
    | none => s
    | some ((n, t, a, b), s1) =>
      let g := getEngine s1 e.val
      if g.tide.active ∧ g.tide.num = t ∧ g.tide.judged.isNone ∧ tcycle s1 ≤ deadlineAt g then
        updEngine s1 e.val (fun g =>
          { g with
            tide := { g.tide with
                      rowsA := tset none g.tide.rowsA n (some a)
                      rowsB := tset 0 g.tide.rowsB n b } })
      else bump (uEngine e.val) eTdoneLate s1)

/-! ### The deadline (R193, R194, R249) -/

/-- The judgement at the deadline, with Collect. -/
def judge (e : Nat) (s : State) : State :=
  let g0 := getEngine s e
  if !g0.tide.active ∨ g0.tide.judged.isSome then s
  else
    let s1 := drainTails (clockTo (if g0.tide.cut then 0 else deadlineAt g0) s)
    let s2 := forAll (stageOf s1 e) (fun n t =>
      if (getRegion t n).tdoneSent ∨ !stageRuns t e n then t else sendTaint n e g0.tide.num t) s1
    let g := getEngine s2 e
    let ok := !g.tide.forceLate && (stageOf s2 e).all (fun n => (tget none g.tide.rowsA n).isSome)
    let s3 := updEngine s2 e (fun g => { g with tide := { g.tide with judged := some ok } })
    forAll (streamsWhere s3 (fun x => x.outEng = e)) (fun n t => collectStream ok n t) s3

/-- DEADLINE (R193). [DEDUCED: log 182] -/
def execDeadline (e : Fin 8) (s : State) : Out := clocked s <| .next (judge e.val s)

/-! ### The guard (R195–R201, R207, R395, R428) -/

/-- The stage rows withheld in the tide (R195, R395). -/
def withheldRows (s : State) (e : Nat) : Tbl (BitVec 32) :=
  tkeep (fun n => (stageOf s e).contains n) (rowUnion (rowsHeldA s e) (rowsHeldB s e))

/-- Number of rows in a table of rows. -/
def rowCount (t : Tbl (BitVec 32)) : Nat := (rowList t).length

/-- R100: BROKEN is cleared in every slot of the engine's cores whose destination is reachable. -/
def repath (e : Nat) (s : State) : State :=
  forAll (coresOf s e) (fun key t =>
    updCore t key (fun k =>
      { k with
        slots := tupdAll Slot.init k.slots
          ((k.slots.filter (fun x => x.2.broken && x.2.kind ≠ 0 && reachable s key x.2)).map (·.1))
          (fun _ sl => { sl with broken := false }) })) s

/-- The physical cores of a row that are excluded. -/
def excludedIn (s : State) (n row : Nat) : List Nat := (rowCores n row).filter (fun k => excluded s k)

/-- R427: a row of the region has two excluded cores. -/
def twoExcluded (s : State) (n : Nat) : Bool := (List.range 32).any (fun r => decide (2 ≤ (excludedIn s n r).length))

/-- R428: a channel that keeps BROKEN ends in the region, which cannot be reached. -/
def cutOff (s : State) (n : Nat) : Bool :=
  s.cores.any (fun c => c.2.slots.any (fun x =>
    x.2.broken && x.2.kind = 1 && decide (x.2.module.toNat = ownModule s)
      && decide (relocated s (x.2.dst.toNat / 512) = n) && !reachable s c.1 x.2))

/-- R428, R435: the stages that have to relocate join the engine's queue, and one relocation starts when none runs. -/
def relocTriggers (e : Nat) (s : State) : State :=
  let due := (stageOf s e).filter (fun n => twoExcluded s n || regionOffline s n || cutOff s n)
  updEngine s e (fun g =>
    let fresh := due.filter (fun n => !g.relocQueue.contains n && !g.reloc.any (fun r => r.lost = n))
    let q := g.relocQueue ++ fresh
    match g.reloc, q with
    | none, n :: rest =>
      { g with
        relocQueue := rest
        triedReserves := []
        reloc := some { lost := n, reserve := 512, startUs := nowUs s, phase := 0 } }
    | _, _ => { g with relocQueue := q })

/-- R209: a checkpoint that is not complete when a guard opens has failed. [DEDUCED: log 53] -/
def failCkpt (e : Nat) (s : State) : State :=
  match (getEngine s e).ckpt with
  | none => s
  | some c =>
    let u := uHost (if (getFn s (getEngine s e).owner.toNat).port then 1 else 0)
    logAt u (mkRec 0x0704 1 u (some (getEngine s e).owner.toNat) c.tide [(1, e), (1, c.slot)])
      (bump (uEngine e) eCkptFail (updEngine s e (fun g =>
        { g with
          ckpt := none
          ckptAsked := true
          xfers := g.xfers.filter (fun x => x.use ≠ 3 && x.use ≠ 4) })))

/-- R207, R373: an on-time commit counts, and starts a checkpoint when one is due. -/
def countCommit (e : Nat) (s : State) : State :=
  updEngine s e (fun g =>
    let n := g.commits + 1
    let k := g.params.ckptTides.toNat
    if g.params.ckptValid ∧ k ≠ 0 ∧ (k ≤ n ∨ g.ckptAsked) then
      { g with
        commits := n
        ckptAsked := false
        ckpt := some { tide := g.tide.num, slot := g.ckptSlot }
        jobs := g.jobs.map (fun x => if opByte x.cmd = 0x17 ∧ x.started then { x with prog := .ckpt } else x) }
    else { g with commits := n })

/-- R201: the commands of a late tide. -/
def lateGuard (e : Nat) (s : State) : State :=
  let g := getEngine s e
  sendOrders false e g.tide.num [] (forAll (stageOf s e) (fun n => sendCtl (.tideClean n e g.tide.num))
    (bump (uEngine e) eLate (updEngine s e (fun g => { g with tide := { g.tide with judged := some false } }))))

/-- R195–R199: the commands of an on-time tide. [DEDUCED: log 46] -/
def onTimeGuard (e : Nat) (s : State) : State :=
  let g := getEngine s e
  let held := withheldRows s e
  let s1 := updEngine s e (fun g => { g with tide := { g.tide with heldA := rowsHeldA s e, heldB := rowsHeldB s e } })
  let s2 := bumpBy (uEngine e) eWithheld (rowCount held) (bumpBy (uEngine e) eDrop (rowCount (taintRowsHeld s e))
    (bump (uEngine e) eOntime s1))
  let s3 := forAll (stageOf s2 e) (fun n t =>
    let w := tget 0 held n
    sendCtl (.commit n e g.tide.num) (if w = 0 then t else sendCtl (.withhold n e g.tide.num w) t)) s2
  countCommit e (sendOrders true e g.tide.num (rowList held) s3)

/-- The guard opens: stream policies first, then the commands, the orders and what falls due at a boundary.
[DEDUCED: log 46, 47] -/
def guardOpen (e : Nat) (s : State) : State :=
  let g0 := getEngine s e
  if !g0.tide.active ∨ g0.tide.guard then s
  else
    let s1 := clockTo (if g0.tide.cut then 0 else guardAt g0) (judge e s)
    let halts := taintHalts s1 e
    let s2 := if halts then bump (uEngine e) eHalt s1 else s1
    let s3 := failCkpt e (updEngine s2 e (fun g =>
      { g with tide := { g.tide with guard := true, halt := halts, forceLate := g.tide.forceLate || halts } }))
    let g := getEngine s3 e
    let s4 := if g.tide.judged = some true ∧ !g.tide.forceLate then onTimeGuard e s3 else lateGuard e s3
    relocTriggers e (repath e (boundaryGroups s4))

/-- GUARD_OPEN (R196). -/
def execGuardOpen (e : Fin 8) (s : State) : Out := clocked s <| .next (guardOpen e.val s)

/-! ### Commands at a region (R31, R196, R202–R204) -/

/-- The region still waits for the command of this tide of its engine. -/
def awaits (s : State) (n e : Nat) (tide : Word) : Bool :=
  (getRegion s n).engine.any (fun x => x.val = e) && (getEngine s e).tide.active
    && decide ((getEngine s e).tide.num = tide) && !(getRegion s n).cmdSeen

/-- WITHHOLD (R196). -/
def execWithhold (region : Fin 512) (s : State) : Out := clocked s <|
  let pick (c : Ctl) : Option (Nat × Word × BitVec 32) := match c with
    | .withhold n e t w => if n = region.val then some (e, t, w) else none
    | _ => none
  .next (match takeCtl pick s with
    | none => s
    | some ((e, t, w), s1) =>
      if awaits s1 region.val e t then updRegion s1 region.val (fun r => { r with withheld := r.withheld ||| w }) else s1)

/-- The bank that holds mirrors (R26). -/
def mirrorBank (k : Core) : Option Nat := (List.range 12).find? (fun b => bankKind k b = 2)

/-- R33: the copy of one core's committed half to its mirror holder. [DEDUCED: log 59] -/
def mirrorCopy (key : Nat) (tide : Word) (s : State) : State :=
  let k := getCore s key
  match logicalId s key with
  | none => s
  | some id =>
    match mirrorHolder s id with
    | none => s
    | some h =>
      if excluded s h || (mirrorBank (getCore s h)).isNone then mirrorFail id h 2 tide (updCore s h (fun x => { x with mirrorValid := false }))
      else
        let data := committedHalf k
        let s1 := updCore s h (fun x => { x with mirrorValid := false, mirrorGot := some ([], k.psSize.toNat) })
        forAll (List.range k.psSize.toNat) (fun i t =>
          let body := (data.drop (2048 * i)).take 2048
          let sb : Sideband :=
            { vc := 2
              kind := 1
              dstCore := coreIdOf s h
              dstModule := BitVec.ofNat 4 (ownModule s)
              tenant := (getRegion s (keyRegion key)).owner
              tide := tide
              block := true }
          inject
            { serial := 0
              sb := sb
              flits := 33
              loc := .router key 4
              payload := .block (rawBlock s (coreIdOf s key) 0 tide i body) body
              purpose := 1
              srcCore := coreIdOf s key
              srcModule := BitVec.ofNat 4 (ownModule s) } t) s1

/-- The region may act on its rows: it is unbound, or has its command of the guard (R422, R462, R466). -/
def guardWork (s : State) (n : Nat) : Bool :=
  match (getRegion s n).engine with
  | none => true
  | some e => (getEngine s e.val).tide.active && (getEngine s e.val).tide.guard && (getRegion s n).cmdSeen

/-- R466: a drop window ends: its cores that passed are to be rebuilt. [DEDUCED: log 129] -/
def endWindow (n : Nat) (t : FieldTest) (s : State) : State :=
  let bound := (getRegion s n).engine.isSome
  let good := (t.verdicts.filter (·.2)).map (·.1)
  let rows : BitVec 32 := good.foldl (fun (w : BitVec 32) k => w ||| (1#32 <<< keyRow k)) 0
  let s1 := forAll t.cores (fun k u => updCore u k endTarget) s
  let s2 := if bound then forAll good (fun k u => updCore u k (fun c => { c with hasProgram := false, rebuildDue := c.engine.isSome })) s1 else s1
  updRegion s2 n (fun r =>
    { r with
      ft := none
      rebuilding := if bound then r.rebuilding ||| rows else r.rebuilding
      rebuilt := if bound then r.rebuilt &&& ~~~rows else r.rebuilt })

/-- What the verdict of a test brings in the first guard after it, or at once in an unbound region: the slide of a core that
failed stays, with TEMP 0 (R462); a drop window ends (R466). -/
def settleTest (n : Nat) (s : State) : State :=
  match (getRegion s n).ft with
  | none => s
  | some t =>
    let now := ((getRegion s n).engine.map (fun e => (getEngine s e.val).tide.num)).getD noTide
    if !guardWork s n then s
    else if t.kind = 1 ∧ t.verdicts.any (fun v => !v.2) then
      updRegion s n (fun r =>
        { r with
          ft := none
          slide := tupdAll Slide.init r.slide (t.cores.map keyRow) (fun _ x => { x with temp := false }) })
    else if t.kind = 3 ∧ t.verdicts.length = t.cores.length ∧ now ≠ t.tide then endWindow n t s
    else s

/-- R31, R196, R203: COMMIT applied at one region. -/
def commitRegion (n e : Nat) (tide : Word) (s : State) : State :=
  let r := getRegion s n
  let fenced := rowsOf s n e (fun _ k => k.fencedTide || k.underTest)
  let out := r.withheld ||| fenced ||| r.rebuilding
  let told := (tget none (getEngine s e).tide.rowsA n).getD 0
  let keys := regionCoresOf s n e
  let isOut (k : Nat) : Bool := out.getLsbD (keyRow k)
  let flips := keys.filter (fun k => !isOut k && decide ((getCore s k).psSize ≠ 0) && !excluded s k)
  let s1 := forAll flips (fun k t => updCore t k (fun c => { c with sel := !c.sel, tlast := tide })) s
  let s2 := forAll (keys.filter isOut) cleanCore s1
  let s3 := forAll (flips.filter (fun k => (getCore s2 k).mirrorEn)) (fun k t => mirrorCopy k tide t) s2
  let lateRows := fenced &&& ~~~told
  settleTest n (updRegion (if lateRows = 0 then s3 else markRebased [(n, lateRows)] tide s3) n (fun r => { r with cmdSeen := true }))

/-- COMMIT (R31). -/
def execCommit (region : Fin 512) (s : State) : Out := clocked s <|
  let pick (c : Ctl) : Option (Nat × Word) := match c with
    | .commit n e t => if n = region.val then some (e, t) else none
    | _ => none
  .next (match takeCtl pick s with
    | none => s
    | some ((e, t), s1) => if awaits s1 region.val e t then commitRegion region.val e t s1 else s1)

/-- R202: the clean work of a region. -/
def cleanRegion (n e : Nat) (s : State) : State :=
  settleTest n (updRegion (cleanHome n e (forAll (regionCoresOf s n e) cleanCore s)) n (fun r => { r with cmdSeen := true }))

/-- TIDE_CLEAN (R202). [DEDUCED: log 56] -/
def execTideClean (region : Fin 512) (s : State) : Out := clocked s <|
  let pick (c : Ctl) : Option (Nat × Word) := match c with
    | .tideClean n e t => if n = region.val then some (e, t) else none
    | _ => none
  .next (match takeCtl pick s with
    | none => s
    | some ((e, t), s1) => if awaits s1 region.val e t then cleanRegion region.val e s1 else s1)

/-- R204: a region without a command acts clean, counts and logs it, and tells the engine. -/
def noCommand (n : Nat) (s : State) : State :=
  match (getRegion s n).engine with
  | none => s
  | some e =>
    let g := getEngine s e.val
    if !awaits s n e.val g.tide.num ∨ regionOffline s n then s
    else
      let s1 := clockTo (tideEnd g - 4096) s
      sendCtl (.nocmd e.val n g.tide.num) (bump (uRegion n) rTidNocmd
        (logRegion n 0x0701 1 (uRegion n) g.tide.num [(1, e.val), (1, 0), (2, n)] (cleanRegion n e.val s1)))

/-- NOCMD (R204). -/
def execNocmd (region : Fin 512) (s : State) : Out := clocked s <| .next (noCommand region.val s)

/-! ### Mirror blocks (R33, R34) -/

/-- MIRROR_BLOCK_ARRIVAL (R33, R34): the holder's region controller takes the next mirror block, verifies it and stores it. -/
def execMirrorBlockArrival (c : CoreRef) (s : State) : Out := clocked s <|
  let key := c.key
  let n := c.region.val
  .next (match (atEject s key 2).find? (fun p => p.purpose = 1) with
    | none => s
    | some p =>
      let s1 := rearm key 1 (removePacket p.serial s)
      match p.payload, (getCore s key).mirrorGot, mirrorBank (getCore s key) with
      | .block h body, some (got, size), some b =>
        let sum := crc32c body
        if excluded s key then mirrorFail h.srcCore.toNat key 2 h.tide (updCore s1 key (fun k => { k with mirrorGot := none }))
        else if sum ≠ h.check then
          mirrorFail h.srcCore.toNat key 0 h.tide (logCheckFail (uRegion n) (uCore key) (ownerOf s n) h sum 7 0 0
            (updCore s1 key (fun k => { k with mirrorGot := none })))
        else
          let got' := if got.contains h.seq.toNat then got else got ++ [h.seq.toNat]
          updCore s1 key (fun k =>
            let k1 := { k with spad := writeBytes k.spad (0x4000 * b + 2048 * h.seq.toNat) body }
            if size ≤ got'.length then { k1 with mirrorGot := none, mirrorValid := true, mirrorTide := h.tide }
            else { k1 with mirrorGot := some (got', size) })
      | _, _, _ => s1)

/-- The logical core whose mirror a core holds (R32). -/
def mirrorSource (s : State) (key : Nat) : Nat :=
  match logicalId s key with
  | some id => id - 1
  | none => keyRegion key * 512 + keyRow key * 16 + 15

/-- R34: copies that the guard's end finds incomplete. [DEDUCED: log 59] -/
def endMirrors (e : Nat) (tide : Word) (s : State) : State :=
  forAll ((s.cores.filter (fun c => c.2.mirrorGot.isSome && (stageOf s e).contains (keyRegion c.1))).map (·.1)) (fun h t =>
    updCore (mirrorFail (mirrorSource t h) h 1 tide t) h (fun k => { k with mirrorGot := none })) s

/-! ### The start of a tide (R186, R190, R203–R205, R238–R242, R369, R370) -/

/-- R45, R75, R205: one core at a tide start: at its entry point, clean or not. -/
def startCore (num : Word) (k : Core) : Core :=
  let k1 :=
    { k with
      run := .running
      pc := k.entry
      loop0 := none
      loop1 := none
      tide := num
      tended := false
      fencedTide := false
      taint := false
      slots := tupdAll Slot.init k.slots (k.slots.map (·.1)) (fun _ sl => { sl with seq := 0 }) }
  if k.cleanNext then
    { zeroBanks (fun b => bankKind k b = 0) (clearRegs k1) with
      landing := []
      ingest := none
      syncOps := []
      clean := true
      restored := k.restoreDue
      restoreDue := false
      cleanNext := false }
  else { k1 with clean := false, restored := false }

/-- A bound core that does not run the tide: fenced, being rebuilt, relocating, or without a program. -/
def idleCore (num : Word) (k : Core) : Core :=
  { k with run := .stopped, tide := num, tended := false, fencedTide := false, taint := false }

/-- Every core of a stage region at the start of tide `num`. -/
def startRegion (e : Nat) (num : Word) (n : Nat) (s : State) : State :=
  let runs := stageRuns s e n
  let s1 := forAll (regionCoresOf s n e) (fun key t =>
    let live := runs && !excluded t key && !(getCore t key).underTest && (getCore t key).hasProgram && !(getRegion t n).rebuilding.getLsbD (keyRow key)
    let t1 := flushQueues key t
    updCore (if live && (getCore t key).cleanNext then countIngest key t1 else t1) key
      (if live then startCore num else idleCore num)) s
  updRegion s1 n (fun r =>
    { r with
      tdoneSent := false
      cmdSeen := false
      withheld := 0
      rowsBroken := 0
      rowsTaint := 0
      taintSent := 0 })

/-- R242, R370: a stream takes its frame and Condition prepares its ingress data. -/
def startStream (num : Word) (n : Nat) (s : State) : State :=
  match getStream s n with
  | none => s
  | some x =>
    let head := match x.queue with
      | f :: _ => if f.ready then some f else none
      | [] => none
    let p := (getEngine s x.inEng).params.period
    let late := !x.cond.isEmpty
    let x1 : Stream :=
      { x with
        queue := if head.isSome then x.queue.drop 1 else x.queue
        taken := head
        policy := x.pendPolicy.getD x.policy
        pendPolicy := none
        tide := num
        running := true
        frame := none
        output := none
        delivered := false
        relayOut := false
        outSent := false
        partsOut := []
        late := head.any (·.lost)
        broken := false
        tainted := head.any (·.taint)
        cond := []
        condPart := 0 }
    let x2 := condition x1 p (head.bind (·.input))
    let s0 := if head.any (·.halt) then
        updEngine s x.engine.val (fun g => { g with tide := { g.tide with halt := true } }) else s
    let s1 := setStream s0 n (some { x2 with condParts := (x2.cond.length + 64 * partWords x - 1) / (64 * partWords x) })
    let s2 := if head.isNone then bump (uEngine x.engine.val) eNoframe s1 else s1
    match condBridge s x with
    | none => s2
    | some b =>
      if bridgeDown s b then updStream s2 n (fun y => { y with cond := [] })
      else
        (if late then bump (uBridge b) 28 else id) (bump (uBridge b) (if x2.noInput then 29 else 27) s2)

/-- R369, R370: the streams of an engine at a tide start: one that closes with no frame left is closed. -/
def startStreams (e : Nat) (num : Word) (s : State) : State :=
  forAll (ownStreams s e) (fun n t =>
    match getStream t n with
    | none => t
    | some x => if x.closing.isSome ∧ x.queue.isEmpty ∧ x.taken.isNone then closeStream n stOk t else startStream num n t) s

/-- Engines that share a stream with engine `e`. -/
def partners (s : State) (e : Nat) : List Nat :=
  ((namingStreams s e).filterMap (getStream s)).foldl (fun es x =>
    let es1 := if x.inEng = e ∨ es.contains x.inEng then es else es ++ [x.inEng]
    if x.outEng = e ∨ es1.contains x.outEng then es1 else es1 ++ [x.outEng]) []

/-- R204 at the engine: the streams of a region that acted without a command. -/
def takeNocmds (e : Nat) (s : State) : State :=
  let mine (c : Ctl) : Option (Nat × Word) := match c with
    | .nocmd eng n t => if eng = e then some (n, t) else none
    | _ => none
  let s1 := { s with ctl := s.ctl.filter (fun c => (mine c).isNone) }
  forAll (s.ctl.filterMap mine) (fun m t => markRebased [(m.1, 0xFFFFFFFF#32)] m.2 t) s1

/-- What a tide leaves to be done when it ends: its judgement, its guard, regions without a command, copies and frames that
are not complete. [DEDUCED: log 48] -/
def settleTide (e : Nat) (s : State) : State :=
  let g := getEngine s e
  if !g.tide.active then s
  else
    let s1 := guardOpen e s
    let s2 := forAll (partners s1 e) (fun p t =>
      if (getEngine t p).tide.active ∧ (getEngine t p).tide.num = g.tide.num then guardOpen p t else t) s1
    let s3 := takeNocmds e (endMirrors e g.tide.num (forAll (stageOf s2 e) noCommand s2))
    forAll (namingStreams s3 e) (fun n t =>
      match getStream t n with
      | some x =>
        if x.running ∧ x.tide = g.tide.num then updStream (settleFrame n t) n (fun x => { x with running := false }) else t
      | none => t) s3

/-- Running commands of one kind complete. -/
def endJobsOp (e op code : Nat) (s : State) : State := endJobs e code (fun x => opByte x.cmd = op && x.started && x.lst.isNone) s

/-- R364, R373, R402: the image is unbound at a boundary; commands that waited for the engine end. -/
def endUnbind (e : Nat) (s : State) : State :=
  let s1 := endJobsOp e 0x1A stTimeout (endJobsOp e 0x17 stTimeout s)
  let s2 := unbindImage e s1
  match (getEngine s2 e).jobs.findIdx? (fun x => opByte x.cmd = 0x11 && x.started) with
  | some j => endJob e j stOk [] s2
  | none => s2

/-- The next tide starts at its cycle, in every stage region and stream (R186). [DEDUCED: log 49] -/
def beginTide (e : Nat) (s : State) : State :=
  let c := nextStart s (getEngine s e)
  let s1 := clockTo c s
  let g := getEngine s1 e
  let ps := g.pend.getD g.params
  let start : DWord := BitVec.ofNat 64 (c / 50)
  let num := tideNumber start (periodCycles ps.period)
  let s2 := updEngine s1 e (fun g =>
    { g with
      params := ps
      pend := none
      tide := { num := num, start := start, active := true } })
  startStreams e num (forAll (stageOf s2 e) (startRegion e num) s2)

/-- The boundary between two tides of an engine: the old one is settled; then the engine faults (R398), is unbound (R364), or
starts its next tide. [DEDUCED: log 48] -/
def startTide (e : Nat) (s : State) : State :=
  let s1 := settleTide e s
  let g := getEngine s1 e
  if !tidesRun g then s1
  else if g.tide.active ∧ g.tide.halt then faultEngine e stTainted (clockTo (tideEnd g) s1)
  else if g.unbinding then endUnbind e (clockTo (nextStart s1 g) s1)
  else beginTide e s1

/-! ### Steps of the timebase (R215, R282) -/

/-- An active tide of an engine ends at a step, late. -/
def cutTide (e : Nat) (s : State) : State :=
  let g := getEngine s e
  if !g.tide.active then s
  else
    let s1 := guardOpen e s
    let s2 := forAll (stageOf s1 e) (fun n t => if awaits t n e g.tide.num then cleanRegion n e t else t) s1
    updEngine (settleTide e s2) e (fun g => { g with tide := { g.tide with active := false } })

/-- The step that waits for the next grid step takes place (R215, R281, R282). -/
def timeStep (s : State) : State :=
  match s.dom.step with
  | none => s
  | some d =>
    let b := nextGrid s.tid.toNat
    let s0 := forAll (List.range 8) (fun e t =>
        if (getEngine t e).tide.active then
          updEngine t e (fun g => { g with tide := { g.tide with forceLate := true, cut := true } }) else t)
      { s with dom := { s.dom with step := none } }
    let s1 := clockTo (50 * b) (forAll (List.range 8) cutTide s0)
    bump uModule 1 (logAt (uPort s1.dom.parentPort.toNat) (mkRec 0x0702 1 (uPort s1.dom.parentPort.toNat) none noTide [(4, (d % 2 ^ 32).toNat)])
      { s1 with tid := BitVec.ofInt 64 (s1.tid.toNat - d) })

/-- The step falls before the end of the tide, or before the start of the next. -/
def stepFirst (s : State) (e : Nat) : Bool :=
  s.dom.step.isSome && decide (50 * nextGrid s.tid.toNat ≤ nextStart s (getEngine s e))

/-- TIDE_START (R186). -/
def execTideStart (e : Fin 8) (s : State) : Out := clocked s <|
  .next (startTide e.val (if tidesRun (getEngine s e.val) && stepFirst s e.val then timeStep s else s))

/-- One CCLK cycle of the idle module, with a step of the timebase at its grid step. -/
def idleCycle (s : State) : State :=
  let t := tick s
  if s.dom.step.isSome ∧ t.tid.toNat % 61440 = 0 ∧ t.phase = 0 ∧ t.tid ≠ s.tid then timeStep s else t

/-! ### Checkpoints (R207–R210) -/

/-- A WRITE of bytes to a checkpoint slot, in packets of at most 32 flits. -/
def ckptWrite (e slot off : Nat) (bs : List Byte) (s : State) : State :=
  forAll (pieces 2048 4096 bs).zipIdx (fun x t =>
    sendReq e { reqId := 0, haddr := ckptAddr (getEngine t e) slot (off + 2048 * x.2), op := 1, count := x.1.length / 64,
                data := x.1, use := 4 } t) s

/-- The records of one core: PS_SIZE blocks by WRITE_REC (R208, R210). [DEDUCED: log 51] -/
def ckptCore (e slot : Nat) (x : Nat × Nat) (s : State) : State :=
  let k := getCore s (carrier s x.1)
  let data := committedHalf k
  let c := (ckptCores ((getEngine s e).image.getD {})).length
  forAll (List.range k.psSize.toNat) (fun i t =>
    let body := (data.drop (2048 * i)).take 2048
    sendReq e { reqId := 0, haddr := ckptAddr (getEngine t e) slot (ckptData c + 16896 * x.2 + 2112 * i), op := 2, count := 1,
                data := hdrBytes (rawBlock t (BitVec.ofNat 18 x.1) 0 noTide i body) ++ body, use := 3 } t) s

/-- The REQ_IDs of the checkpoint traffic of an engine that no XACK has answered. -/
def ckptReqs (g : Engine) : List Word := (g.xfers.filter (fun x => x.use = 3 || x.use = 4)).map (·.reqId)

/-- CHECKPOINT_COPY (R208): MAGIC cleared, blocks and core table; the header once they are acknowledged.
[DESIGN CHOICE: log 52] -/
def execCheckpointCopy (e : Fin 8) (s : State) : Out := clocked s <|
  let g := getEngine s e.val
  .next (match g.ckpt with
    | none => s
    | some c =>
      if !g.tide.active ∨ g.tide.num = c.tide ∨ c.failed then s
      else
        let ids := ckptCores (g.image.getD {})
        let table := ids.flatMap (ckptEntry s)
        if !c.copied then
          let s1 := ckptWrite e.val c.slot 0 (List.replicate 64 0) s
          let s2 := forAll ids.zipIdx (ckptCore e.val c.slot) s1
          let s3 := ckptWrite e.val c.slot 64 (padTo (ckptData ids.length - 64) table) s2
          let c' : Ckpt :=
            { c with
              entries := ids.map (fun id => (id, ckptEntry s id))
              copied := true
              table := true }
          updEngine s3 e.val (fun g => { g with ckpt := some c' })
        else if c.header ∨ !(ckptReqs g).isEmpty then s
        else
          let h := ckptHead e.val g c ids.length
          let t := c.entries.flatMap (·.2)
          ckptWrite e.val c.slot 0 (h ++ leBytes 4 (crc32c (h ++ t)).toNat)
            (updEngine s e.val (fun g => { g with ckpt := some { c with header := true } })))

/-- RESULT of CHECKPOINT: TIDE, SEQ, SLOT (R373). -/
def ckptResult (c : Ckpt) (seq : Nat) : List Byte := leBytes 4 c.tide.toNat ++ leBytes 4 seq ++ leBytes 1 c.slot

/-- Every CHECKPOINT command whose checkpoint has completed. -/
def endCkptJobs (e : Nat) (c : Ckpt) (seq : Nat) : Nat → State → State
  | 0, s => s
  | n + 1, s =>
    match (getEngine s e).jobs.findIdx? (fun x => opByte x.cmd = 0x17 && x.started && x.prog = .ckpt) with
    | some j => endCkptJobs e c seq n (finishJob e j stOk (ckptResult c seq) 0xFFFF c.tide s)
    | none => s

/-- CHECKPOINT_DONE (R209). [DEDUCED: log 53] -/
def execCheckpointDone (e : Fin 8) (s : State) : Out := clocked s <|
  let g := getEngine s e.val
  .next (match g.ckpt with
    | none => s
    | some c =>
      if c.failed then failCkpt e.val s
      else if c.header ∧ (ckptReqs g).isEmpty then
        endCkptJobs e.val c (g.ckptSeq + 1) g.jobs.length (bump (uEngine e.val) eCkptOk (updEngine s e.val (fun g =>
          { g with
            ckpt := none
            commits := 0
            ckptSeq := g.ckptSeq + 1
            ckptSlot := 1 - c.slot })))
      else s)

/-! ### Restore (R211, R212, R401) -/

/-- Half A written, with the source tide; the next start is clean. -/
def putRestore (key : Nat) (data : List Byte) (tide : Word) (s : State) : State :=
  updCore s key (fun k =>
    { k with
      spad := writeBytes k.spad (halfBase k false) (padTo (halfSize k) data)
      sel := false
      tlast := tide
      restoreDue := true
      cleanNext := true })

/-- R401: a source abandoned, counted and logged. -/
def restoreFail (key src : Nat) (s : State) : State :=
  let n := keyRegion key
  bump (uRegion n) rRestoreFail (logRegion n 0x0D03 1 (uCore key) noTide [(4, (coreIdOf s key).toNat), (1, src)] s)

/-- The entry of logical core `id` in a good slot: its data and tide, when its records and its CHECK are good.
[DEDUCED: log 121] -/
def slotEntry (s : State) (g : Engine) (slot id : Nat) : Option (List Byte × Word) :=
  match goodSlot s g slot with
  | none => none
  | some (_, table) =>
    let c := (ckptCores (g.image.getD {})).length
    match (List.range c).find? (fun j => field table (16 * j) 4 = id) with
    | none => none
    | some j =>
      let recs := (List.range (field table (16 * j + 4) 2)).map (fun i =>
        harbourBytes s (ckptAddr g slot (ckptData c + 16896 * j + 2112 * i)) 2112)
      let data := recs.flatMap (·.drop 64)
      if recs.all (fun r => (parseHdr r).check = crc32c (r.drop 64)) ∧ (crc32c data).toNat = field table (16 * j + 12) 4 then
        some (data, BitVec.ofNat 32 (field table (16 * j + 8) 4))
      else none

/-- Good slots of an engine, the newest first (R211). -/
def slotOrder (s : State) (g : Engine) : List Nat :=
  match goodSlot s g 0, goodSlot s g 1 with
  | some (a, _), some (b, _) => if field a 0x20 4 < field b 0x20 4 then [1, 0] else [0, 1]
  | some _, none => [0]
  | none, some _ => [1]
  | none, none => []

/-- The restore of one core from a slot, or from the ones after it, or from nothing. -/
def restoreSlots (e key id : Nat) (bad : Nat → Bool) : List Nat → State → State
  | [], s => bump (uEngine e) eRestoreNone (putRestore key [] noTide s)
  | slot :: rest, s =>
    let g := getEngine s e
    match (if bad (1 + slot) then none else slotEntry s g slot id) with
    | some (data, tide) =>
      bumpBy (uEngine e) eRebaseLost (tideSub (tideSub g.tide.num.toNat 1) tide.toNat)
        (bump (uEngine e) eRestoreCkpt (putRestore key data tide s))
    | none => restoreSlots e key id bad rest (restoreFail key (1 + slot) s)

/-- A restore of the core `key`, whose entry is that of logical core `id`, with the mirror at `holder`. `bad` names the sources
(0 mirror, 1 and 2 the slots) whose blocks fail on the way. -/
def restoreCore (e key id : Nat) (holder : Option Nat) (bad : Nat → Bool) (s : State) : State :=
  let g := getEngine s e
  let k := getCore s key
  let slots := if g.params.ckptValid ∧ harbourUp s g.params.ckptBase then slotOrder s g else []
  let row : Tbl (BitVec 32) := [(keyRegion key, 1#32 <<< keyRow key)]
  let fromSlots (s : State) : State := restoreSlots e key id bad slots s
  if k.psSize = 0 then s
  else markRebased row noTide (match holder with
    | none => fromSlots s
    | some h =>
      let m := getCore s h
      if excluded s h ∨ !m.mirrorValid then fromSlots s
      else if bad 0 then fromSlots (restoreFail key 0 s)
      else
        bumpBy (uEngine e) eRebaseLost (tideSub (tideSub g.tide.num.toNat 1) m.mirrorTide.toNat)
          (bump (uEngine e) eRestoreMirror
            (putRestore key (readBytes m.spad (0x4000 * (mirrorBank m).getD 0) (halfSize k)) m.mirrorTide s)))

/-- R211: the core runs no tide: a guard, a row held for rebuilding, or a relocating stage. -/
def restorable (s : State) (key e : Nat) : Bool :=
  (getCore s key).run = .stopped
    && ((getEngine s e).tide.guard || !(getEngine s e).tide.active
        || (getRegion s (keyRegion key)).rebuilding.getLsbD (keyRow key)
        || (getEngine s e).reloc.any (fun r => r.reserve = keyRegion key))

/-- RESTORE (R211). [DESIGN CHOICE: log 52] -/
def execRestore (c : CoreRef) (bad : BitVec 3) (s : State) : Out := clocked s <|
  .next (match (getCore s c.key).engine, logicalId s c.key with
    | some e, some id =>
      if restorable s c.key e.val then restoreCore e.val c.key id (mirrorHolder s id) (fun i => bad.getLsbD i) s else s
    | _, _ => s)

end Sys2Proof.Machine
end

