-- ==== Sys2Proof/Machine/Shore.lean ====
section
/-! DEFINITION. Machine/Shore.lean: the rows of the shore: the SHI with its retry buffers, training and failure, Inject, relays,
the watermark and tail-timeout FIFOs, egress staging and Deliver; and the ALIGN rows (R213–R216, R220–R252, R280, R281). -/

namespace Sys2Proof.Machine

open Sys2Proof

/-! ### ALIGN (R213–R216, R280, R281) -/

/-- ALIGN_OUT of a port is high: 16 ACLK cycles from its last rise (R280). -/
def alignOut (s : State) (p : Nat) : Bool := (getPort s p).alignRise.any (fun t => decide (s.tid.toNat < t.toNat + 16 ∧ t.toNat ≤ s.tid.toNat))

/-- ALIGN_DRIVE (R213, R280): at the next grid step the ports to the children rise. -/
def execAlignDrive (s : State) : Out := clocked s <|
  let kids := (s.ports.filter (fun e => e.2.child)).map (·.1)
  .next (if kids.isEmpty then s
    else
      let s1 := if s.tid.toNat % 61440 = 0 then s
        else if s.dom.step.isSome then timeStep s else clockTo (50 * nextGrid s.tid.toNat) s
      forAll kids (fun p t => updPort t p (fun q => { q with alignRise := some t.tid })) s1)

/-- The multiple of 61,440 nearest to a time. -/
def nearestGrid (t : Int) : Int := (t + 30720) / 61440 * 61440

/-- The ALIGN delay of a port in ACLK cycles, rounded to the nearest (R268). -/
def alignD (s : State) (p : Nat) : Nat := ((getPort s p).alignDelay.toNat + 12) / 25

/-- R214, R215: the correction of a measured error. [DEDUCED: log 60] -/
def applyError (e : Int) (s : State) : State :=
  let s1 : State :=
    { s with
      dom := { s.dom with
               misses := 0
               joinT := none
               dstate := if s.dom.dstate = 4 ∨ s.dom.joinT.isSome then 2 else s.dom.dstate } }
  if e = 0 then s1
  else if e.natAbs ≤ 24 then bump uModule 0 { s1 with dom := { s1.dom with slew := e } }
  else
    forAll (List.range 8) (fun g t =>
      if (getEngine t g).tide.active then
        updEngine t g (fun x => { x with tide := { x.tide with forceLate := true } }) else t)
      { s1 with dom := { s1.dom with step := some e } }

/-- ALIGN_PULSE (R214, R215, R281): the follower sees a rising edge when its TID_TIME is `tr`. [DEDUCED: log 60] -/
def execAlignPulse (tr : BitVec 64) (s : State) : Out := clocked s <|
  let t : Int := (tr.toNat : Int) - alignD s s.dom.parentPort.toNat
  .next (if !s.dom.en then s
    else match s.dom.joinT with
      | some j => applyError (t - j.toNat) (clockTo (50 * tr.toNat) s)
      | none =>
        let e := t - nearestGrid t
        if (s.dom.dstate = 2 ∨ s.dom.dstate = 4) ∧ e.natAbs ≤ 2048 then applyError e (clockTo (50 * tr.toNat) s) else s)

/-- ALIGN_MISS (R216): a missing pulse; 8 in a row lose the alignment, 400 the membership. -/
def execAlignMiss (s : State) : Out := clocked s <|
  .next (if !s.dom.en ∨ (s.dom.dstate ≠ 2 ∧ s.dom.dstate ≠ 4) then s
    else
      let n := s.dom.misses + 1
      let s1 := bump uModule 2 { s with dom := { s.dom with misses := n } }
      if n = 8 then
        logAt (uPort s.dom.parentPort.toNat) (mkRec 0x0703 2 (uPort s.dom.parentPort.toNat) none noTide [(2, n)])
          { s1 with dom := { s1.dom with dstate := 4 } }
      else if n = 400 then { s1 with dom := { s1.dom with dstate := 1, misses := 0 } }
      else s1)

/-! ### Links with a retry buffer (R223–R227) -/

def linkKey (g dir : Nat) : Nat := 2 * g + dir
def getTx (r : Bridge) (k : Nat) : LinkTx := tget LinkTx.init r.tx k
def getRx (r : Bridge) (k : Nat) : LinkRx := tget LinkRx.init r.rx k
def updTx (b k : Nat) (f : LinkTx → LinkTx) (s : State) : State :=
  updBridge s b (fun r => { r with tx := tupd LinkTx.init r.tx k f })
def updRx (b k : Nat) (f : LinkRx → LinkRx) (s : State) : State :=
  updBridge s b (fun r => { r with rx := tupd LinkRx.init r.rx k f })

/-- A frame number `x` lies at or after the next one within a window of `w`, for numbers modulo `m`. -/
def ahead (m w next x : Nat) : Bool := decide ((x + m - next % m) % m < w)

/-- R104, R228: the credits of a group by VC and lane: the depths of an attach router. -/
def shiDepth (v : Nat) : Nat := [8, 4, 16, 8, 32, 8, 16, 8].getD v 0

/-- The VC and lane of a packet on a group: as it stands, or as its bridge puts it into the mesh. -/
def shiVc (p : Packet) : Nat := 2 * p.sb.vc.toNat + p.sb.lane.toNat

/-- `n` more flits are sent on VC (and lane) `v`; `n` credits come back for it. -/
def owe (v n : Nat) (tx : LinkTx) : LinkTx := { tx with owed := tset 0 tx.owed v (tget 0 tx.owed v + n) }
/-- [DESIGN CHOICE: log 190] -/
def repay (v n : Nat) (tx : LinkTx) : LinkTx := { tx with owed := tset 0 tx.owed v (tget 0 tx.owed v - n) }

/-- The next flit that a sender puts into its buffer: of the packet that it is sending, or of the next one that waits. -/
def nextFlit (waiting : Option (Nat × Nat)) (tx : LinkTx) (flits : Nat → Nat) : Option (Nat × Nat × Bool) :=
  match tx.cur with
  | some (p, i) => some (p, i, decide (i + 1 = flits p))
  | none => waiting.map (fun w => (w.1, 0, decide (w.2 = 1)))

/-- The sender after it has sent one more flit. -/
def sentFlit (m : Nat) (f : Nat × Nat × Bool) (tx : LinkTx) : LinkTx :=
  { tx with
    retry := tx.retry ++ [(tx.next % m, some f)]
    next := (tx.next + 1) % m
    cur := if f.2.2 then none else some (f.1, f.2.1 + 1) }

/-- The acknowledgement of every frame up to `seq` (R224, R227). -/
def takeAck (seq : Nat) (tx : LinkTx) : LinkTx :=
  match tx.retry.findIdx? (fun e => e.1 = seq) with
  | none => tx
  | some i =>
    { tx with
      retry := tx.retry.drop (i + 1)
      mark := tx.mark - (i + 1)
      fails := if tx.mark < i + 1 then 0 else tx.fails }

/-- A replay starts (R226, R227): one failure more, and every frame of the buffer was sent before it. -/
def replay (tx : LinkTx) : LinkTx := { tx with fails := tx.fails + 1, mark := tx.retry.length }

/-! ### The SHI -/

/-- The attach index by which a packet leaves its bridge for the wafer (R110, R112, R232). -/
def egressIndex (s : State) (b : Nat) (p : Packet) : Nat :=
  liveAttach s b (match p.sb.kind.toNat with
    | 2 => p.sb.dstCore.toNat / 32 % 4
    | 0 => p.sb.dstCore.toNat / 512 % 4
    | _ => p.sb.dstCore.toNat % 4)

/-- The whole packets that wait for a group in a direction, in order (R221). -/
def shiWaiting (s : State) (b g dir : Nat) : List Packet :=
  s.packets.filter (fun p =>
    if dir = 0 then decide (p.loc = .shore b g)
    else (decide (p.loc = .bridge b) || (decide (p.loc = .wm (b / 2)) && decide (b % 2 = 0)
            && decide (tget 0 (getBridge s b).moved p.serial = p.flits)))
          && decide (egressIndex s b p = g))

/-- R113, R259, R430: the packet as a bridge puts it into the mesh. -/
def reinjected (s : State) (b g : Nat) (p : Packet) : Packet :=
  let own := decide (p.sb.dstModule.toNat = ownModule s) && decide (p.sb.kind = 1)
  atSource s (attachKey b g)
    { p with
      sb :=
        { p.sb with
          dstCore := if own then relocCore s p.sb.dstCore else p.sb.dstCore
          phase := 0
          walks := 0 } }

/-- A packet as a group carries it in a direction, for its VC and lane. -/
def onGroup (s : State) (b g dir : Nat) (p : Packet) : Packet := if dir = 0 then p else reinjected s b g p

/-- A group's sender holds a credit for a flit of the packet (R228). -/
def shiCredit (s : State) (b g dir : Nat) (p : Packet) : Bool :=
  let v := shiVc (onGroup s b g dir p)
  decide (tget 0 (getTx (getBridge s b) (linkKey g dir)).owed v < shiDepth v)

/-- The flits of a packet by its serial. -/
def flitsOf (s : State) (n : Nat) : Nat := ((s.packets.find? (fun p => p.serial = n)).map (·.flits)).getD 0

/-- Packets of which a sender has not yet put a flit into its buffer. -/
def fresh (tx : LinkTx) (ps : List Packet) : Option (Nat × Nat) :=
  (ps.find? (fun p => !tx.retry.any (fun e => e.2.any (fun f => f.1 = p.serial)))).map (fun p => (p.serial, p.flits))

/-- The sender has sent frames up to number `x`, as one that arrived shows; `n` bounds the buffer. -/
def fillTx (b g dir x : Nat) : Nat → State → State
  | 0, s => s
  | n + 1, s =>
    let tx := getTx (getBridge s b) (linkKey g dir)
    if 64 ≤ tx.retry.length ∨ (x + 128 - tx.next % 128) % 128 ≥ 64 then s
    else match nextFlit (fresh tx ((shiWaiting s b g dir).filter (shiCredit s b g dir))) tx (flitsOf s) with
      | none => s
      | some f =>
        match s.packets.find? (fun p => p.serial = f.1) with
        | none => s
        | some p =>
          if shiCredit s b g dir p then
            fillTx b g dir x n (updTx b (linkKey g dir) (fun tx => owe (shiVc (onGroup s b g dir p)) 1 (sentFlit 128 f tx)) s)
          else s

/-- R227: a group that reaches its retry limit takes the bridge down. -/
def retryLimit (b g k : Nat) (s : State) : State :=
  if (getTx (getBridge s b) k).fails < 8 then s
  else updBridge s b (fun r => { r with shiState := 5, cause := 3, failGrp := BitVec.ofNat 2 g })

/-- The acknowledgement fields of a good frame, for the sender at this end (R225, R226). -/
def takeAckFields (b g k : Nat) (f : ShiFrame) (s : State) : State :=
  let s1 := if f.ackv then updTx b k (takeAck f.ackseq.toNat) s else s
  if !f.nak then s1
  else
    let n := (getTx (getBridge s1 b) k).retry.length
    retryLimit b g k (bumpBy (uBridge b) (12 + g) n (bump (uBridge b) (8 + g) (updTx b k replay s1)))

/-- R277: the tenant of a packet for another module is translated at the egress bridge. -/
def translated (s : State) (p : Packet) : Packet :=
  if p.sb.dstModule.toNat = ownModule s then p
  else
    { p with
      sb :=
        { p.sb with
          tenant := (tget 0 s.dom.funcMap (16 * p.sb.tenant.toNat + p.sb.dstModule.toNat)).setWidth 5 } }

/-- A block for an egress endpoint (R246). -/
def isEgress (s : State) (p : Packet) : Bool :=
  decide (p.sb.dstModule.toNat = ownModule s) && decide (p.sb.kind = 2) && decide (p.sb.channel ≠ 0xFFF)
    && decide (0x3FC00 ≤ p.sb.dstCore.toNat)

/-- Where a packet goes that has come from the wafer into bridge `b`: egress and relays stay, what is bound for an engine is
there, the rest goes on to the bridge's Xeulend port. -/
def fromWafer (s : State) (b : Nat) (p : Packet) : Packet :=
  let p1 := translated s p
  if isEgress s p ∨ p.purpose = 6 then { p1 with loc := .arrived b }
  else match p.payload with
    | .xfer h _ => { p1 with loc := if h.op = 5 ∨ b % 2 = 1 then .arrived b else .xl (b / 2) }
    | _ => { p1 with loc := .xl (b / 2) }

/-- One flit of a packet taken in at the far end of a group (R225, R244, R247). -/
def acceptFlit (b g dir : Nat) (f : Nat × Nat × Bool) (s : State) : State :=
  match s.packets.find? (fun p => p.serial = f.1) with
  | none => s
  | some p =>
    if dir = 0 then
      let s1 := if isEgress s p then updBridge s b (fun r =>
          { r with
            tail := tset [] r.tail g (tget [] r.tail g ++ [f.1])
            tailSince := if (tget [] r.tail g).isEmpty then tset 0 r.tailSince g s.cclk else r.tailSince }) else s
      if f.2.2 then movePacket (fromWafer s b p) s1 else s1
    else
      let s1 := if p.loc = .wm (b / 2) then updBridge s b (fun r => { r with wmCount := r.wmCount - 1 }) else s
      if f.2.2 then
        movePacket { reinjected s b g p with loc := .router (attachKey b g) 6 }
          (updBridge s1 b (fun r => { r with moved := tset 0 r.moved p.serial 0 }))
      else s1

/-- R244: HOLD after a change of the watermark FIFO's occupancy. -/
def settleHold (b : Nat) (s : State) : State :=
  let r := getBridge s b
  let hold := if r.wmHigh.toNat ≤ r.wmCount then true else if r.wmCount ≤ r.wmLow.toNat then false else r.wmHold
  (if hold && !r.wmHold then bump (uBridge b) 24 else id) (updBridge s b (fun r => { r with wmHold := hold }))

/-- The tail-timeout FIFO has room for a flit. -/
def tailRoom (s : State) (b g : Nat) : Bool := decide ((tget [] (getBridge s b).tail g).length < 256)

/-- A good sequenced frame in order (R223, R225, R228): its credits come back, and its flit, if it carries one, is taken in.
[DESIGN CHOICE: log 190] -/
def acceptFrame (b g dir : Nat) (f : ShiFrame) (s : State) : State :=
  let k := linkKey g dir
  let next (t : State) : State :=
    takeAckFields b g (linkKey g (1 - dir)) f (updTx b (linkKey g (1 - dir)) (repay (2 * f.crVc.toNat + f.crLane.toNat) f.crCount.toNat)
      (updRx b k (fun x => { x with expect := (x.expect + 1) % 128, naked := false }) t))
  let tx := getTx (getBridge s b) k
  if f.typ = 2 then
    (if tx.next = f.seq.toNat then
      next (updTx b k (fun x => { x with retry := x.retry ++ [(f.seq.toNat, none)], next := (x.next + 1) % 128 }) s)
    else if tx.retry.any (fun e => e.1 = f.seq.toNat && e.2.isNone) then next s else s)
  else match tx.retry.find? (fun e => e.1 = f.seq.toNat) with
    | some (_, some fl) => if dir = 0 ∧ !tailRoom s b g then s else settleHold b (next (acceptFlit b g dir fl s))
    | _ => s

/-- SHI_FRAME_RECEIVE (R222–R228): the receiver of a direction of group `g` takes one frame.
[DEDUCED: log 180; DESIGN CHOICE: log 193] -/
def execShiFrameReceive (b : Fin 32) (g : Fin 4) (dir : Fin 2) (f : ShiFrame) (s : State) : Out := clocked s <|
  let k := linkKey g.val dir.val
  let drop (t : State) : State := updRx b.val k (fun x => { x with naked := true }) t
  .next (if (getBridge s b.val).shiState ≠ 4 then s
    else if !f.good ∨ f.typ = 3 then drop (bump (uBridge b.val) (2 * g.val + dir.val) s)
    else if f.typ = 0 then takeAckFields b.val g.val (linkKey g.val (1 - dir.val)) f s
    else
      let s1 := if f.typ = 1 then fillTx b.val g.val dir.val f.seq.toNat 64 s else s
      if f.seq.toNat = (getRx (getBridge s1 b.val) k).expect then acceptFrame b.val g.val dir.val f s1 else drop s1)

/-- SHI_ACK_TIMEOUT (R226, R227): the sender of a direction replays every frame that is not acknowledged. -/
def execShiAckTimeout (b : Fin 32) (g : Fin 4) (dir : Fin 2) (s : State) : Out := clocked s <|
  let k := linkKey g.val dir.val
  let n := (getTx (getBridge s b.val) k).retry.length
  .next (if (getBridge s b.val).shiState ≠ 4 ∨ n = 0 then s
    else retryLimit b.val g.val k (bumpBy (uBridge b.val) (12 + g.val) n (bump (uBridge b.val) (16 + g.val)
      (updTx b.val k replay s))))

/-- SHI_TRAINING (R230): a training state exits; a wire that fails deskew takes the SHI down. -/
def execShiTraining (b : Fin 32) (ok : Bool) (s : State) : Out := clocked s <|
  .next (settleStandby (updBridge s b.val (fun r =>
    if 3 < r.shiState.toNat then r
    else if !ok then (if r.shiState = 2 then { r with shiState := 5, cause := 2 } else r)
    else { r with shiState := r.shiState + 1, tx := [], rx := [] })))

/-- SHI_TRAIN_TIMEOUT (R230). -/
def execShiTrainTimeout (b : Fin 32) (s : State) : Out := clocked s <|
  .next (updBridge s b.val (fun r =>
    if 1 ≤ r.shiState.toNat ∧ r.shiState.toNat ≤ 3 then { r with shiState := 5, cause := 1 } else r))

/-- A Xeulend port goes DOWN with a cause (R266, R267, R269, R283). -/
def portDown (p cause : Nat) (s : State) : State :=
  updPort s p (fun q =>
    if q.pstate = 6 then q
    else
      { q with
        pstate := 6
        cause := BitVec.ofNat 3 cause
        downUs := nowUs s
        carries := false
        downDone := false
        domainOk := false
        advert := none
        tx := []
        rx := [] })

/-- BRIDGE_DOWN (R231): what follows when a bridge's SHI is DOWN. -/
def execBridgeDown (b : Fin 32) (s : State) : Out := clocked s <|
  let r := getBridge s b.val
  .next (if r.shiState ≠ 5 ∨ r.downDone then s
    else
      let s1 := updBridge (fenceLive (uBridge b.val) s) b.val (fun r =>
        { r with
          downDone := true
          tx := []
          rx := []
          tail := []
          moved := []
          staged := []
          pack := []
          wmCount := 0
          wmHold := false })
      let s2 := { s1 with packets := s1.packets.filter (fun p => match p.loc with
        | .shore i _ => i ≠ b.val
        | .bridge i => i ≠ b.val
        | .arrived i => i ≠ b.val
        | .wm q => portBridge q ≠ b.val
        | _ => true) }
      let s3 := if b.val % 2 = 0 then portDown (b.val / 2) 5 s2 else s2
      settleStandby (notifyAll (fun n => .bridgeDown n b.val)
        (logAt (uBridge b.val) (mkRec 0x0801 2 (uBridge b.val) none noTide
          [(1, b.val), (1, r.cause.toNat), (1, r.failGrp.toNat)]) s3)))

/-- The state as it was with port `p` still ACTIVE: for what was carried on it. -/
def withPort (p : Nat) (s : State) : State := updPort s p (fun q => { q with pstate := 5, carries := true })

/-- The bridge by which a slot's channel leaves the wafer, if it does (R110, R246, R271, R276). -/
def slotBridge (s : State) (key : Nat) (sl : Slot) : Option Nat :=
  if sl.kind = 0 then none
  else if sl.module.toNat ≠ ownModule s then (tget none s.dom.route sl.module.toNat).map (fun q => portBridge q.toNat)
  else if sl.kind ≠ 2 then none
  else if 0x3FC00 ≤ sl.dst.toNat then egressBridge s (coreIdOf s key) sl.dst.toNat
  else some (portBridge (harbourVia s (sl.dst.toNat / 65536) (sl.dst.toNat / 2048 % 32)))

/-- BRIDGE_DOWN_NOTICE (R97, R231). -/
def execBridgeDownNotice (region : Fin 512) (s : State) : Out := clocked s <|
  let n := region.val
  let pick (c : Ctl) : Option Nat := match c with
    | .bridgeDown r b => if r = n then some b else none
    | _ => none
  .next (match takeCtl pick s with
    | none => s
    | some (b, t) =>
      let before := if b % 2 = 0 then withPort (b / 2) t else t
      breakAndNote n (fun key sl => slotBridge before key sl = some b) t)

/-- GROUP_OUT (R232): the group of a fenced attach router is out, from the next boundary; the last group takes the bridge
with it. [DEDUCED: log 57] -/
def execGroupOut (b : Fin 32) (g : Fin 4) (s : State) : Out := clocked s <|
  let r := getBridge s b.val
  let all := r.grpOut ||| r.grpDue ||| (1#4 <<< g.val)
  .next (if usable s (uRouter (attachKey b.val g.val)) ∨ (r.grpOut ||| r.grpDue).getLsbD g.val then s
    else
      logAt (uBridge b.val) (mkRec 0x0802 2 (uBridge b.val) none noTide [(1, b.val), (1, g.val)])
        (updBridge s b.val (fun r =>
          { r with
            grpDue := r.grpDue ||| (1#4 <<< g.val)
            shiState := if all = 15 then 5 else r.shiState })))

/-! ### Inject (R242, R243) -/

/-- A packet put into a bridge, to be sent to the wafer. -/
def bridgeSend (b : Nat) (sb : Sideband) (h : BlkHdr) (body : List Byte) (purpose : Nat) (s : State) : State :=
  inject
    { serial := 0
      sb := sb
      flits := 33
      loc := .bridge b
      payload := .block h body
      purpose := purpose
      srcCore := h.srcCore
      srcModule := h.srcModule } s

/-- The words of 64 B that the packing FIFO takes from a stream's output, up to `n`; the last word of the frame is closed. -/
def packWords (stream : Nat) : Nat → List Byte → List PackWord × List Byte
  | 0, bs => ([], bs)
  | n + 1, bs =>
    if bs.isEmpty then ([], [])
    else if bs.length ≤ 64 then
      ([{ stream := stream, bytes := padTo 64 bs, valid := bs.length, last := true }], [])
    else
      let r := packWords stream n (bs.drop 64)
      ({ stream := stream, bytes := bs.take 64, valid := 64, last := false } :: r.1, r.2)

/-- The streams whose Condition stage is on bridge `b` and that hold output, in stream-number order (R241). -/
def condStreams (s : State) (b : Nat) : List Nat := streamsWhere s (fun x => x.running && condBridge s x = some b && !x.cond.isEmpty)

/-- Condition fills the packing FIFO. -/
def refill (b : Nat) (s : State) : State :=
  forAll (condStreams s b) (fun n t =>
    match getStream t n with
    | none => t
    | some x =>
      let w := packWords n (64 - (getBridge t b).pack.length) x.cond
      updStream (updBridge t b (fun r => { r with pack := r.pack ++ w.1 })) n (fun x => { x with cond := w.2 })) s

/-- The block that one part of a stream's ingress frame makes (R235, R242). [DEDUCED: log 54] -/
def injectPart (b n : Nat) (x : Stream) (ws : List PackWord) (s : State) : State :=
  match shoreOf s x.inEng (audioField x 0x18 2) false with
  | none => s
  | some rec =>
    let data := ws.flatMap (fun w => w.bytes.take w.valid)
    let feat := audioField x 3 1
    let bins := if feat = 0 then 0 else if audioField x 8 1 = 0 then 80 else 128
    let body := frameBody (audioField x 0x18 2) (audioField x 0x1A 2) x.tide (if feat = 0 then 2 else 4)
      (if x.noInput then 1 else 0) x.condPart x.condParts (data.length / 2) bins data
    let dst := relocCore s rec.core
    let sb : Sideband :=
      { vc := 2
        kind := 1
        dstCore := dst
        dstModule := BitVec.ofNat 4 (ownModule s)
        tenant := BitVec.ofNat 5 x.fn
        tide := x.tide
        block := true }
    let h := { rawBlock s (BitVec.ofNat 18 b) (BitVec.ofNat 16 (audioField x 0x0E 2)) x.tide x.condPart body with untided := false }
    updStream (bridgeSend b sb h body 0 s) n (fun x => { x with condPart := x.condPart + 1 })

/-- INJECT (R242): the next ingress block of a bridge. -/
def execInject (b : Fin 32) (s : State) : Out := clocked s <|
  let s1 := refill b.val s
  .next (match (getBridge s1 b.val).pack with
    | [] => s1
    | w :: _ =>
      match getStream s1 w.stream with
      | none => updBridge s1 b.val (fun r => { r with pack := r.pack.filter (fun v => v.stream ≠ w.stream) })
      | some x =>
        let mine := (getBridge s1 b.val).pack.takeWhile (fun v => v.stream = w.stream)
        let n := match mine.findIdx? (·.last) with
          | some i => min (i + 1) (partWords x)
          | none => partWords x
        injectPart b.val w.stream x (mine.take n) (updBridge s1 b.val (fun r => { r with pack := r.pack.drop n })))

/-! ### Relays (R220) -/

/-- A relay's blocks from one bridge to another: whole samples or PCM bytes in parts of at most 1,984 B.
[DEDUCED: log 54, 55] -/
def relayBlocks (src dst attach ep sub : Nat) (tide : Word) (format size : Nat) (fn : Nat) (data : List Byte) (s : State) : State :=
  let cut := 1984 / (size * 64) * (size * 64)
  let ps := pieces cut 16 data
  let sb : Sideband :=
    { vc := 2
      kind := 2
      dstCore := BitVec.ofNat 18 (dst + 32 * attach)
      dstModule := BitVec.ofNat 4 (ownModule s)
      tenant := BitVec.ofNat 5 fn
      tide := noTide
      block := true }
  forAll ps.zipIdx (fun x t =>
    let body := frameBody ep sub tide format 0 x.2 ps.length (x.1.length / size) 0 x.1
    bridgeSend src sb (rawBlock t (BitVec.ofNat 18 src) 0 noTide x.2 body) body 6 t) s

/-- The first frame of a stream whose input waits for its relay. -/
def relayFrame (x : Stream) : Option Nat := x.queue.findIdx? (fun f => f.input.isSome && !f.ready && !f.relayed)

/-- The input relay of a stream's next frame. [DEDUCED: log 55] -/
def relayInput (n : Nat) (x : Stream) (s : State) : State :=
  match relayFrame x, condBridge s x with
  | some i, some b =>
    let size := 2 + audioField x 1 1
    let tide := (getEngine s x.engine.val).tide.num
    let attach := ((shoreOf s x.inEng (audioField x 0x18 2) false).map (fun r => r.core.toNat % 4)).getD 0
    let data := (((x.queue[i]?).bind (·.input))).getD []
    relayBlocks (fnBridge s x.fn) b attach (audioField x 0x18 2) (audioField x 0x1A 2) tide (audioField x 1 1) size x.fn data
      (updStream s n (fun x => { x with queue := x.queue.modify i (fun f => { f with relayed := true }), partsIn := [] }))
  | _, _ => s

/-- The output relay of a stream's delivered frame. -/
def relayOutput (n : Nat) (x : Stream) (s : State) : State :=
  match dlvBridge s x, x.output with
  | some b, some data =>
    if !x.delivered ∨ x.outSent ∨ !outRelayDue s x then s
    else
      let attach := ((shoreOf s x.outEng (audioField x 0x1C 2) true).map (fun r => r.core.toNat % 4)).getD 0
      relayBlocks b (fnBridge s x.fn) attach (audioField x 0x1C 2) (audioField x 0x1E 2) x.tide (audioField x 0x15 1)
        (2 + audioField x 0x15 1) x.fn data (updStream s n (fun x => { x with outSent := true }))
  | _, _ => s

/-- RELAY (R220): an input frame to the Condition bridge, or an output frame to the Complete bridge. -/
def execRelay (n : Fin 4096) (output : Bool) (s : State) : Out := clocked s <|
  .next (match getStream s n.val with
    | none => s
    | some x => if output then relayOutput n.val x s else relayInput n.val x s)

/-- The stream of an input relay's descriptor at bridge `b`, and of an output relay's. -/
def relayStream (s : State) (b ep sub : Nat) : Option (Nat × Bool) :=
  match (streamsWhere s (fun x => condBridge s x = some b && audioField x 0x18 2 = ep && audioField x 0x1A 2 = sub
      && x.queue.any (fun f => f.relayed && !f.ready))).head? with
  | some n => some (n, false)
  | none => ((streamsWhere s (fun x => fnBridge s x.fn = b && audioField x 0x1C 2 = ep && audioField x 0x1E 2 = sub
      && x.outSent && !x.relayOut)).head?).map (fun n => (n, true))

/-- A part of an input relay: the frame lies complete in the Condition bridge with its last (R220, R397). -/
def takeInputPart (x : Stream) (part parts : Nat) (data : List Byte) (bad : Bool) : Stream :=
  match x.queue.findIdx? (fun f => f.relayed && !f.ready) with
  | none => x
  | some i =>
    let got := x.partsIn ++ [(part, data)]
    let whole := decide (got.length = parts)
    let bytes := (List.range parts).flatMap (fun k => ((got.find? (fun g => g.1 = k)).map (·.2)).getD [])
    { x with
      partsIn := if whole then [] else got
      queue := x.queue.modify i (fun f =>
        let lost := f.lost || (bad && x.policy ≠ 0)
        { f with
          ready := whole
          taint := f.taint || (bad && x.policy = 0)
          lost := lost
          halt := f.halt || (bad && x.policy = 2)
          input := if !whole then f.input else if lost then none else some bytes }) }

/-- A part of an output relay (R220, R397): zero samples when it failed under a policy other than FLOW. -/
def takeOutputPart (x : Stream) (part parts : Nat) (data : List Byte) (bad : Bool) : Stream :=
  let got := x.partsOut ++ [(part, data)]
  let whole := decide (got.length = parts)
  let zero := bad && x.policy ≠ 0
  let bytes := (List.range parts).flatMap (fun k => ((got.find? (fun g => g.1 = k)).map (·.2)).getD [])
  { x with
    partsOut := got
    relayOut := whole
    late := x.late || zero
    tainted := x.tainted || (bad && x.policy = 0)
    output := if whole then (if x.late || zero then x.output.map (fun o => if zero then List.replicate o.length 0 else bytes)
      else some bytes) else (if zero then x.output.map (fun o => List.replicate o.length 0) else x.output) }

/-- RELAY_RECEIVE (R220, R388, R393): a relay block is verified at its bridge. -/
def execRelayReceive (b : Fin 32) (s : State) : Out := clocked s <|
  .next (match s.packets.find? (fun p => p.loc = .arrived b.val && p.purpose = 6) with
    | none => s
    | some p =>
      let s1 := removePacket p.serial s
      match p.payload with
      | .block h body =>
        let sum := crc32c body
        let bad := decide (sum ≠ h.check)
        match relayStream s b.val (field body 0 2) (field body 2 2) with
        | none => s1
        | some (n, out) =>
          match getStream s n with
          | none => s1
          | some x =>
            let point := if out then 3 else 2
            let s2 := if bad then
                bump (uBridge b.val) bRelayFail (logCheckFail (uBridge b.val) (uBridge b.val) (some x.fn) h sum point 0 0
                  (reportTaint b.val n point x (BitVec.ofNat 32 (field body 4 4)) s1))
              else s1
            let data := (body.drop 64).take (field body 12 2)
            let halt := bad && decide (x.policy = 2) && out
            let s3 := if halt then
                updEngine s2 x.engine.val (fun g => { g with tide := { g.tide with halt := g.tide.halt || !g.tide.guard } })
              else s2
            updStream s3 n (fun x =>
              if out then takeOutputPart x (field body 10 1) (field body 11 1) data bad
              else takeInputPart x (field body 10 1) (field body 11 1) data bad)
      | _ => s1)

/-! ### Watermark FIFOs (R244, R245) -/

/-- TRANSFER_FLIT_ARRIVAL (R244, R245): the next flit of the packet that arrives enters the FIFO, or finds it full. -/
def execTransferFlitArrival (p : Fin 16) (s : State) : Out := clocked s <|
  let b := portBridge p.val
  .next (match s.packets.find? (fun q => q.loc = .wm p.val && decide (tget 0 (getBridge s b).moved q.serial < q.flits)) with
    | none => s
    | some q =>
      let m := tget 0 (getBridge s b).moved q.serial
      if 1024 ≤ (getBridge s b).wmCount then
        settleHold b (bump (uBridge b) 26 (logAt (uBridge b) (mkRec 0x0803 1 (uPort p.val) none noTide [(1, p.val)])
          (removePacket q.serial (updBridge s b (fun r =>
            { r with
              wmCount := r.wmCount - m
              moved := tset 0 r.moved q.serial 0 })))))
      else
        let here : Bool := match q.payload with
          | .xfer h _ => decide (h.op = 5) && decide (q.sb.dstCore.toNat % 32 = b)
          | _ => false
        let s1 := updBridge s b (fun r =>
          { r with
            wmCount := r.wmCount + 1
            moved := tset 0 r.moved q.serial (m + 1) })
        settleHold b (if m + 1 = q.flits ∧ here then
            movePacket { q with loc := .arrived b } (updBridge s1 b (fun r =>
              { r with
                wmCount := r.wmCount - q.flits
                moved := tset 0 r.moved q.serial 0 }))
          else s1))

/-! ### Tail-timeout FIFOs and staging (R247, R248) -/

/-- TAIL_BURST_MOVE (R247). -/
def execTailBurstMove (b : Fin 32) (g : Fin 4) (s : State) : Out := clocked s <|
  let r := getBridge s b.val
  .next (if r.tailBurst.toNat ≤ (tget [] r.tail g.val).length then moveTail b.val g.val r.tailBurst.toNat s else s)

/-- TAIL_TIMER_MOVE (R247): TIMEOUT SCLK cycles after the last move, or since a flit came. [DEDUCED: log 58] -/
def execTailTimerMove (b : Fin 32) (g : Fin 4) (s : State) : Out := clocked s <|
  let r := getBridge s b.val
  let d := (tget [] r.tail g.val).length
  .next (if d = 0 ∨ r.tailBurst.toNat ≤ d then s
    else
      let due := tget 0 r.tailSince g.val + 2 * r.tailTimeout.toNat
      bump (uBridge b.val) (20 + g.val) (moveTail b.val g.val d (clockTo (tcycle s + (due - s.cclk)) s)))

/-- EGRESS_BLOCK_PLACE (R248). -/
def execEgressBlockPlace (b : Fin 32) (s : State) : Out := clocked s <|
  .next (match wholeEgress s b.val with
    | none => s
    | some p => placeEgress b.val p s)

/-- DELIVER (R250). -/
def execDeliver (n : Fin 4096) (s : State) : Out := clocked s <| .next (deliverStream n.val s)

/-- FRAME_COMPLETE (R371). -/
def execFrameComplete (n : Fin 4096) (s : State) : Out := clocked s <| .next (completeStream n.val s)

end Sys2Proof.Machine
end

