-- ==== Sys2Proof/Machine/Xeulend.lean ====
section
/-! DEFINITION. Machine/Xeulend.lean: the rows of the Xeulend ports and of tide domains (R257–R284). -/

namespace Sys2Proof.Machine

open Sys2Proof

/-! ### Senders (R260–R265) -/

def getXtx (q : Port) (dir : Nat) : LinkTx := tget LinkTx.init q.tx dir
def getXrx (q : Port) (dir : Nat) : LinkRx := tget LinkRx.init q.rx dir
def updXtx (p dir : Nat) (f : LinkTx → LinkTx) (s : State) : State :=
  updPort s p (fun q => { q with tx := tupd LinkTx.init q.tx dir f })
def updXrx (p dir : Nat) (f : LinkRx → LinkRx) (s : State) : State :=
  updPort s p (fun q => { q with rx := tupd LinkRx.init q.rx dir f })

/-- The transmitter's transfer traffic is stopped by HOLD (R262): the far end's HOLD_N_IN for this module's, this port's HOLD for
the far end's. -/
def heldXfer (s : State) (p dir : Nat) : Bool :=
  if dir = 0 then (getBridge s (portBridge p)).holdIn else (getBridge s (portBridge p)).wmHold

/-- Packets that wait at a transmitter, are not in its buffer, and may be started (R260, R262). -/
def xlWaiting (s : State) (p dir : Nat) : List Packet :=
  let tx := getXtx (getPort s p) dir
  s.packets.filter (fun k =>
    decide (k.loc = if dir = 0 then .xl p else .farOut p) && !tx.retry.any (fun e => e.2.any (fun f => f.1 = k.serial))
      && !(isXfer k && heldXfer s p dir) && xlCredit tx k)

/-- The weights of a bridge: those of the region where it attaches (R261). -/
def bridgeWeights (s : State) (b : Nat) : Nat × Nat :=
  let r := getRegion s (bridgeSite b).1
  (r.w1.toNat, r.w2.toNat)

/-- R261: the packet that a transmitter starts next. -/
def xlNext (s : State) (p dir : Nat) : Option Packet :=
  let ps := xlWaiting s p dir
  let w := bridgeWeights s (portBridge p)
  let q := getPort s p
  let vc (n : Nat) : Option Packet := ps.find? (fun k => k.sb.vc.toNat = n && !isXfer k)
  let old := ps.find? (fun k => k.sb.vc = 3 && decide (k.since + 128 ≤ s.cclk))
  let shared := if (vc 1).isSome && ((vc 2).isNone || decide (q.sent1 < w.1) || decide (w.2 ≤ q.sent2)) then vc 1 else vc 2
  (vc 0).or (old.or (shared.or ((ps.find? isXfer).or (vc 3))))

/-- The turn of VC1 and VC2 after a packet has been started. -/
def xlTurn (w : Nat × Nat) (k : Packet) (q : Port) : Port :=
  if isXfer k ∨ (k.sb.vc ≠ 1 ∧ k.sb.vc ≠ 2) then q
  else
    let fresh := decide (w.1 ≤ q.sent1) && decide (w.2 ≤ q.sent2)
    let n1 := if fresh then 0 else q.sent1
    let n2 := if fresh then 0 else q.sent2
    if k.sb.vc = 1 then { q with sent1 := n1 + k.flits, sent2 := n2 } else { q with sent1 := max n1 w.1, sent2 := n2 + k.flits }

/-- Bytes of a retry buffer: each unit with its header (R258, R264). -/
def xlBytes (s : State) (tx : LinkTx) : Nat := (tx.retry.map (fun e => 16 + (e.2.map (fun f => 64 * flitsOf s f.1)).getD 0)).sum

/-- The transmitter has started units up to number `x`, as one that arrived shows (R264). -/
def fillXl (p dir x : Nat) : Nat → State → State
  | 0, s => s
  | n + 1, s =>
    let tx := getXtx (getPort s p) dir
    if 2048 ≤ tx.retry.length ∨ (x + 4096 - tx.next % 4096) % 4096 ≥ 2048 then s
    else match xlNext s p dir with
      | none => s
      | some k =>
        if 131072 < xlBytes s tx + 16 + 64 * k.flits then s
        else fillXl p dir x n (updPort (updXtx p dir (fun tx =>
          owe k.sb.vc.toNat (if isXfer k then 0 else k.flits)
            { tx with
              retry := tx.retry ++ [(tx.next % 4096, some (k.serial, 0, true))]
              next := (tx.next + 1) % 4096 }) s) p (xlTurn (bridgeWeights s (portBridge p)) k))

/-- R266: at 8 consecutive failures the port goes DOWN. -/
def xlLimit (p dir : Nat) (s : State) : State := if (getXtx (getPort s p) dir).fails < 8 then s else portDown p 2 s

/-- A control unit's credits and acknowledgement, for the sender at this end (R260, R265). -/
def xlAck (p dir : Nat) (u : XlUnit) (s : State) : State :=
  let s0 := updXtx p dir (repay u.vc.toNat u.credits.toNat) s
  let s1 := if u.ackv then updXtx p dir (takeAck u.ackseq.toNat) s0 else s0
  if !u.nak then s1
  else
    let n := (getXtx (getPort s1 p) dir).retry.length
    xlLimit p dir (bumpBy (uPort p) 4 n (bump (uPort p) 3 (updXtx p dir replay s1)))

/-! ### Reception (R259, R265, R279) -/

/-- A packet that has crossed the link. -/
def crossXl (p dir : Nat) (k : Packet) (s : State) : State :=
  let b := portBridge p
  if dir = 0 then
    (if (getPort s p).partner = 2 then movePacket { k with loc := .far p } s else removePacket k.serial s)
  else if isXfer k then movePacket { k with loc := .wm p } s
  else
    let here : Bool := match k.payload with
      | .xfer h _ => decide (h.op = 5) && decide (k.sb.dstCore.toNat % 32 = b)
      | _ => false
    movePacket { k with loc := if here then .arrived b else .bridge b } s

/-- What a peer module's unit brings (R259, R279). -/
def takePeer (p : Nat) (u : PeerUnit) (s : State) : State :=
  match u with
  | .packet sb hdr bytes =>
    inject
      { serial := 0
        sb := sb
        flits := match hdr with
          | some _ => 33
          | none => (bytes.length + 63) / 64
        loc := .bridge (portBridge p)
        payload := match hdr with
          | some h => .block h (padTo 2048 bytes)
          | none => .msg bytes
        srcCore := match hdr with
          | some h => h.srcCore
          | none => 0
        srcModule := (getPort s p).identModule } s
  | .syncReq home op obj operand core m eng tenant =>
    sendCtl (.syncReq (relocated s home.toNat) op obj operand core m eng tenant) s
  | .syncAns core obj op result => sendCtl (.syncAns (relocCore s core) obj op result) s
  | .engAns eng obj result => sendCtl (.engAns eng.toNat obj result) s
  | .grantReturn home obj core m lost => sendCtl (.grantReturn (relocated s home.toNat) obj core m lost) s
  | .forfeit core m => { s with ctl := s.ctl ++ (List.range 512).map (fun r => .forfeitCore r core m) }
  | .forfeitRegion region m => { s with ctl := s.ctl ++ (List.range 512).map (fun r => .forfeitPeer r region.toNat m) }

/-- A good sequenced unit in order. -/
def acceptUnit (p dir : Nat) (u : XlUnit) (s : State) : State :=
  let next (t : State) : State := updXrx p dir (fun x => { x with expect := (x.expect + 1) % 4096, naked := false }) t
  let tx := getXtx (getPort s p) dir
  let own (t : State) : State := updXtx p dir (fun x =>
    if x.next = u.seq.toNat then { x with retry := x.retry ++ [(u.seq.toNat, none)], next := (x.next + 1) % 4096 } else x) t
  match u.peer with
  | some v => if dir = 1 ∧ (getPort s p).partner = 1 ∧ (getPort s p).domainOk then takePeer p v (next (own s)) else next (own s)
  | none =>
    if u.typ = 3 then next (own s)
    else match tx.retry.find? (fun e => e.1 = u.seq.toNat) with
      | some (_, some f) =>
        (match s.packets.find? (fun k => k.serial = f.1) with
          | some k => crossXl p dir k (next s)
          | none => next s)
      | _ => s

/-- XL_UNIT_RECEIVE (R257, R258, R265). [DEDUCED: log 180; DESIGN CHOICE: log 193] -/
def execXlUnitReceive (p : Fin 16) (dir : Fin 2) (u : XlUnit) (s : State) : Out := clocked s <|
  let q := getPort s p.val
  let drop (t : State) : State := updXrx p.val dir (fun x => { x with naked := true }) t
  .next (if q.pstate ≠ 5 ∨ q.refused then s
    else
      let s1 := (if u.fec = 1 then bump (uPort p.val) 0 else if u.fec = 2 then bump (uPort p.val) 1 else id)
        ((if u.hcrc then id else bump (uPort p.val) 2) s)
      if u.fec = 2 ∨ !u.hcrc ∨ 4 ≤ u.typ.toNat then drop s1
      else if u.typ = 0 then s1
      else if u.typ = 2 then xlAck p.val (1 - dir.val) u s1
      else
        let s2 := if u.typ = 1 ∧ u.peer.isNone then fillXl p.val dir.val u.seq.toNat 2048 s1 else s1
        if u.seq.toNat = (getXrx (getPort s2 p.val) dir.val).expect then acceptUnit p.val dir.val u s2 else drop s2)

/-- XL_ACK_TIMEOUT (R265, R266). -/
def execXlAckTimeout (p : Fin 16) (dir : Fin 2) (s : State) : Out := clocked s <|
  let n := (getXtx (getPort s p.val) dir.val).retry.length
  .next (if (getPort s p.val).pstate ≠ 5 ∨ n = 0 then s
    else xlLimit p.val dir.val (bumpBy (uPort p.val) 4 n (bump (uPort p.val) 5 (updXtx p.val dir.val replay s))))

/-! ### Training and identity (R267–R270) -/

/-- XL_TRAINING (R267, R269): a training state exits. IDENTIFY exits once IDENT has been exchanged. -/
def execXlTraining (p : Fin 16) (s : State) : Out := clocked s <|
  .next (if (getBridge s (portBridge p.val)).shiState ≠ 4 then s
    else updPort s p.val (fun q =>
      if 4 < q.pstate.toNat ∨ (q.pstate = 4 ∧ q.partner = 0) then q
      else
        { q with
          pstate := q.pstate + 1
          partner := if q.pstate.toNat < 2 then 0 else q.partner
          carries := decide (q.pstate = 4) && noBoundary s && !q.refused && usable s (uPort p.val)
          tx := []
          rx := [] }))

/-- XL_TRAIN_TIMEOUT (R267): EQUALISE, LOCK and IDENTIFY time out to DOWN; DETECT is retried. -/
def execXlTrainTimeout (p : Fin 16) (s : State) : Out := clocked s <|
  .next (if 2 ≤ (getPort s p.val).pstate.toNat ∧ (getPort s p.val).pstate.toNat ≤ 4 then portDown p.val 1 s else s)

/-- R270: a Harbour on a wrong port, a second one in the quad, or one that another quad has; a port that is DOWN as MISWIRED attaches
none. -/
def miswired (s : State) (p : Nat) (i : Ident) : Bool :=
  decide (i.kind = 2) && (decide (i.port.toNat ≠ p % 4)
    || s.ports.any (fun e => decide (e.1 ≠ p) && decide (e.2.partner = 2) && !(decide (e.2.pstate = 6) && decide (e.2.cause = 3))
      && (decide (e.1 / 4 = p / 4) != decide (e.2.serial = i.serial))))

/-- R274: the MODULE has been seen with another serial number, or is this module's own. -/
def moduleTaken (s : State) (p : Nat) (i : Ident) : Bool :=
  decide (i.module = s.dom.module) || s.ports.any (fun e => decide (e.1 ≠ p) && e.2.domainOk
    && decide (e.2.identModule = i.module) && decide (e.2.serial ≠ i.serial))

/-- R274: the partner belongs to the domain. -/
def sameDomain (s : State) (i : Ident) : Bool :=
  s.dom.en && decide (i.kind = 1) && decide (i.domain = s.dom.id) && decide (i.size = s.dom.size)
    && decide (i.module.toNat ≤ s.dom.size.toNat)

/-- R274: what IDENT says of a module's port makes it a domain port, or a CONFLICT. [DEDUCED: log 167] -/
def judgePeer (p : Nat) (i : Ident) (s : State) : State :=
  let clash := sameDomain s i && moduleTaken s p i
  let s1 := updPort s p (fun q => { q with domainOk := sameDomain s i && !clash })
  if clash then
    logAt (uPort p) (mkRec 0x0902 2 (uPort p) none noTide [(1, p), (1, i.module.toNat), (2, 0), (8, i.serial.toNat)])
      { s1 with dom := { s1.dom with dstate := 5 } }
  else s1

/-- IDENT (R268, R270, R274, R288). -/
def execIdent (p : Fin 16) (i : Ident) (t : BitVec 11) (s : State) : Out := clocked s <|
  let alien := decide (i.kind = 2) && (decide (i.part ≠ 0x5B01) || decide (i.major ≠ 1))
  let s1 := updPort s p.val (fun q =>
    { q with
      partner := BitVec.ofNat 2 i.kind.val
      partnerPort := i.port
      serial := i.serial
      identId := i.domain
      identModule := i.module
      identSize := i.size
      identPriority := i.priority
      alignDelay := BitVec.ofNat 10 ((t.toNat - 4) / 2)
      refused := alien
      domainOk := false })
  let s2 := if alien then logAt (uPort p.val) (mkRec 0x0904 2 (uPort p.val) none noTide
      [(1, p.val), (1, i.kind.val), (2, i.part.toNat), (1, i.major.toNat)]) s1 else s1
  .next (if (getPort s p.val).pstate ≠ 4 then s else if miswired s p.val i then portDown p.val 3 s1 else judgePeer p.val i s2)

/-- XL_RETRAIN (R269, R420): a DOWN port trains again, 1 s after it went DOWN and at most 4 times in 24 h. -/
def execXlRetrain (p : Fin 16) (s : State) : Out := clocked s <|
  let q := getPort s p.val
  let wait := q.downUs + 1000000 - nowUs s
  let t := clockTo (tcycle s + (wait * 12288 + 9) / 10) s
  let recent := q.retrainUs.filter (fun u => decide (nowUs t < u + 86400000000))
  .next (if q.pstate ≠ 6 ∨ q.stayDown ∨ !usable s (uPort p.val) ∨ (getBridge s (portBridge p.val)).shiState ≠ 4 then s
    else if 4 ≤ recent.length then updPort t p.val (fun q => { q with stayDown := true })
    else updPort t p.val (fun q =>
      { q with
        pstate := 1
        partner := 0
        cause := 0
        retrainUs := recent ++ [nowUs t] }))

/-- The port on which a slot's channel is carried, if it is (R271, R276). -/
def slotPort (s : State) (sl : Slot) : Option Nat :=
  if sl.kind = 0 then none
  else if sl.module.toNat ≠ ownModule s then (tget none s.dom.route sl.module.toNat).map (·.toNat)
  else if sl.kind = 2 ∧ sl.dst.toNat < 0x3FC00 then some (harbourVia s (sl.dst.toNat / 65536) (sl.dst.toNat / 2048 % 32))
  else none

/-- The lower of two (priority, module, distance, port) pairs: by priority, module, distance, then port. -/
def better (a b : Nat × Nat × Nat × Nat) : Bool :=
  decide (a.1 < b.1) || (decide (a.1 = b.1) && (decide (a.2.1 < b.2.1) || (decide (a.2.1 = b.2.1)
    && (decide (a.2.2.1 < b.2.2.1) || (decide (a.2.2.1 = b.2.2.1) && decide (a.2.2.2 < b.2.2.2))))))

/-- What the domain ports' partners advertise, each one hop further from here. The port stands after the partner's module in
the order of ties (R275). -/
def adverts (s : State) : List (Nat × Nat × Nat × Nat) :=
  s.ports.filterMap (fun e =>
    if e.2.domainOk && decide (e.2.pstate = 5) then
      e.2.advert.map (fun a => (a.1, a.2.1, a.2.2 + 1, 16 * e.2.identModule.toNat + e.1)) else none)

/-- The best pair known: priority, module, distance, and the port toward it. -/
def elected (s : State) : Nat × Nat × Nat × Nat :=
  (adverts s).foldl (fun b a => if better a b then a else b) (s.dom.priority.toNat, s.dom.module.toNat, 0, 0)

/-- The election on what the domain ports have told (R274, R275, R284), from the next guard on. [DEDUCED: log 199] -/
def elect (s : State) : State :=
  let e := elected s
  { s with dom := { s.dom with nextTree := some (e.2.1, e.2.2.1, e.2.2.2 % 16) } }

/-- A peer port is lost: the module elects again, and one that has no domain port left is a domain of itself (R274, R284).
[DEDUCED: log 199] -/
def losePeer (s : State) : State :=
  if !s.dom.en then s
  else
    let s1 := elect s
    let s2 := if (adverts s).isEmpty && !s.ports.any (fun e => e.2.domainOk && decide (e.2.pstate = 5)) then
        { s1 with dom := { s1.dom with nextRoute := some ([], s.dom.present &&& (1#16 <<< ownModule s), []) } } else s1
    if noBoundary s2 then applyRoute (applyTree s2) else s2

/-- XL_DOWN (R283): what follows when a port is DOWN: every slot carried on it is BROKEN. [DEDUCED: log 63] -/
def execXlDown (p : Fin 16) (s : State) : Out := clocked s <|
  let q := getPort s p.val
  .next (if q.pstate ≠ 6 ∨ q.downDone then s
    else
      let s1 := bump (uPort p.val) 8 (logAt (uPort p.val)
        (mkRec 0x0901 2 (uPort p.val) none noTide [(1, p.val), (1, q.cause.toNat)])
        (updPort s p.val (fun q => { q with downDone := true })))
      let before := withPort p.val s1
      let s2 := forAll (List.range 512) (fun n t => breakAndNote n (fun _ sl => slotPort before sl = some p.val) t) s1
      let s3 := if q.partner = 1 ∧ q.identId = s.dom.id ∧ q.identSize = s.dom.size then losePeer s2 else s2
      { s3 with packets := s3.packets.filter (fun k => match k.loc with
        | .xl i => i ≠ p.val
        | .far i => i ≠ p.val
        | .farOut i => i ≠ p.val
        | _ => true) })

/-- HOLD_N_IN (R262). -/
def execHoldNIn (p : Fin 16) (low : Bool) (s : State) : Out := clocked s <|
  .next (updBridge s (portBridge p.val) (fun r => { r with holdIn := low }))

/-! ### Tide domains (R274–R284) -/

/-- ADVERT (R274, R275, R284): the election, and the place in the tree. -/
def execAdvert (p : Fin 16) (priority module : BitVec 4) (dist : Fin 16) (s : State) : Out := clocked s <|
  .next (if !s.dom.en ∨ !(getPort s p.val).domainOk ∨ (getPort s p.val).pstate ≠ 5 then s
    else
      let s1 := updPort s p.val (fun q => { q with advert := some (priority.toNat, module.toNat, dist.val) })
      let s2 := elect s1
      if noBoundary s2 then applyTree s2 else s2)

/-- DOM_ROUTE (R275, R276): the tree as the master sends it, from the next guard. -/
def execDomRoute (routes : List (Fin 16 × Fin 16)) (present : BitVec 16) (kids : List (Fin 16)) (s : State) : Out := clocked s <|
  .next (if !s.dom.en ∨ s.dom.dstate = 5 then s
    else
      let s1 := { s with dom := { s.dom with
        nextRoute := some (routes.map (fun r => (r.1.val, r.2.val)), present, kids.map (·.val)) } }
      if noBoundary s1 then applyRoute s1 else s1)

/-- No Stream Engine has an open stream (R273, R278). -/
def noStreams (s : State) : Bool := s.streams.isEmpty

/-- TIME_SET (R278, R281): a forming follower awaits the pulse that it names; with a stream open it cannot join. -/
def execTimeSet (t : BitVec 64) (s : State) : Out := clocked s <|
  .next (if !s.dom.en ∨ s.dom.dstate ≠ 1 then s
    else if noStreams s then { s with dom := { s.dom with joinT := some t } }
    else logAt (uPort s.dom.parentPort.toNat) (mkRec 0x0903 1 (uPort s.dom.parentPort.toNat) none noTide
      [(2, s.dom.id.toNat)]) s)

end Sys2Proof.Machine
end

