-- ==== Sys2Proof/Machine/NmuOps.lean ====
section
/-! DEFINITION. Machine/NmuOps.lean: the layout of a plane, scores and summaries, and what a Harbour channel reads, answers and
refuses (R289–R320). -/

namespace Sys2Proof.Machine

open Sys2Proof

/-! ### Planes (R297, R319) -/

/-- A plane: GEOM, CTX_BASE, CHMASK and CAP_SLOTS. -/
structure Plane where
  geom : Nat
  base : Nat
  mask : Nat
  cap : Nat
  deriving DecidableEq, Repr

namespace Plane

def dim (p : Plane) : Nat := if p.geom % 2 = 0 then 64 else 128
def fmt (p : Plane) : Fmt := if p.geom / 2 % 4 = 0 then e4m3 else if p.geom / 2 % 4 = 1 then e5m2 else bf16
/-- Bytes of an element. -/
def esize (p : Plane) : Nat := if p.geom / 2 % 4 = 2 then 2 else 1
/-- Bytes of a key or value row. -/
def row (p : Plane) : Nat := p.dim * p.esize
def sumSize (p : Plane) : Nat := 2 * p.row
def pageSize (p : Plane) : Nat := 128 * p.row
def sumArea (p : Plane) : Nat := (p.cap * p.sumSize + 4095) / 4096 * 4096
/-- Channels of the plane, ascending. -/
def chans (p : Plane) : List Nat := (List.range 32).filter (fun c => p.mask.testBit c)
def banks (p : Plane) : Nat := 32 * p.chans.length
def geomOk (p : Plane) : Bool := decide (p.geom < 8) && decide (p.geom / 2 ≠ 3)
/-- The limits of R319. -/
def ok (p : Plane) : Bool :=
  p.geomOk && decide (p.mask ≠ 0) && decide (p.base % 4096 = 0)
    && decide (p.base + p.sumArea + p.cap * p.pageSize ≤ 0x3FF00000) && decide (64 * p.banks * p.cap ≤ 16777216)
/-- Channel, bank and slot of a page. -/
def place (p : Plane) (page : Nat) : Nat × Nat × Nat :=
  let j := page % p.banks
  (p.chans.getD (j % p.chans.length) 0, j / p.chans.length, page / p.banks)
/-- Offsets in the bank: the summary of a slot, and the key and value of row `r` of it. -/
def sumOff (p : Plane) (slot : Nat) : Nat := p.base + slot * p.sumSize
def keyOff (p : Plane) (slot r : Nat) : Nat := p.base + p.sumArea + slot * p.pageSize + r * p.row
def valOff (p : Plane) (slot r : Nat) : Nat := p.keyOff slot r + 64 * p.row

end Plane

/-! ### Elements, summaries and scores (R316, R320) -/

/-- Byte key of an offset in a bank. -/
def bankKey (bank off : Nat) : Nat := 2 ^ 30 * bank + off

/-- Codes of the elements of a row. -/
def rowCodes (pl : Plane) (m : Mem) (bank off : Nat) : List Nat :=
  (List.range pl.dim).map (fun i => readNat m (bankKey bank off + i * pl.esize) pl.esize)

/-- The greater and the lesser of two elements: the one that is not NaN when just one is, and −0 below +0, as R47.
[DEDUCED: log 66] -/
def maxCode (f : Fmt) (a b : Nat) : Nat :=
  let x := fpDecode f a
  let y := fpDecode f b
  if fvIsNaN x then b else if fvIsNaN y then a
  else if fvLt x y then b else if fvLt y x then a else if a ≤ b then a else b
/-- [DEDUCED: log 66] -/
def minCode (f : Fmt) (a b : Nat) : Nat :=
  let x := fpDecode f a
  let y := fpDecode f b
  if fvIsNaN x then b else if fvIsNaN y then a
  else if fvLt x y then a else if fvLt y x then b else if a ≤ b then b else a

/-- Element-wise combination of rows. -/
def combine (g : Nat → Nat → Nat) : List (List Nat) → List Nat
  | [] => []
  | [r] => r
  | r :: rs => (r.zip (combine g rs)).map (fun e => g e.1 e.2)

/-- KMAX and KMIN of the page in a slot. -/
def summary (pl : Plane) (m : Mem) (bank slot : Nat) : List Byte :=
  let rows := (List.range 64).map (fun r => rowCodes pl m bank (pl.keyOff slot r))
  (combine (maxCode pl.fmt) rows ++ combine (minCode pl.fmt) rows).flatMap (leBytes pl.esize)

/-- One term added with one rounding. -/
def addTerm (acc : Word) (p : FV) : Word := to32 (fvAdd (f32 acc) p)

/-- The greater of two products. -/
def fvMax (a b : FV) : FV := if fvIsNaN a then b else if fvIsNaN b then a else if fvLt a b then b else a

/-- Σ q_i × k_i. -/
def tokenScore (pl : Plane) (m : Mem) (q : List Word) (bank off : Nat) : Word :=
  (q.zip (rowCodes pl m bank off)).foldl (fun acc e => macStep acc (f32 e.1) (fpDecode pl.fmt e.2)) 0

/-- Σ max(q_i × KMAX_i, q_i × KMIN_i). -/
def pageScore (pl : Plane) (m : Mem) (q : List Word) (bank off : Nat) : Word :=
  (q.zip ((rowCodes pl m bank off).zip (rowCodes pl m bank (off + pl.row)))).foldl (fun acc e =>
    addTerm acc (fvMax (macProduct (f32 e.1) (fpDecode pl.fmt e.2.1)) (macProduct (f32 e.1) (fpDecode pl.fmt e.2.2)))) 0

/-- R316: `a` ranks before `b` or with it. -/
def ranks (a b : Word × Nat) : Bool :=
  let x := f32 a.1
  let y := f32 b.1
  if fvIsNaN x then fvIsNaN y && decide (a.2 ≤ b.2)
  else if fvIsNaN y then true
  else fvLt y x || (fvEq x y && decide (a.2 ≤ b.2))

/-- The best `n` entries. -/
def bestOf (n : Nat) (es : List (Word × Nat)) : List (Word × Nat) := (sortBy ranks es).take n

/-! ### A channel's memory (R306) -/

/-- The HADDR of an offset in a bank of a channel. -/
def haddrOf (q ch bank off : Nat) : Nat := 2 ^ 40 * q + 2 ^ 35 * ch + 2 ^ 30 * bank + off

/-- R306, R322: the words of `errs` that ranges (bank, offset, length) touch are counted; an uncorrectable one is delivered as
it is read, logged and timed. True when there is one. [DESIGN CHOICE: log 64; DEDUCED: log 174] -/
def readErrs (q ch : Nat) (errs : List DramErr) (ranges : List (Nat × Nat × Nat)) (s : State) : Bool × State :=
  let hit := errs.filter (fun e =>
    let a := 8 * e.word.toNat
    ranges.any (fun r => decide (a < bankKey r.1 r.2.1 + r.2.2 ∧ bankKey r.1 r.2.1 < a + 8)))
  hit.foldl (fun (b, t) e =>
    match e.value with
    | none => (b, bump (uChannel q ch) 3 t)
    | some v =>
      let bank := e.word.toNat / 2 ^ 27
      let t1 := updChan t (chanKey q ch) (fun c =>
        { c with
          mem := writeBytes c.mem (8 * e.word.toNat) (leBytes 8 v.toNat)
          ueTimes := c.ueTimes.filter (fun u => decide (nowUs t < u.2 + 86400000000)) ++ [(bank, nowUs t)] })
      (true, bump (uChannel q ch) 4 (logAt (uHarbour q)
        (mkRec 0x0A02 2 (uBank q ch bank) none noTide [(8, haddrOf q ch 0 (8 * e.word.toNat))]) t1)))
    (false, s)

/-- Bytes written in a bank. -/
def bankWrite (q ch bank off : Nat) (bs : List Byte) (s : State) : State :=
  updChan s (chanKey q ch) (fun c => { c with mem := writeBytes c.mem (bankKey bank off) bs })

/-- The NMU-cycles that a window allows (R311, R312). -/
def nmuBudget (c : HChan) : Nat :=
  min c.limit.toNat (match c.band.toNat with
    | 0 => 24576
    | 1 => 12288
    | 2 => 6144
    | _ => 0)

/-- NMU-cycles spent by one bank phase, from the bytes read, bytes written and products of each bank (R308, R312).
[DEDUCED: log 65] -/
def phaseCycles (w : List (Nat × Nat × Nat)) : Nat :=
  (w.map (fun x => max ((x.1 + 31) / 32) (max ((x.2.1 + 31) / 32) ((x.2.2 + 31) / 32)))).sum

/-- The cycles are counted against the budget; at the budget the NMUs stall until the next window (R312).
[DEDUCED: log 65] -/
def spend (q ch n : Nat) (s : State) : State :=
  bumpBy (uChannel q ch) 1 n (updChan s (chanKey q ch) (fun c =>
    { c with
      spent := c.spent + n
      stalled := decide (nmuBudget c ≤ c.spent + n) }))

/-- The NMUs of a channel may not issue. -/
def nmuStalled (s : State) (q ch : Nat) : Bool :=
  let c := getChan s (chanKey q ch)
  c.stalled || decide (nmuBudget c ≤ c.spent)

/-! ### What waits at a channel -/

/-- The channel's target index (R290). -/
def hbTarget (q ch : Nat) : Nat := 65536 * q + 2048 * ch

/-- The port at whose far end a packet waits. -/
def farPort (p : Packet) : Option Nat := match p.loc with
  | .far i => some i
  | _ => none

/-- A packet for Harbour channel `ch` of its quad. -/
def forChan (p : Packet) (ch : Nat) : Bool :=
  match p.payload with
  | .xfer h _ => decide (haChan h.haddr = ch)
  | _ => decide (p.sb.dstCore.toNat % 65536 = 2048 * ch)

/-- A staged block, and the buffer that it needs is full (R299). [DEDUCED: log 187] -/
def stuck (s : State) (q : Nat) (p : Packet) : Bool :=
  match p.payload with
  | .block h _ => h.staged && decide (1024 ≤ (getChan s (chanKey q (p.sb.dstCore.toNat / 2048 % 32))).staging.length)
  | _ => false

/-- The next packet of a channel on one VC: the first of its packets, unless one ahead of it on its port is stuck.
[DEDUCED: log 187] -/
def nextAt (s : State) (q ch : Nat) (vc : BitVec 2) : Option Packet :=
  match s.packets.find? (fun p => (farPort p).any (fun i => decide (i / 4 = q)) && p.sb.vc = vc && forChan p ch) with
  | none => none
  | some p =>
    if (s.packets.takeWhile (fun x => x.serial ≠ p.serial)).any (fun x => x.loc = p.loc && x.sb.vc = vc && stuck s q x) then none
    else some p

/-- The channel's controller is out of service, or its Harbour is (R323). [DEDUCED: log 76] -/
def chanDead (s : State) (q ch : Nat) : Bool := !usable s (uChannel q ch) || !usable s (uHarbour q)

/-- R291–R293: what refuses traffic for the mode `proc`. -/
def chanCodes (s : State) (q ch : Nat) (p : Packet) (proc : Bool) : List Nat :=
  let c := getChan s (chanKey q ch)
  (if c.owned ∧ c.owner = p.sb.tenant then [] else [stNotOwner]) ++ (if c.zeroing ∨ c.mode ≠ proc then [stRange] else [])

/-! ### Answers -/

/-- A packet sent back in answer to `p`, from the place where `p` was taken. -/
def answerTo (p : Packet) (sb : Sideband) (flits : Nat) (payload : Payload) (purpose : Nat) (src : Nat) (s : State) : State :=
  let loc : Loc := match p.loc with
    | .far i => .farOut i
    | .xl i => .bridge (portBridge i)
    | l => l
  inject
    { serial := 0
      sb := { sb with vc := 2, tenant := p.sb.tenant, dstModule := BitVec.ofNat 4 (ownModule s) }
      flits := flits
      loc := loc
      payload := payload
      purpose := purpose
      srcCore := BitVec.ofNat 18 src
      srcModule := BitVec.ofNat 4 (ownModule s) } s

/-- XACK, with the data of a READ (R295, R296). -/
def xack (p : Packet) (h : XferHead) (code : Nat) (data : List Byte) (s : State) : State :=
  answerTo p { dstCore := BitVec.ofNat 18 (h.ackTo.toNat % 32), kind := 2 } (1 + (data.length + 63) / 64)
    (.xfer { op := 5, reqId := h.reqId, status := BitVec.ofNat 16 code } data) p.purpose 0 (removePacket p.serial s)

/-- A request in parts (R313). -/
structure NmuReq where
  op : Nat
  flags : Nat
  k : Nat
  list : Nat
  bankMask : Nat
  ret : Nat
  tag : Nat
  plane : Plane
  count : Nat
  tokens : Nat
  arg0 : Nat
  arg1 : Nat
  arg2 : Nat
  q : List Word
  entries : List (Nat × Word)
  tide : Word
  deriving DecidableEq, Repr

/-- The request that a message holds. [DEDUCED: log 69] -/
def parseReq (p : Packet) (b : List Byte) : NmuReq :=
  let op := field b 0 1
  let pl : Plane := { geom := field b 0x0E 1, base := field b 0x10 4, mask := field b 0x14 4, cap := field b 0x1C 2 }
  let hasQ := decide (op = 2 ∨ op = 3)
  let lb := if op = 6 then 8 else 4
  let at' := 64 + (if hasQ then 4 * pl.dim else 0)
  let n := field b 0x0F 1
  { op := op
    flags := field b 1 1
    k := field b 2 1
    list := field b 3 1
    bankMask := field b 4 4
    ret := field b 8 4
    tag := field b 0x0C 2
    plane := pl
    count := n
    tokens := field b 0x18 4
    arg0 := field b 0x20 4
    arg1 := field b 0x24 4
    arg2 := field b 0x28 4
    q := if hasQ then (List.range pl.dim).map (fun i => BitVec.ofNat 32 (field b (64 + 4 * i) 4)) else []
    entries := if op = 1 ∨ op = 3 ∨ op = 5 ∨ op = 6 then
        (List.range (min n 64)).map (fun i => (field b (at' + lb * i) 4, BitVec.ofNat 32 (field b (at' + lb * i + 4) 4)))
      else []
    tide := p.sb.tide }

/-- Result blocks: COUNT and bytes of each part (R318). -/
def results (q ch : Nat) (p : Packet) (r : NmuReq) (code lost : Nat) (parts : List (Nat × List Byte)) (s : State) : State :=
  forAll (parts.zip (List.range parts.length)) (fun e t =>
      let body := padTo 2048 (padTo 64 (leBytes 1 r.op ++ [0] ++ leBytes 2 code ++ leBytes 1 e.2 ++ leBytes 1 parts.length
        ++ leBytes 2 e.1.1 ++ leBytes 4 (hbTarget q ch) ++ leBytes 4 lost) ++ e.1.2)
      let tag := BitVec.ofNat 16 (r.tag + e.2)
      answerTo p { dstCore := BitVec.ofNat 18 r.ret, kind := 1, block := true, tide := r.tide } 33
        (.block { rawBlock t (BitVec.ofNat 18 (hbTarget q ch)) tag r.tide e.2 body with untided := false } body) 5
        (hbTarget q ch) t) s

/-- R325: HHOLE for the row of the core that is answered CONTEXT_HOLE. [DEDUCED: log 73] -/
def sendHole (q ch ret : Nat) (tide : Word) (s : State) : State :=
  match tget none (getHarbour s q).rgnEng (ret / 512 % 512) with
  | some e => sendCtl (.hhole e.val (hbTarget q ch) tide [(ret / 512 % 512, ret / 16 % 32)] false) s
  | none => s

/-- A request answered: its result blocks, and HHOLE when they carry CONTEXT_HOLE. [DEDUCED: log 68] -/
def answerReq (q ch : Nat) (p : Packet) (r : NmuReq) (code lost : Nat) (parts : List (Nat × List Byte)) (s : State) : State :=
  let s1 := results q ch p r code lost (if parts.isEmpty then [(0, [])] else parts) (bump (uChannel q ch) 0 (removePacket p.serial s))
  if code = stHole then sendHole q ch r.ret r.tide s1 else s1

/-! ### Requests (R313–R318) -/

/-- The banks that a mask names. -/
def maskBanks (m : Nat) : List Nat := (List.range 32).filter (fun b => m.testBit b)

/-- A list entry lies in a masked bank of this channel. -/
def inMask (ch : Nat) (r : NmuReq) (page : Nat) : Bool :=
  let w := r.plane.place page
  decide (w.1 = ch) && r.bankMask.testBit w.2.1

/-- Pages or tokens that a request names: the operand's, or those of the last TOPK of its list. -/
def named (s : State) (q ch : Nat) (r : NmuReq) : List (Nat × Word) :=
  if r.op = 5 ∧ r.flags.testBit 1 then
    (tget ListSlot.init (getChan s (chanKey q ch)).answered r.list).entries.map (fun e => (e.2, e.1))
  else r.entries

/-- R314: what makes a request BAD_DESCRIPTOR or RANGE. [DEDUCED: log 69, 70] -/
def reqCodes (s : State) (q ch : Nat) (r : NmuReq) (b : List Byte) : List Nat :=
  let bad := decide (r.op = 0 ∨ 7 < r.op ∨ 8 ≤ r.flags ∨ 16 ≤ r.list ∨ 2 ^ 18 ≤ r.ret ∨ field b 0x1E 2 ≠ 0 ∨ field b 0x2C 20 ≠ 0)
  let one := decide ((maskBanks r.bankMask).length = 1)
  let pageBad (p : Nat) : Bool := decide (r.tokens < 64 * p + 64) || !inMask ch r p
  let tokBad (t : Nat) : Bool := decide (r.tokens ≤ t) || !inMask ch r (t / 64)
  let copyBad := decide (r.op = 7) && decide (r.arg2 % 64 ≠ 0 ∨ 0x1000000 < r.arg2 ∨ 0x3FF00000 < r.arg0 + r.arg2
    ∨ 0x3FF00000 < r.arg1 + r.arg2)
  let es := named s q ch r
  let a := tget ListSlot.init (getChan s (chanKey q ch)).answered r.list
  let range := (!r.flags.testBit 0 && !one) || !r.plane.mask.testBit ch || decide (64 < r.count)
    || (if r.op = 4 then decide (r.k = 0 ∨ 64 < r.k) else decide (r.k ≠ 0)) || !r.plane.ok
    || decide (16777216 < r.tokens) || decide (64 * r.plane.banks * r.plane.cap < r.tokens)
    || (decide (r.op = 5) && r.flags.testBit 1 && (decide (r.count ≠ 0) || decide (a.tide ≠ r.tide)))
    || (decide (r.op = 1 ∨ r.op = 3) && es.any (fun e => pageBad e.1))
    || (decide (r.op = 5 ∨ r.op = 6) && es.any (fun e => tokBad e.1)) || copyBad
    || (decide (r.op ≠ 7) && decide (r.arg0 ≠ 0 ∨ r.arg1 ≠ 0 ∨ r.arg2 ≠ 0))
  (if bad then [stBad] else []) ++ (if range then [stRange] else [])

/-- Masked banks in use, and the mask of those that are not (R322). -/
def liveBanks (s : State) (q ch : Nat) (r : NmuReq) : List Nat :=
  (maskBanks r.bankMask).filter (fun b => usable s (uBank q ch b))
def lostMask (s : State) (q ch : Nat) (r : NmuReq) : Nat :=
  (maskBanks r.bankMask).foldl (fun w b => if usable s (uBank q ch b) then w else w + 2 ^ b) 0

/-- What an operation does: banks' work, ranges read, and the new state with its result, given whether a word that it read is
uncorrectable. -/
structure NmuWork where
  work : List (Nat × Nat × Nat) := []
  ranges : List (Nat × Nat × Nat) := []
  /-- The result parts after the reads, or none when nothing is sent. -/
  out : State → Option (List (Nat × List Byte)) := fun _ => some [(0, [])]
  act : Nat → State → State := fun _ s => s

/-- The message at the head of a channel's requests, with its request, when its OP is one of `ops`. -/
def takeReq (s : State) (q ch : Nat) (ops : Nat → Bool) : Option (Packet × NmuReq × List Byte) :=
  match nextAt s q ch 1 with
  | some p =>
    match p.payload with
    | .msg b => if ops (field b 0 1) then some (p, parseReq p b, b) else none
    | _ => none
  | none => none

/-- An NMU operation (R307, R314, R322, R323): the request is taken when it is the channel's next one and the NMUs may issue. -/
def nmuOp (op q ch : Nat) (errs : List DramErr) (f : State → NmuReq → List Nat → NmuWork) (s : State) : State :=
  match takeReq s q ch (fun o => o = op || o = 0 || decide (7 < o)) with
  | none => s
  | some (p, r, b) =>
    if chanDead s q ch then answerReq q ch p r stHole 0xFFFFFFFF [] s
    else
      let codes := chanCodes s q ch p true ++ reqCodes s q ch r b
      if !codes.isEmpty then answerReq q ch p r (pickStatus codes) 0 [] s
      else if nmuStalled s q ch then s
      else
        let w := f s r (liveBanks s q ch r)
        let lost := lostMask s q ch r
        let e := readErrs q ch errs w.ranges (spend q ch (phaseCycles w.work) s)
        let code := pickStatus ((if lost ≠ 0 then [stHole] else []) ++ (if e.1 then [stTainted] else []))
        match w.out e.2 with
        | none => removePacket p.serial (w.act code e.2)
        | some parts => answerReq q ch p r code lost parts (w.act code e.2)

/-- Entries named by the request that lie in a bank. -/
def inBank (r : NmuReq) (bank page : Nat) : Bool := decide ((r.plane.place page).2.1 = bank)

/-- A list slot set in a bank (R315). -/
def setList (q ch bank list : Nat) (v : ListSlot) (s : State) : State :=
  updChan s (chanKey q ch) (fun c => { c with lists := tset ListSlot.init c.lists (16 * bank + list) v })

/-- SUMMARIZE of one page. -/
def putSummary (q ch : Nat) (pl : Plane) (bank slot : Nat) (s : State) : State :=
  bankWrite q ch bank (pl.sumOff slot) (summary pl (getChan s (chanKey q ch)).mem bank slot) s

/-- Entries of 8 bytes. -/
def entryBytes (es : List (Word × Nat)) : List Byte := es.flatMap (fun e => leBytes 4 e.1.toNat ++ leBytes 4 e.2)

/-- Bytes cut into parts of 1,984, each with the number of rows of `n` bytes that begin in it. [DEDUCED: log 67] -/
def cutParts (n : Nat) (bs : List Byte) : List (Nat × List Byte) :=
  (List.range ((bs.length + 1983) / 1984)).map (fun i =>
    let b := (bs.drop (1984 * i)).take 1984
    ((1984 * i + b.length + n - 1) / n - (1984 * i + n - 1) / n, b))

end Sys2Proof.Machine
end

