-- ==== Sys2Proof/Machine/Harbour.lean ====
section
/-! DEFINITION. Machine/Harbour.lean: the rows of a Harbour: transfer packets, APPEND blocks, tide orders, NMU operations, modes,
refresh bands, scrubbing and loss (R287–R326). -/

namespace Sys2Proof.Machine

open Sys2Proof

/-! ### Transfer packets (R295, R296) -/

/-- The transfer packet of operation `op` at the head of a channel's traffic. -/
def takeXfer (s : State) (q ch op : Nat) : Option (Packet × XferHead × List Byte) :=
  match nextAt s q ch 2 with
  | some p =>
    match p.payload with
    | .xfer h d => if h.op.toNat = op then some (p, h, d) else none
    | _ => none
  | none => none

/-- The range of a transfer of `size` bytes stays in its bank, its count within its limits, and reserved bytes are 0. -/
def xferOk (q : Nat) (h : XferHead) (maxCount size : Nat) : Bool :=
  h.rsvOk && decide (haQuad h.haddr = q) && decide (h.haddr.toNat < 2 ^ 42) && decide (h.haddr.toNat % 64 = 0)
    && decide (1 ≤ h.count.toNat ∧ h.count.toNat ≤ maxCount) && decide (haOff h.haddr + size ≤ 2 ^ 30)
    && decide (h.flags.toNat < 2) && decide (h.ackTo.toNat < 32) && decide (h.status = 0)
    && decide (h.ret.toNat < 2 ^ 18) && (decide (h.op = 4) || decide (h.ret = 0)) && (decide (h.op = 2) || decide (h.flags = 0))

/-- A transfer packet answered: refused, or run by `act` (R291–R293, R296, R322, R323). -/
def xferOp (q ch op maxCount : Nat) (size : XferHead → Nat) (act : Packet → XferHead → List Byte → State → State)
    (s : State) : State :=
  match takeXfer s q ch op with
  | none => s
  | some (p, h, d) =>
    if chanDead s q ch then xack p h stHole [] s
    else
      let codes := chanCodes s q ch p false ++ (if xferOk q h maxCount (size h) then [] else [stRange])
      if !codes.isEmpty then xack p h (pickStatus codes) [] s
      else if !usable s (uBank q ch (haBank h.haddr)) then xack p h stHole [] s
      else act p h d s

/-- WRITE (R296). -/
def execWrite (quad : Fin 4) (ch : Fin 32) (s : State) : Out :=
  .next (xferOp quad.val ch.val 1 32 (fun h => 64 * h.count.toNat) (fun p h d t =>
    xack p h stOk [] (bankWrite quad.val ch.val (haBank h.haddr) (haOff h.haddr) (padTo (64 * h.count.toNat) d) t)) s)

/-- WRITE_REC (R296): the block is verified at ingest. [DEDUCED: log 74] -/
def execWriteRec (quad : Fin 4) (ch : Fin 32) (s : State) : Out :=
  .next (xferOp quad.val ch.val 2 1 (fun h => if h.flags = 1 then 2048 else 2112) (fun p h d t =>
    let hdr := parseHdr d
    let body := padTo 2048 (d.drop 64)
    if crc32c body ≠ hdr.check then
      xack p h stTainted [] (logCheckFail (uHarbour quad.val) (uChannel quad.val ch.val) (some p.sb.tenant.toNat) hdr (crc32c body) 4
        (BitVec.ofNat 32 (haOff h.haddr / 2112)) h.haddr.toNat t)
    else xack p h stOk [] (bankWrite quad.val ch.val (haBank h.haddr) (haOff h.haddr)
      (if h.flags = 1 then body else padTo 64 d ++ body) t)) s)

/-- READ (R296). [DESIGN CHOICE: log 64] -/
def execRead (quad : Fin 4) (ch : Fin 32) (errs : List DramErr) (s : State) : Out :=
  .next (xferOp quad.val ch.val 3 32 (fun h => 64 * h.count.toNat) (fun p h _ t =>
    let n := 64 * h.count.toNat
    let e := readErrs quad.val ch.val errs [(haBank h.haddr, haOff h.haddr, n)] t
    xack p h (if e.1 then stTainted else stOk)
      (readBytes (getChan e.2 (chanKey quad.val ch.val)).mem (haByte h.haddr) n) e.2) s)

/-- A stored record sent to a core as a block. -/
def sendRecord (p : Packet) (ret : Word) (rec : List Byte) (s : State) : State :=
  let hdr := parseHdr rec
  answerTo p { dstCore := ret.setWidth 18, kind := 1, block := true, tide := hdr.tide, channel := hdr.channel } 33
    (.block hdr (rec.drop 64)) 2 hdr.srcCore.toNat s

/-- READ_REC (R296). -/
def execReadRec (quad : Fin 4) (ch : Fin 32) (errs : List DramErr) (s : State) : Out :=
  .next (xferOp quad.val ch.val 4 1024 (fun h => 2112 * h.count.toNat) (fun p h _ t =>
    let e := readErrs quad.val ch.val errs [(haBank h.haddr, haOff h.haddr, 2112 * h.count.toNat)] t
    xack p h (if e.1 then stTainted else stOk) []
      (forAll (List.range h.count.toNat) (fun i u => sendRecord p h.ret
        (readBytes (getChan u (chanKey quad.val ch.val)).mem (haByte h.haddr + 2112 * i) 2112) u) e.2)) s)

/-! ### APPEND blocks (R297–R300, R303) -/

/-- The plane of a write descriptor. -/
def appendPlane (b : List Byte) : Plane := { geom := field b 1 1, base := field b 4 4, mask := field b 8 4, cap := field b 0x10 2 }

/-- The descriptor obeys its table and R319. -/
def appendOk (ch : Nat) (b : List Byte) : Bool :=
  let pl := appendPlane b
  let rows := field b 2 1
  let t := field b 0x0C 4
  let w := pl.place (t / 64)
  decide (field b 0 1 = 1) && pl.ok && decide (1 ≤ rows) && decide (rows * (2 * pl.row) ≤ 1984) && decide (field b 3 1 = 0)
    && decide (field b 0x12 46 = 0) && decide (t % 64 + rows ≤ 64) && decide (w.1 = ch) && decide (w.2.2 < pl.cap)

/-- The bank of an APPEND block. -/
def appendBank (b : List Byte) : Nat := ((appendPlane b).place (field b 0x0C 4 / 64)).2.1

/-- The token records of a block written: keys and values (R297, R319). -/
def applyAppend (q ch : Nat) (b : List Byte) (s : State) : State :=
  let pl := appendPlane b
  let t := field b 0x0C 4
  let w := pl.place (t / 64)
  forAll (List.range (field b 2 1)) (fun i u =>
    let rec' := (b.drop (64 + 2 * pl.row * i)).take (2 * pl.row)
    bankWrite q ch w.2.1 (pl.valOff w.2.2 (t % 64 + i)) (rec'.drop pl.row)
      (bankWrite q ch w.2.1 (pl.keyOff w.2.2 (t % 64 + i)) (rec'.take pl.row) u)) s

/-- A block that is not applied: counted and logged, and its row kept for HACK when it is staged (R298). [DEDUCED: log 77] -/
def dropAppend (q ch reason : Nat) (src : BitVec 18) (tide : Word) (staged : Option Nat) (s : State) : State :=
  let s1 := bump (uChannel q ch) 5 (logAt (uHarbour q) (mkRec 0x0A01 1 (uChannel q ch) none tide
    [(4, src.toNat), (4, hbTarget q ch), (1, (Config.causeByte 0x0A01 reason).toNat)]) s)
  match staged with
  | none => s1
  | some e => updChan s1 (chanKey q ch) (fun c => { c with dropRows := c.dropRows ++ [(e, src.toNat / 512, src.toNat / 16 % 32)] })

/-- APPEND (R293, R297–R300, R303, R322). [DEDUCED: log 72] -/
def appendOp (q ch : Nat) (p : Packet) (h : BlkHdr) (b : List Byte) (s : State) : State :=
  let c := getChan s (chanKey q ch)
  let t := removePacket p.serial s
  let eng := tget none (getHarbour s q).rgnEng (h.srcCore.toNat / 512)
  let st : Option Nat := if h.staged then eng.map (·.val) else none
  if chanDead s q ch ∨ !(chanCodes s q ch p true).isEmpty then t
  else if h.staged ∧ eng.isNone then bump (uChannel q ch) 5 t
  else if crc32c b ≠ h.check then
    dropAppend q ch 0 h.srcCore h.tide st
      (logCheckFail (uHarbour q) (uChannel q ch) (some p.sb.tenant.toNat) h (crc32c b) 6 0 0 t)
  else if !appendOk ch b then dropAppend q ch 1 h.srcCore h.tide st t
  else if !usable s (uBank q ch (appendBank b)) then dropAppend q ch 2 h.srcCore h.tide st t
  else match st with
    | none => applyAppend q ch b t
    | some e =>
      if tget none c.ordered e = some h.tide then updChan t (chanKey q ch) (fun c => { c with late := tupd 0 c.late e (· + 1) })
      else if 1024 ≤ c.staging.length then s
      else
        let t1 := updChan t (chanKey q ch) (fun c =>
          { c with staging := c.staging ++ [{ eng := e, tide := h.tide, core := h.srcCore, body := b }] })
        let n := c.staging.length + 1
        if (getCtr t1 (uChannel q ch) 6).val.toNat < n then
          { t1 with cnt :=
            { t1.cnt with live := tupd Counter.init t1.cnt.live (ctrKey (uChannel q ch) 6)
                            (fun x => { x with val := BitVec.ofNat 48 n }) } }
        else t1

/-- APPEND. -/
def execAppend (quad : Fin 4) (ch : Fin 32) (s : State) : Out :=
  .next (match nextAt s quad.val ch.val 2 with
    | some p =>
      (match p.payload with
        | .block h b => appendOp quad.val ch.val p h b s
        | _ => s)
    | none => s)

/-! ### Tide orders (R301–R304) -/

/-- The order for a channel. [DEDUCED: log 76] -/
def takeOrder (s : State) (q ch : Nat) (commit : Bool) : Option ((Nat × Word × List (Nat × Nat)) × State) :=
  takeCtl (fun c => match c with
    | .order k e t tide rows => if k = commit ∧ t = hbTarget q ch then some (e, tide, rows) else none
    | _ => none) s

/-- A staged block applied at a commit, or dropped as its bank is lost; the pages that it completes. -/
def applyStaged (q ch : Nat) (x : StagedBlk) (s : State) : State :=
  if usable s (uBank q ch (appendBank x.body)) then applyAppend q ch x.body s
  else dropAppend q ch 2 x.core x.tide (some x.eng) s

/-- The page that an applied block fills (R302). -/
def fills (s : State) (q ch : Nat) (x : StagedBlk) : Option (Plane × Nat × Nat) :=
  let pl := appendPlane x.body
  let t := field x.body 0x0C 4
  let w := pl.place (t / 64)
  if usable s (uBank q ch w.2.1) ∧ t % 64 + field x.body 2 1 = 64 then some (pl, w.2.1, w.2.2) else none

/-- HACK sent: the blocks applied, those withheld beside those dropped, the rows of the latter, and the late ones since the last
HACK (R301–R303). [DEDUCED: log 77] -/
def sendHack (q ch e : Nat) (tide : Word) (applied withheld : Nat) (s : State) : State :=
  let c := getChan s (chanKey q ch)
  let mine := c.dropRows.filter (fun r => r.1 = e)
  let rows := rowList (rowTable (mine.map (·.2)))
  sendCtl (.hack e (hbTarget q ch) tide rows false applied (withheld + mine.length) (tget 0 c.late e)) (updChan s (chanKey q ch) (fun c =>
    { c with
      ordered := tset none c.ordered e (some tide)
      dropRows := c.dropRows.filter (fun r => r.1 ≠ e)
      late := tset 0 c.late e 0 }))

/-- A tide order carried out (R302, R303). -/
def orderOp (q ch : Nat) (commit : Bool) (errs : List DramErr) (s : State) : State :=
  match takeOrder s q ch commit with
  | none => s
  | some ((e, tide, rows), t) =>
    if chanDead t q ch then t
    else
      let held := (getChan t (chanKey q ch)).staging
      let mine := held.filter (fun x => decide (x.eng = e))
      let now := mine.filter (fun x => decide (x.tide = tide) && commit
        && !rows.contains (x.core.toNat / 512, x.core.toNat / 16 % 32))
      let t1 := updChan t (chanKey q ch) (fun c => { c with staging := held.filter (fun x => decide (x.eng ≠ e)) })
      let pages := now.filterMap (fills t1 q ch)
      let t2 := forAll now (applyStaged q ch) t1
      let r := readErrs q ch errs (pages.map (fun x => (x.2.1, x.1.keyOff x.2.2 0, 64 * x.1.row))) t2
      let t3 := forAll pages (fun x u => putSummary q ch x.1 x.2.1 x.2.2 u)
        (spend q ch (phaseCycles (pages.map (fun x => (64 * x.1.row, 2 * x.1.row, 0)))) r.2)
      let done := (now.filter (fun x => usable t (uBank q ch (appendBank x.body)))).length
      sendHack q ch e tide done (mine.length - now.length) t3

/-- HCOMMIT (R302). -/
def execHcommit (quad : Fin 4) (ch : Fin 32) (errs : List DramErr) (s : State) : Out :=
  .next (orderOp quad.val ch.val true errs s)

/-- HDISCARD (R302). -/
def execHdiscard (quad : Fin 4) (ch : Fin 32) (s : State) : Out := .next (orderOp quad.val ch.val false [] s)

/-- Rows of an engine's image that hold a slot targeting a channel (R304). -/
def rowsTargeting (s : State) (e target : Nat) : Tbl (BitVec 32) :=
  rowTable (((((getEngine s e).image.map (·.chans)).getD []).filter (fun c =>
    decide (c.kind = 2 ∧ c.dst.toNat % 2 ^ 18 = target))).map (fun c => (c.src.toNat / 512, c.src.toNat / 16 % 32)))

/-- HACK (R303, R304). -/
def execHack (e : Fin 8) (s : State) : Out := clocked s <|
  .next (match takeCtl (fun c => match c with
      | .hack k t tide rows all _ _ late => if k = e.val then some (t, tide, rows, all, late) else none
      | _ => none) s with
    | none => s
    | some ((t, tide, rows, all, late), u) =>
      markHole (if all then rowsTargeting u e.val t else rowTable rows)
        (bumpBy (uEngine e.val) eStageLate late (updEngine u e.val (fun g =>
          { g with orders := g.orders.filter (fun o => !(decide (o.target = t) && decide (o.tide = tide))) }))))

/-- HACK_TIMEOUT (R304). -/
def execHackTimeout (e : Fin 8) (s : State) : Out := clocked s <|
  .next (match (getEngine s e.val).orders with
    | [] => s
    | o :: rest =>
      let t := clockTo (tcycle s + ((o.sentUs + 100 - nowUs s) * 12288 + 9) / 10) s
      let u := uHost (if (getFn s (getEngine s e.val).owner.toNat).port then 1 else 0)
      markHole (rowsTargeting t e.val o.target)
        (bump (uEngine e.val) eOrderTo (logAt u (mkRec 0x0A03 2 (uChannel (o.target / 65536) (o.target / 2048 % 32))
            (some (getEngine s e.val).owner.toNat) o.tide [(1, e.val), (3, 0), (4, o.target)])
          (updEngine t e.val (fun g => { g with orders := rest })))))

/-- HHOLE (R325). -/
def execHhole (e : Fin 8) (s : State) : Out := clocked s <|
  .next (match takeCtl (fun c => match c with
      | .hhole k t _ rows all => if k = e.val then some (t, rows, all) else none
      | _ => none) s with
    | none => s
    | some ((t, rows, all), u) => markHole (if all then rowsTargeting u e.val t else rowTable rows) u)

/-! ### NMU operations (R315) -/

/-- SUMMARIZE (R315, R320). -/
def execSummarize (quad : Fin 4) (ch : Fin 32) (errs : List DramErr) (s : State) : Out :=
  .next (nmuOp 1 quad.val ch.val errs (fun _ r banks =>
    let ps := (r.entries.map (fun e => r.plane.place e.1)).filter (fun w => banks.contains w.2.1)
    { work := banks.map (fun b =>
        let n := (ps.filter (fun w => decide (w.2.1 = b))).length
        (64 * r.plane.row * n, 2 * r.plane.row * n, 0))
      ranges := ps.map (fun w => (w.2.1, r.plane.keyOff w.2.2 0, 64 * r.plane.row))
      act := fun _ t => forAll ps (fun w u => putSummary quad.val ch.val r.plane w.2.1 w.2.2 u) t }) s)

/-- The full pages of a bank, with their slots. -/
def fullPages (ch : Nat) (r : NmuReq) (bank : Nat) : List (Nat × Nat) :=
  ((List.range (r.tokens / 64)).filter (fun p => inMask ch r p && inBank r bank p)).map (fun p => (p, (r.plane.place p).2.2))

/-- SCORE_PAGES (R315, R316). [DEDUCED: log 68] -/
def execScorePages (quad : Fin 4) (ch : Fin 32) (errs : List DramErr) (s : State) : Out :=
  .next (nmuOp 2 quad.val ch.val errs (fun _ r banks =>
    { work := banks.map (fun b =>
        let n := (fullPages ch.val r b).length
        (2 * r.plane.row * n, 0, 2 * r.plane.dim * n))
      ranges := banks.flatMap (fun b => (fullPages ch.val r b).map (fun p => (b, r.plane.sumOff p.2, 2 * r.plane.row)))
      out := fun _ => none
      act := fun code t => forAll banks (fun b u =>
        let m := (getChan u (chanKey quad.val ch.val)).mem
        setList quad.val ch.val b r.list
          { entries := bestOf 64 ((fullPages ch.val r b).map (fun p => (pageScore r.plane m r.q b (r.plane.sumOff p.2), p.1)))
            tide := r.tide
            status := code } u) t }) s)

/-- The tokens below T of the listed pages of a bank, with slot and row. -/
def listedTokens (r : NmuReq) (bank : Nat) : List (Nat × Nat × Nat) :=
  ((r.entries.map (·.1)).filter (inBank r bank)).flatMap (fun p =>
    ((List.range 64).filter (fun i => decide (64 * p + i < r.tokens))).map (fun i => (64 * p + i, (r.plane.place p).2.2, i)))

/-- SCORE_TOKENS (R315, R316). -/
def execScoreTokens (quad : Fin 4) (ch : Fin 32) (errs : List DramErr) (s : State) : Out :=
  .next (nmuOp 3 quad.val ch.val errs (fun _ r banks =>
    { work := banks.map (fun b =>
        let n := (listedTokens r b).length
        (r.plane.row * n, 0, r.plane.dim * n))
      ranges := banks.flatMap (fun b => (listedTokens r b).map (fun t => (b, r.plane.keyOff t.2.1 t.2.2, r.plane.row)))
      out := fun _ => none
      act := fun code t => forAll banks (fun b u =>
        let m := (getChan u (chanKey quad.val ch.val)).mem
        setList quad.val ch.val b r.list
          { entries := bestOf 64 ((listedTokens r b).map (fun k =>
              (tokenScore r.plane m r.q b (r.plane.keyOff k.2.1 k.2.2), k.1)))
            tide := r.tide
            status := code } u) t }) s)

/-- TOPK (R315–R317): the status of the lists that it reads counts beside its own. [DEDUCED: log 71] -/
def topkOp (q ch : Nat) (s : State) : State :=
  match takeReq s q ch (fun o => o = 4) with
  | none => s
  | some (p, r, b) =>
    if chanDead s q ch then answerReq q ch p r stHole 0xFFFFFFFF [] s
    else
      let c := getChan s (chanKey q ch)
      let ls := (liveBanks s q ch r).map (fun b => tget ListSlot.init c.lists (16 * b + r.list))
      let codes := chanCodes s q ch p true ++ reqCodes s q ch r b
        ++ (if ls.any (fun l => decide (l.tide ≠ r.tide)) then [stRange] else [])
      if !codes.isEmpty then answerReq q ch p r (pickStatus codes) 0 [] s
      else if nmuStalled s q ch then s
      else
        let lost := lostMask s q ch r
        let es := bestOf r.k (ls.flatMap (·.entries))
        let code := pickStatus ((if lost ≠ 0 then [stHole] else []) ++ ls.map (·.status))
        answerReq q ch p r code lost [(es.length, entryBytes es)] (updChan s (chanKey q ch) (fun c =>
          { c with answered := tset ListSlot.init c.answered r.list { entries := es, tide := r.tide, status := code } }))

/-- TOPK. -/
def execTopk (quad : Fin 4) (ch : Fin 32) (s : State) : Out := .next (topkOp quad.val ch.val s)

/-- GATHER (R315). [DEDUCED: log 67] -/
def execGather (quad : Fin 4) (ch : Fin 32) (errs : List DramErr) (s : State) : Out :=
  .next (nmuOp 5 quad.val ch.val errs (fun s r banks =>
    let keys := r.flags.testBit 2
    let rows := ((named s quad.val ch.val r).map (·.1)).flatMap (fun t =>
      let w := r.plane.place (t / 64)
      if banks.contains w.2.1 then
        (if keys then [(w.2.1, r.plane.keyOff w.2.2 (t % 64))] else []) ++ [(w.2.1, r.plane.valOff w.2.2 (t % 64))]
      else [])
    { work := banks.map (fun b => (r.plane.row * (rows.filter (fun w => decide (w.1 = b))).length, 0, 0))
      ranges := rows.map (fun w => (w.1, w.2, r.plane.row))
      out := fun t => some (cutParts r.plane.row (rows.flatMap (fun w =>
        readBytes (getChan t (chanKey quad.val ch.val)).mem (bankKey w.1 w.2) r.plane.row))) }) s)

/-- The weighted sum of one bank, element `i` (R315). -/
def accumElem (r : NmuReq) (m : Mem) (bank i : Nat) : Word :=
  (r.entries.filter (fun e => inBank r bank (e.1 / 64))).foldl (fun acc e =>
    let w := r.plane.place (e.1 / 64)
    macStep acc (f32 e.2) (fpDecode r.plane.fmt
      (readNat m (bankKey bank (r.plane.valOff w.2.2 (e.1 % 64)) + i * r.plane.esize) r.plane.esize))) 0

/-- ACCUM (R315): the controller adds the banks' sums in ascending bank order. -/
def execAccum (quad : Fin 4) (ch : Fin 32) (errs : List DramErr) (s : State) : Out :=
  .next (nmuOp 6 quad.val ch.val errs (fun _ r banks =>
    let mine (b : Nat) := r.entries.filter (fun e => inBank r b (e.1 / 64))
    { work := banks.map (fun b => (r.plane.row * (mine b).length, 0, r.plane.dim * (mine b).length))
      ranges := banks.flatMap (fun b => (mine b).map (fun e =>
        (b, r.plane.valOff (r.plane.place (e.1 / 64)).2.2 (e.1 % 64), r.plane.row)))
      out := fun t =>
        let m := (getChan t (chanKey quad.val ch.val)).mem
        some [(1, (List.range r.plane.dim).flatMap (fun i =>
          leBytes 4 (banks.foldl (fun acc b => fadd32 acc (accumElem r m b i)) 0).toNat))] }) s)

/-- COPY_LOCAL (R315); what overlapping ranges leave is open (log 19). [DEDUCED: log 70] -/
def execCopyLocal (quad : Fin 4) (ch : Fin 32) (errs : List DramErr) (s : State) : Out :=
  .next (nmuOp 7 quad.val ch.val errs (fun _ r banks =>
    let laps := decide (r.arg0 ≠ r.arg1 ∧ r.arg0 < r.arg1 + r.arg2 ∧ r.arg1 < r.arg0 + r.arg2)
    { work := banks.map (fun _ => (r.arg2, r.arg2, 0))
      ranges := banks.map (fun b => (b, r.arg0, r.arg2))
      act := fun _ t => forAll banks (fun b u =>
        bankWrite quad.val ch.val b r.arg1
          (if laps then (List.range r.arg2).map (fun i => Config.overlapByte r.arg0 r.arg1 r.arg2 i)
           else readBytes (getChan u (chanKey quad.val ch.val)).mem (bankKey b r.arg0) r.arg2) u) t }) s)

/-- NMU_TIMEOUT (R310): the operation at hand is abandoned and answered TIMEOUT. -/
def execNmuTimeout (quad : Fin 4) (ch : Fin 32) (s : State) : Out :=
  let count (t : State) : State := bump (uChannel quad.val ch.val) 7 t
  .next (match takeReq s quad.val ch.val (fun _ => true) with
    | some (p, r, _) => count (answerReq quad.val ch.val p r stTimeout 0 [] s)
    | none => match nextAt s quad.val ch.val 2 with
      | some p =>
        (match p.payload with
          | .xfer h _ => count (xack p h stTimeout [] s)
          | _ => s)
      | none => s)

/-! ### Modes, bands and windows (R292, R294, R311, R312, R321) -/

/-- The work area of every bank, from offset 0x3FF0_0000 (R294). -/
def noWork (m : Mem) : Mem := tkeep (fun a => decide (a % 2 ^ 30 < 0x3FF00000)) m

/-- R294: what refuses a mode request. -/
def modeRefused (s : State) (key : Nat) : Bool := !(getChan s key).staging.isEmpty || (getChan s key).zeroing

/-- R294: a channel's mode switches. [DESIGN CHOICE: log 75] -/
def switchMode (key : Nat) (processor : Bool) (s : State) : State :=
  updChan s key (fun c =>
    { c with
      mode := processor
      mem := if processor then noWork c.mem else c.mem
      lists := []
      answered := [] })

/-- HB_CH_MODE_REQ (R294). [DESIGN CHOICE: log 75] -/
def execHbChModeReq (quad : Fin 4) (ch : Fin 32) (req : Bool) (s : State) : Out :=
  .next (if modeRefused s (chanKey quad.val ch.val) then s else switchMode (chanKey quad.val ch.val) req s)

/-- The HCH_ASSIGN that waits for a channel's zeroing completes (R382). -/
def endAssign (q ch : Nat) (s : State) : State :=
  match (getEngine s 12).jobs.findIdx? (fun x => opByte x.cmd = 0x31 && x.prog = .scrub
      && decide (field x.cmd 4 1 = q) && decide (field x.cmd 5 1 = ch)) with
  | some j => endJob 12 j stOk (leBytes 1 1) s
  | none => s

/-- CHANNEL_ZEROING (R292). -/
def execChannelZeroing (quad : Fin 4) (ch : Fin 32) (s : State) : Out :=
  .next (if (getChan s (chanKey quad.val ch.val)).zeroing then
      endAssign quad.val ch.val (updChan s (chanKey quad.val ch.val) (fun c =>
        { c with
          zeroing := false
          mem := []
          staging := []
          lists := []
          answered := [] }))
    else s)

/-- The band that a temperature allows, from the band in force: up at once, down only 3 °C below a boundary (R311). -/
def newBand (s : State) (id : Nat) (band : Nat) : Nat :=
  let up := if above s id 1050 then 3 else if above s id 950 then 2 else if above s id 850 then 1 else 0
  let down := if !atMost s id 1020 then 3 else if !atMost s id 920 then 2 else if !atMost s id 820 then 1 else 0
  max up (min band down)

/-- BAND_UPDATE (R311). -/
def execBandUpdate (quad : Fin 4) (ch : Fin 32) (s : State) : Out :=
  .next (updChan s (chanKey quad.val ch.val) (fun c =>
    { c with band := BitVec.ofNat 2 (newBand s (sensorId 9 (32 * quad.val + ch.val)) c.band.toNat) }))

/-- BUDGET_WINDOW (R312): a window's end; cycles of an operation beyond it count in the next one. -/
def execBudgetWindow (quad : Fin 4) (ch : Fin 32) (s : State) : Out :=
  let c := getChan s (chanKey quad.val ch.val)
  let rest := c.spent - nmuBudget c
  let s1 := if c.stalled then bump (uChannel quad.val ch.val) 2 s else s
  .next (updChan s1 (chanKey quad.val ch.val) (fun c =>
    { c with
      spent := rest
      stalled := decide (nmuBudget c ≤ rest) }))

/-- PATROL_SCRUB (R321). -/
def execPatrolScrub (quad : Fin 4) (ch : Fin 32) (errs : List DramErr) (s : State) : Out :=
  .next (if (getChan s (chanKey quad.val ch.val)).mode then s
    else (readErrs quad.val ch.val errs ((List.range 32).map (fun b => (b, 0, 2 ^ 30))) s).2)

/-! ### Loss (R322–R325) -/

/-- A bank passes to FENCED, with its record. -/
def fenceBank (q ch bank reason : Nat) (s : State) : State :=
  fenceLive (uBank q ch bank) (logAt (uHarbour q) (mkRec 0x0A04 2 (uBank q ch bank) none noTide
    [(1, (Config.causeByte 0x0A04 reason).toNat)]) s)

/-- BANK_FENCE (R322). [DEDUCED: log 174] -/
def execBankFence (quad : Fin 4) (ch : Fin 32) (bank : Fin 32) (reason : Fin 3) (s : State) : Out :=
  let n := ((getChan s (chanKey quad.val ch.val)).ueTimes.filter (fun u =>
    decide (u.1 = bank.val) && decide (nowUs s < u.2 + 86400000000))).length
  .next (if !usable s (uBank quad.val ch.val bank.val) ∨ (reason = 0 ∧ n < 4) then s
    else fenceBank quad.val ch.val bank.val reason.val s)

/-- CHANNEL_FAIL (R323). -/
def execChannelFail (quad : Fin 4) (ch : Fin 32) (s : State) : Out :=
  .next (forAll (List.range 32) (fun b t => fenceLive (uBank quad.val ch.val b) t) (fenceLive (uChannel quad.val ch.val) s))

/-- Traffic for an unreachable Harbour that waits at the bridge of one of its ports. -/
def proxyPacket (s : State) (p : Nat) : Option Packet :=
  s.packets.find? (fun k => decide (k.loc = .xl p) && decide (k.sb.dstModule.toNat = ownModule s) && (match k.payload with
    | .xfer h _ => decide (h.op ≠ 5) && decide (haQuad h.haddr = p / 4) && decide (haChan h.haddr / 8 = p % 4)
    | _ => decide (k.sb.kind = 2) && decide (k.sb.dstCore.toNat / 16384 = p)))

/-- BRIDGE_PROXY_ANSWER (R324, R325). [DEDUCED: log 73] -/
def execBridgeProxyAnswer (p : Fin 16) (s : State) : Out := clocked s <|
  let q := p.val / 4
  .next (if (List.range 4).any (fun i => (getPort s (4 * q + i)).pstate = 5 && (getPort s (4 * q + i)).carries
      && (getPort s (4 * q + i)).partner = 2) then s
    else match proxyPacket s p.val with
      | some k =>
        (match k.payload with
          | .xfer h _ => xack k h stHole [] s
          | .block _ _ => removePacket k.serial s
          | .msg b =>
            let r := parseReq k b
            let ch := k.sb.dstCore.toNat / 2048 % 32
            sendHole q ch r.ret r.tide (results q ch k r stHole 0xFFFFFFFF [(0, [])] (removePacket k.serial s)))
      | none => match takeCtl (fun c => match c with
          | .order _ e t tide _ => if t / 16384 = p.val then some (e, t, tide) else none
          | _ => none) s with
        | some ((e, t, tide), u) => sendCtl (.hack e t tide [] true 0 0 0) u
        | none => s)

/-- HARBOUR_POWER_ON (R292, R322): every bank zero, no last owner, and banks that fail are fenced. [DEDUCED: log 188] -/
def execHarbourPowerOn (quad : Fin 4) (bad : List (Fin 32 × Fin 32)) (s : State) : Out :=
  let q := quad.val
  let units := (List.range 32).flatMap (fun c => uChannel q c :: (List.range 32).map (uBank q c))
  let s1 : State := { s with hchans := tkeep (fun k => decide (k / 32 ≠ q)) s.hchans }
  let s2 := forAll (uHarbour q :: units) (fun u t => updHealth t u (fun h => { h with live := 0 })) s1
  .next (forAll bad (fun b t => fenceBank q b.1.val b.2.val 1 t)
    (updHarbour s2 q (fun _ => { rgnEng := [], powered := true })))

end Sys2Proof.Machine
end

