-- ==== Sys2Proof/Machine/Rings.lean ====
section
/-! DEFINITION. Machine/Rings.lean: the rows of ring pairs, vectors, function-level resets, failover and the assignment of
engines (R327–R355). -/

namespace Sys2Proof.Machine

open Sys2Proof

/-- Ring pairs and vectors of a function (R331). -/
def pairCount (f : Nat) : Nat := if f = 0 then 256 else 32
def vecCount (f : Nat) : Nat := if f = 0 then 2048 else 64

/-- The function's current port can carry its requests: its link is in L0 and its bridge is up (R350, R354). -/
def portLive (s : State) (f : Nat) : Bool :=
  let h := if (getFn s f).port then 1 else 0
  (getHport s h).l0 && !bridgeDown s (fnBridge s f)

/-- The module may issue a request for the function: its port is live and no PCIe FLR runs (R346, R354). -/
def mayIssue (s : State) (f : Nat) : Bool := portLive s f && !((getFn s f).resetBusy && (getFn s f).flr)

/-- The pair polls and fetches. -/
def pairRuns (s : State) (f k : Nat) : Bool :=
  let p := getPair s (pairKey f k)
  decide (k < pairCount f) && pairEn p && !p.halted && mayIssue s f

/-! ### Doorbells (R339, R340, R343, R344) -/

/-- A doorbell read is issued. -/
def pollPair (f k : Nat) (late : Bool) (s : State) : State :=
  if !pairRuns s f k ∨ (getPair s (pairKey f k)).reading then s
  else
    let s1 := bump (uPair (pairKey f k)) 1 (updPair s (pairKey f k) (fun p => { p with reading := true }))
    if late then bump (uPair (pairKey f k)) 2 s1 else s1

/-- DOORBELL_POLL (R340). -/
def execDoorbellPoll (fn : Fin 32) (pair : BitVec 8) (late : Bool) (s : State) : Out := clocked s <| .next (pollPair fn.val pair.toNat late s)

/-- R343: why a doorbell record halts its pair, 0 when it does not. -/
def doorbellCause (p : Pair) (b : List Byte) : Nat :=
  let n := pairSize p
  let prod := field b 0 4
  let cons := field b 4 4
  if n ≤ prod then 1
  else if n ≤ cons then 2
  else if ringSub n p.head.toNat p.cons.toNat < ringSub n cons p.cons.toNat then 2
  else if field b 8 56 ≠ 0 then 3
  else 0

/-- DOORBELL_READ (R343). -/
def execDoorbellRead (fn : Fin 32) (pair : BitVec 8) (err : Bool) (s : State) : Out := clocked s <|
  let key := pairKey fn.val pair.toNat
  let p := getPair s key
  let b := readBytes s.hmem (p.db.toNat / 64 * 64) 64
  let s1 := updPair s key (fun p => { p with reading := false })
  .next (if !p.reading then s
    else if !pairRuns s fn.val pair.toNat then s1
    else if err then haltPair fn.val pair.toNat 4 s1
    else if doorbellCause p b ≠ 0 then haltPair fn.val pair.toNat (doorbellCause p b) s1
    else updPair s1 key (fun p =>
      { p with
        prod := BitVec.ofNat 16 (field b 0 4)
        cons := BitVec.ofNat 16 (field b 4 4) }))

/-! ### Fetch (R338, R341) -/

/-- New entries exist. -/
def hasNew (p : Pair) : Bool := decide (p.head ≠ p.prod)

/-- Entries that may be fetched in one read. [DEDUCED: log 176] -/
def fetchCount (p : Pair) : Nat :=
  let n := pairSize p
  min (min 32 (n - p.head.toNat)) (min (ringSub n p.prod.toNat p.head.toNat) (n - 1 - ringSub n p.head.toNat p.cons.toNat))

/-- ENTRY_FETCH (R341, R343). [DEDUCED: log 176] -/
def execEntryFetch (fn : Fin 32) (pair : BitVec 8) (err : Bool) (s : State) : Out := clocked s <|
  let key := pairKey fn.val pair.toNat
  let p := getPair s key
  let n := fetchCount p
  let base := pairBase p.sr
  .next (if !pairRuns s fn.val pair.toNat ∨ !hasNew p then s
    else if n = 0 then
      (if p.waited = some p.head.toNat then s
       else bump (uPair key) 3 (updPair s key (fun p => { p with waited := some p.head.toNat })))
    else if err then haltPair fn.val pair.toNat 4 s
    else
      let new := (List.range n).map (fun i => p.head.toNat + i)
      bumpBy (uPair key) 0 n (updPair s key (fun p =>
        { p with
          fetched := p.fetched ++ new.map (fun i => (i, p.phase, readBytes s.hmem (base + 32 * i) 32))
          owed := p.owed.filter (fun i => !new.contains i) ++ new
          head := BitVec.ofNat 16 ((p.head.toNat + n) % pairSize p)
          phase := if p.head.toNat + n = pairSize p then !p.phase else p.phase
          waited := none })))

/-- R358, R7: an entry that cannot be a command of its engine. -/
def entryBad (e : Nat) (cmd : List Byte) : Bool :=
  !(opEngines (opByte cmd)).contains (engineKind e) || decide (2 ≤ field cmd 1 1)

/-- The slot is reserved for a command that has not completed. -/
def slotLive (s : State) (f k i : Nat) : Bool :=
  (getEngine s (pairEngine (getPair s (pairKey f k)))).jobs.any (fun x =>
      decide (x.ticket.fn = f) && decide (x.ticket.pair = k) && decide (x.ticket.index = i))
    || (getPair s (pairKey f k)).ready.any (fun c => decide (c.ticket.index = i))

/-- ENTRY_ARRIVAL (R337, R338, R358). -/
def execEntryArrival (fn : Fin 32) (pair : BitVec 8) (s : State) : Out := clocked s <|
  let key := pairKey fn.val pair.toNat
  let p := getPair s key
  let e := pairEngine p
  .next (match p.fetched with
    | [] => s
    | (i, ph, b) :: rest =>
      let s1 := updPair s key (fun p => { p with fetched := rest })
      if i ≠ p.expect then
        bump (uPair key) 4 (if slotLive s1 fn.val pair.toNat i then s1
          else updPair s1 key (fun p => { p with owed := p.owed.filter (fun x => x ≠ i) }))
      else
        let t : Ticket :=
          { fn := fn.val, pair := pair.toNat, index := i, phase := ph, tag := BitVec.ofNat 16 (field b 2 2),
            op := BitVec.ofNat 8 (opByte b), quiet := decide (field b 1 1 % 2 = 1) }
        let s2 := updPair s1 key (fun p => { p with expect := (i + 1) % pairSize p })
        if entryBad e b then queueCpl { ticket := t, status := stBad, unit := e } s2
        else updEngine s2 e (fun g => { g with jobs := g.jobs ++ [{ ticket := t, cmd := b }] }))

/-! ### Completions and interrupts (R341, R342, R345, R350) -/

/-- Completions that the standby of a bridge keeps. -/
def keptCount (s : State) (hb : Bool) : Nat :=
  (s.pairs.map (fun e => if (getFn s (e.1 / 256)).port = hb then e.2.kept.length else 0)).sum

/-- A completion is written into its slot, kept by the standby, and counted for its vector. -/
def writeCpl (f k : Nat) (c : Cpl) (rest : List Cpl) (s : State) : State :=
  let key := pairKey f k
  let p := getPair s key
  let b := cplBytes p c
  let s1 := updPair { s with hmem := writeBytes s.hmem (pairBase p.cr + 32 * c.ticket.index) b } key (fun p =>
    { p with
      ready := rest
      owed := if c.ticket.op = 0 ∧ c.ticket.tag = 0xFFFF ∧ c.ticket.index = p.head.toNat then p.owed
        else p.owed.filter (fun i => i ≠ c.ticket.index)
      kept := if (getFn s f).standbyOk then p.kept.filter (fun x => x.1 ≠ c.ticket.index) ++ [(c.ticket.index, b)] else p.kept })
  if c.ticket.quiet ∨ pairVector p = 0 then s1
  else updVec s1 (2048 * f + pairVector p) (fun v =>
    { v with
      pending := v.pending + 1
      firstUs := some (v.firstUs.getD (nowUs s)) })

/-- COMPLETION_WRITE (R342, R350): held while the port is out of L0, and while the standby is full. -/
def execCompletionWrite (fn : Fin 32) (pair : BitVec 8) (s : State) : Out := clocked s <|
  .next (match (getPair s (pairKey fn.val pair.toNat)).ready with
    | [] => s
    | c :: rest =>
      if !mayIssue s fn.val ∨ ((getFn s fn.val).standbyOk ∧ 8192 ≤ keptCount s (getFn s fn.val).port) then s
      else writeCpl fn.val pair.toNat c rest s)

/-- MSIX_SEND (R345). -/
def execMsixSend (fn : Fin 32) (vector : BitVec 11) (s : State) : Out := clocked s <|
  let key := 2048 * fn.val + vector.toNat
  let v := getVec s key
  let due := (decide (v.count ≠ 0) && decide (v.count.toNat ≤ v.pending)) || decide (v.count = 0 ∧ v.time = 0 ∧ 0 < v.pending)
  .next (if vector = 0 ∨ vecCount fn.val ≤ vector.toNat ∨ !due ∨ !mayIssue s fn.val then s else sendMsi key s)

/-- VECTOR_TIME_EXPIRY (R345). -/
def execVectorTimeExpiry (fn : Fin 32) (vector : BitVec 11) (s : State) : Out := clocked s <|
  let key := 2048 * fn.val + vector.toNat
  let v := getVec s key
  .next (if vector = 0 ∨ vecCount fn.val ≤ vector.toNat ∨ v.time = 0 ∨ v.pending = 0 ∨ !mayIssue s fn.val then s
    else match v.firstUs with
      | none => s
      | some u => sendMsi key (clockTo (tcycle s + ((u + v.time.toNat - nowUs s) * 12288 + 9) / 10) s))

/-- EVENT_VECTOR (R345). -/
def execEventVector (fn : Fin 32) (s : State) : Out := clocked s <|
  .next (if (getVec s (2048 * fn.val)).pending = 0 ∨ !mayIssue s fn.val then s else sendMsi (2048 * fn.val) s)

/-- A vector is unmasked: its pending message is sent. -/
def unmaskVec (v : Vec) : Vec :=
  { v with
    masked := false
    pba := false
    sent := if v.pba then v.sent + 1 else v.sent }

/-- MSIX_UNMASK (R345). -/
def execMsixUnmask (fn : Fin 32) (vector : BitVec 11) (s : State) : Out := clocked s <|
  let key := 2048 * fn.val + vector.toNat
  .next (if !barOpen s fn.val ∨ vecCount fn.val ≤ vector.toNat then s else updVec s key unmaskVec)

/-! ### Enabling and disabling (R335, R336) -/

/-- R335, R445: what refuses EN = 1. -/
def enableRefused (s : State) (f k : Nat) (ctl : Word) : Bool :=
  let p := getPair s (pairKey f k)
  let q : Pair := { p with ctl := ctl }
  let e := pairEngine q
  let shared := s.pairs.any (fun x => decide (x.1 / 256 = f) && decide (x.1 % 256 ≠ k) && pairEn x.2
    && (decide (pairBase x.2.sr = pairBase p.sr) || decide (pairBase x.2.cr = pairBase p.cr)
        || decide (x.2.db.toNat / 64 = p.db.toNat / 64)))
  !s.up.ready || decide (12 < e) || !(getEngine s e).owned || decide ((getEngine s e).owner.toNat ≠ f) || decide (pairLog q < 6)
    || decide (16 < pairLog q) || decide (pairPoll q = 0) || decide (pairVector p = 0) || decide (vecCount f ≤ pairVector p) || shared

/-- RING_ENABLE (R335, R336). [DEDUCED: log 82] -/
def execRingEnable (fn : Fin 32) (pair : BitVec 8) (ctl : BitVec 32) (s : State) : Out := clocked s <|
  let key := pairKey fn.val pair.toNat
  let p := getPair s key
  .next (if !barOpen s fn.val ∨ pairCount fn.val ≤ pair.toNat ∨ !ctl.getLsbD 0 ∨ pairEn p ∨ pairBusy p ∨ enableRefused s fn.val pair.toNat ctl then s
    else updPair s key (fun p =>
      { p with
        ctl := ctl &&& 0x003FFFFF#32
        halted := false
        cause := 0
        head := 0
        phase := true
        prod := 0
        cons := 0
        fetched := []
        ready := []
        expect := 0
        kept := []
        reported := 0
        waited := none }))

/-- RING_DISABLE (R336). -/
def execRingDisable (fn : Fin 32) (pair : BitVec 8) (s : State) : Out := clocked s <|
  .next (if !barOpen s fn.val ∨ pairCount fn.val ≤ pair.toNat then s
    else updPair s (pairKey fn.val pair.toNat) (fun p => { p with ctl := p.ctl &&& 0xFFFFFFFE#32 }))

/-- RING_REPORT (R350): the HEAD dispatched and the last slot written reach the standby. [DEDUCED: log 81] -/
def execRingReport (fn : Fin 32) (pair : BitVec 8) (s : State) : Out := clocked s <|
  .next (if pairCount fn.val ≤ pair.toNat then s
    else updPair s (pairKey fn.val pair.toNat) (fun p =>
      { p with
        reported := match p.fetched with
          | [] => p.head
          | x :: _ => BitVec.ofNat 16 x.1
        kept := [] }))

/-! ### Function-level reset (R346–R348) -/

/-- Pairs of a function. -/
def pairsOf (s : State) (f : Nat) : List Nat := s.pairs.filterMap (fun e => if e.1 / 256 = f then some e.1 else none)

/-- Every completion of a pair that is ready is written, then FUNCTION_RESET into the slots still owed. -/
def resetPair (key : Nat) (s : State) : State :=
  let f := key / 256
  let k := key % 256
  let s1 := forAll (getPair s key).ready (fun c t => writeCpl f k c [] t) s
  let p := getPair s1 key
  forAll p.owed (fun i t =>
    let e := p.fetched.find? (fun x => x.1 = i)
    let h := (e.map (·.2.2)).getD []
    let ph := (e.map (·.2.1)).getD (if i < p.head.toNat then p.phase else !p.phase)
    writeCpl f k
      { ticket := { fn := f, pair := k, index := i, phase := ph, tag := BitVec.ofNat 16 (field h 2 2),
                    op := BitVec.ofNat 8 (field h 0 1), quiet := decide (field h 1 1 % 2 = 1) }
        status := stReset
        unit := pairEngine p } [] t) s1

/-- Engines that a function owns. -/
def enginesOf (s : State) (f : Nat) : List Nat :=
  (List.range 13).filter (fun e => (getEngine s e).owned && decide ((getEngine s e).owner.toNat = f))

/-- Vector moderation at its reset values; on a PCIe FLR the MSI-X table as well (R347). -/
def resetVecs (f : Nat) (flr : Bool) (s : State) : State :=
  forAll (s.vecs.filterMap (fun e => if e.1 / 2048 = f then some e.1 else none)) (fun v t => updVec t v (fun x =>
    if flr then { sent := x.sent }
    else { x with count := 0, time := 0, pending := if v % 2048 = 0 then x.pending else 0, firstUs := none })) s

/-- R492: a reset of PF0 abandons the mailbox request. -/
def abandonMail (f : Nat) (s : State) : State :=
  let m := s.lh.mbx
  if f ≠ 0 then s
  else
    let m1 : Mailbox := { m with busy := false, done := false, taken := false }
    let h := uHost (if (getFn s 0).port then 1 else 0)
    let s1 : State := { s with lh := { s.lh with mbx := m1 } }
    if m.busy then
      logAt h (mkRec 0x1006 1 h (some 0) noTide [(1, (mget m.req 0).toNat), (1, (Config.causeByte 0x1006 1).toNat)]) (dropMailOrders s1)
    else s1

/-- A function-level reset begins (R346–R348, R386). A PCIe FLR during a soft reset makes an FLR of the rest. -/
def resetFn (f : Nat) (flr : Bool) (s : State) : State :=
  let g := getFn s f
  if g.resetBusy then (if flr && !g.flr then resetVecs f true (updFn s f (fun g => { g with flr := true })) else s)
  else
    let s1 := updFn (abandonMail f s) f (fun g => { g with resetBusy := true, keepNow := g.keep, flr := flr })
    let s2 := forAll (enginesOf s1 f) (fun e t => resetEngine e (some g.keep) none t) s1
    let s3 := forAll (List.range 13) (fun e t => endJobs e stReset (fun x => decide (x.ticket.fn = f)) t) s2
    let s4 := if flr then s3 else forAll (pairsOf s3 f) resetPair s3
    let s5 : State := { s4 with pairs := s4.pairs.filter (fun e => decide (e.1 / 256 ≠ f)) }
    let own := (List.range 512).filter (fun n => (getRegion s5 n).owned && decide ((getRegion s5 n).owner.toNat = f))
    let s6 := forAll (own.flatMap regionCores) (fun k t => updCore (countIngest k t) k (flrCore g.keep)) s5
    let s7 := forAll (List.range 512) (fun r t => if own.isEmpty then t else sendCtl (.forfeitFn r f) t) s6
    let s8 := forAll (enginesOf s7 f) (fun e t => updEngine t e (fun g => { g with state := 5 })) s7
    let h := uHost (if g.port then 1 else 0)
    logAt h (mkRec 0x0B04 0 h (some f) noTide [(1, if flr then 0 else 1)]) (resetVecs f flr s8)

/-- PCIE_FLR (R346): that of PF0 resets every VF too. -/
def execPcieFlr (fn : Fin 32) (s : State) : Out := clocked s <|
  .next (forAll (if fn = 0 then List.range 32 else [fn.val]) (fun f t => resetFn f true t) s)

/-- RESET_SOFT (R346). -/
def execResetSoft (fn : Fin 32) (s : State) : Out := clocked s <| .next (resetFn fn.val false s)

/-- FN_RESET_DONE (R346, R347, R386). [DEDUCED: log 83] -/
def execFnResetDone (fn : Fin 32) (s : State) : Out := clocked s <|
  let g := getFn s fn.val
  .next (if !g.resetBusy then s
    else
      let s1 := updFn s fn.val (fun g => { g with resetBusy := false, flr := false })
      let s2 := forAll (enginesOf s1 fn.val) (fun e t => updEngine t e (fun x =>
        if x.state = 5 then { x with state := 0 } else x)) s1
      if g.flr then s2 else setEvent fn.val 3 s2)

/-- R346: VF Enable of a port is cleared. -/
def clearVfs (port : Nat) (s : State) : State :=
  if !(getHport s port).vfEn then s
  else settleStandby (forAll (List.range 32) (fun f t => resetFn f true t)
    (updHport s port (fun h => { h with vfEn := false, vfs := 0 })))

/-- VF_ENABLE_CLEAR (R346). -/
def execVfEnableClear (port : Fin 2) (s : State) : Out := clocked s <| .next (clearVfs port.val s)

/-! ### Failover (R350–R354) -/

/-- A pair as the standby takes it over: it refetches from the last reported HEAD, and reads its doorbell record at once. -/
def takeOver (p : Pair) : Pair :=
  let back := decide (p.head.toNat < p.reported.toNat)
  { p with
    head := p.reported
    phase := if back then !p.phase else p.phase
    fetched := []
    kept := []
    reading := pairEn p && !p.halted }

/-- A pair's part of a failover (R352): the rewrites, the refetch and the re-poll. -/
def failPair (key : Nat) (s : State) : State :=
  let p := getPair s key
  let kept := sortBy (fun a b => decide (a.1 ≤ b.1)) p.kept
  let m := kept.foldl (fun m x => writeBytes m (pairBase p.cr + 32 * x.1) x.2) s.hmem
  let s1 : State := { s with hmem := m }
  let s2 := updPair s1 key takeOver
  if pairEn p ∧ !p.halted then bump (uPair key) 1 s2 else s2

/-- Failover of a function (R352), or the end of its pairs when nothing can take it over (R353). [DEDUCED: log 80, 84] -/
def failover (f trigger : Nat) (s : State) : State :=
  let g := getFn s f
  let h := uHost (if g.port then 0 else 1)
  if g.standbyOk then
    let s1 := forAll (pairsOf s f) failPair s
    let s2 := updFn s1 f (fun g => { g with port := !g.port })
    let s3 := setEvent f 1 (bump uModule (if g.port then 4 else 3) s2)
    settleStandby (logAt h (mkRec 0x0B02 2 h (some f) noTide
      [(1, if g.port then 1 else 0), (1, if g.port then 0 else 1), (1, (Config.causeByte 0x0B02 trigger).toNat)]) s3)
  else
    let s1 := forAll (pairsOf s f) (fun key t => updPair t key (fun p =>
      { p with
        halted := p.halted || pairEn p
        reading := false })) s
    let s2 := if (pairsOf s f).any (fun key => pairEn (getPair s key) && !(getPair s key).halted) then setEvent f 0 s1 else s1
    forAll (streamsWhere s2 (fun x => decide (x.fn = f))) (fun n t => match getStream t n with
      | none => t
      | some x => settleStreaming x.outEng (settleStreaming x.inEng (setStream t n none))) s2

/-- FAILOVER (R352): the function's current bridge is down. -/
def execFailover (fn : Fin 32) (s : State) : Out := clocked s <|
  .next (if bridgeDown s (fnBridge s fn.val) then failover fn.val 0 s else s)

/-- LINK_DOWN_TIMEOUT (R352). -/
def execLinkDownTimeout (port : Fin 2) (s : State) : Out := clocked s <|
  let h := getHport s port.val
  .next (if h.l0 then s
    else
      let t := clockTo (tcycle s + ((h.downUs + 10000 - nowUs s) * 12288 + 9) / 10) s
      forAll ((List.range 32).filter (fun f => (getFn s f).port = decide (port.val = 1) && fnEnabled s port.val f))
        (fun f t => failover f 1 t) t)

/-- A port's link enters or leaves L0. -/
def linkChange (port : Nat) (up : Bool) (s : State) : State :=
  settleStandby (updHport s port (fun h =>
    { h with
      l0 := up
      downUs := if h.l0 && !up then nowUs s else h.downUs }))

/-- HOST_LINK_L0_CHANGE (R351, R354). The link trains from the end of phase 3 on, and not while PERST_N is asserted (R445, R574). -/
def execHostLinkL0Change (port : Fin 2) (up : Bool) (s : State) : Out := clocked s <|
  .next (if up ∧ ((getHport s port.val).perst ∨ s.up.phase ≤ 3) then s else linkChange port.val up s)

/-! ### Assignment (R332, R333, R350, R354) -/

/-- ADM_ENG_OWNER_WRITE (R333). -/
def execAdmEngOwnerWrite (e : Fin 13) (v : BitVec 32) (s : State) : Out := clocked s <|
  let g := getEngine s e.val
  let inUse := g.image.isSome || decide (g.state = 1) || !(namingStreams s e.val).isEmpty
    || s.pairs.any (fun x => pairEn x.2 && decide (pairEngine x.2 = e.val))
  .next (if !barOpen s 0 ∨ e = 12 ∨ inUse then s
    else updEngine s e.val (fun g => { g with owner := v.setWidth 5, owned := v.getLsbD 5 }))

/-- ADM_FN_CFG_WRITE (R332, R352, R354). -/
def execAdmFnCfgWrite (f : Fin 32) (v : BitVec 32) (s : State) : Out := clocked s <|
  let s1 := updFn s f.val (fun g => { g with home := v.getLsbD 0, keep := v.getLsbD 1 })
  .next (if !barOpen s 0 then s else if v.getLsbD 0 ≠ (getFn s f.val).port then failover f.val 3 s1 else s1)

end Sys2Proof.Machine
end

