-- ==== Sys2Proof/Machine/Engines.lean ====
section
/-! DEFINITION. Machine/Engines.lean: the commands of the Stream Engines and those of every engine: lists, fences, snapshots,
resets, tide parameters, streams, frames, checkpoints, synchronisation and integrity policies (R358–R375, R384–R395). -/

namespace Sys2Proof.Machine

open Sys2Proof

/-! ### Lists, fences, snapshots, resets (R360, R361, R384, R386) -/

/-- The commands of a list. [DEDUCED: log 175] -/
def listCmds (s : State) (addr n : Nat) : List (List Byte) := (List.range n).map (fun i => readBytes s.hmem (addr + 32 * i) 32)

/-- The status of a host read that failed: an error is BAD_DESCRIPTOR, a timeout is TIMEOUT (R343, R363, R370). -/
def readFail (err : Bool) : Option Nat := if err then some stBad else none

/-- A LIST, with the status of its host read when that failed. [DEDUCED: log 86] -/
def listCmd (e j : Nat) (fail : Option Nat) (s : State) : State :=
  let stop (code : Nat) (l : ListRun) (t : State) : State := endJob e j code (listResult l) t
  startJob e j 0x01 (fun x t =>
    let n := cmdNat x 4 2
    let addr := cmdNat x 8 8
    if n = 0 ∨ 4096 < n ∨ addr % 32 ≠ 0 then stop stRange { rest := [] } t
    else match fail with
      | some code => stop code { rest := [] } t
      | none => match listCmds t addr n with
        | [] => t
        | c :: cs =>
          if unlistable e c then stop stBad { rest := [], done := 1, codes := [stBad] } t
          else updJob t e j (fun y => { y with cmd := c, lst := some { rest := cs }, prog := .fresh })) s

/-- LIST (R361). -/
def execList (e : Fin 13) (j : Nat) (err : Bool) (s : State) : Out := clocked s <| .next (listCmd e.val j (readFail err) s)

/-- Frames of a ring that have not completed. -/
def ringFrames (s : State) (x : Job) : Bool :=
  s.streams.any (fun e => e.2.any (fun st => (st.taken.toList ++ st.queue).any (fun f =>
    f.ticket.fn = x.ticket.fn && f.ticket.pair = x.ticket.pair)))

/-- FENCE (R360). -/
def execFence (e : Fin 13) (j : Nat) (s : State) : Out := clocked s <|
  .next (match getJob s e.val j with
    | none => s
    | some x =>
      if ((getEngine s e.val).jobs.take j).any (sameRing x) ∨ ringFrames s x then s
      else startJob e.val j 0x02 (fun _ t => endJob e.val j stOk [] t) s)

/-- A counter unit: its model id, the number of its first counter, and which numbers it has; or the status that refuses it
(R384, R409). -/
def snapUnit (s : State) (fn scope u : Nat) : Sum Nat (Nat × Nat × (Nat → Bool)) :=
  let below (k : Nat) : Nat → Bool := fun n => decide (n < k)
  let region (n : Nat) : Bool := (getRegion s n).owned && decide ((getRegion s n).owner.toNat = fn)
  let engine (k : Nat) : Bool := (getEngine s k).owned && decide ((getEngine s k).owner.toNat = fn)
  match scope with
  | 0 =>
    if 2 ^ 18 ≤ u then .inl stRange
    else if !region (u / 512) then .inl stNotOwner else .inr (uCore (carrier s u), 0, coreCounter)
  | 1 => if 512 ≤ u then .inl stRange else if !region u then .inl stNotOwner else .inr (uRegion u, 0, below 18)
  | 2 =>
    if 13 ≤ u then .inl stRange
    else if !engine u then .inl stNotOwner else .inr (uEngine u, 0, below (if u < 8 then 17 else 3))
  | 3 => if pairCount fn ≤ u then .inl stRange else .inr (uPair (pairKey fn u), 0, below 5)
  | 4 => if fn ≠ 0 then .inl stNotOwner else if 32 ≤ u then .inl stRange else .inr (uBridge u, 0, below 36)
  | 5 => if fn ≠ 0 then .inl stNotOwner else if 16 ≤ u then .inl stRange else .inr (uPort u, 0, below 9)
  | 6 => if fn ≠ 0 then .inl stNotOwner else if 128 ≤ u then .inl stRange else .inr (uChannel (u / 32) (u % 32), 0, below 8)
  | 7 => if fn ≠ 0 then .inl stNotOwner else if u ≠ 0 then .inl stRange else .inr (uModule, 0, below 12)
  | 8 =>
    if u < 512 then (if fn ≠ 0 then .inl stNotOwner else .inr (uRegion u, 0x100, below 7))
    else if 0x1000 ≤ u ∧ u < 0x1020 then (if fn ≠ 0 then .inl stNotOwner else .inr (uBridge (u - 0x1000), 0x40, below 2))
    else if 0x2000 ≤ u ∧ u < 0x2008 then (if !engine (u - 0x2000) then .inl stNotOwner else .inr (uEngine (u - 0x2000), 0x100, below 6))
    else .inl stRange
  | _ => .inl stRange

/-- One counter read on the Configuration Engine path and written as 8 bytes (R384). -/
def snapOne (u n dst : Nat) (s : State) : State :=
  let r := ctrLoRead 0 u n s
  let hi := ctrHi 0 u n r.2
  { r.2 with hmem := writeBytes r.2.hmem dst (leBytes 4 r.1.toNat ++ leBytes 4 hi.toNat) }

/-- CNT_SNAP (R384). -/
def execCntSnap (e : Fin 13) (j : Nat) (s : State) : Out := clocked s <|
  .next (startJob e.val j 0x03 (fun x t =>
    let n := cmdNat x 6 2
    let first := cmdNat x 0x0C 2
    let dst := cmdNat x 0x10 8
    match snapUnit t (jobFn x) (cmdNat x 4 1) (cmdNat x 8 4) with
    | .inl code => endJob e.val j code (leBytes 4 0) t
    | .inr (u, base, valid) =>
      if n = 0 ∨ 256 < n ∨ dst % 8 ≠ 0 ∨ !(List.range n).all (fun i => valid (first + i)) then endJob e.val j stRange (leBytes 4 0) t
      else
        let freeze := decide (cmdNat x 5 1 = 1)
        let t1 := if freeze then ctrFreeze (freezeGroup u) true t else t
        let t2 := forAll (List.range n) (fun i => snapOne u (base + first + i) (dst + 8 * i)) t1
        let t3 := if freeze then ctrFreeze (freezeGroup u) false t2 else t2
        endJob e.val j stOk (leBytes 4 n) t3) s)

/-- ENG_RESET (R386): the reset abandons every other running command and completes OK. -/
def execEngReset (e : Fin 13) (j : Nat) (s : State) : Out := clocked s <|
  .next (startJob e.val j 0x04 (fun x t =>
    let t1 := resetEngine e.val none (some x.ticket) t
    match jobAt (getEngine t1 e.val) x.ticket with
    | some i => endJob e.val i stOk [] t1
    | none => t1) s)

/-! ### Image and tide parameters (R364, R365) -/

/-- IMAGE_UNBIND (R364, R367): at the next boundary, or at once when no tide runs. -/
def execImageUnbind (e : Fin 8) (j : Nat) (s : State) : Out := clocked s <|
  .next (startJob e.val j 0x11 (fun _ t =>
    if !(namingStreams t e.val).isEmpty then endJob e.val j stRange [] t
    else if tidesRun (getEngine t e.val) then updEngine t e.val (fun g => { g with unbinding := true })
    else endUnbind e.val t) s)

/-- The period of the engine to which a region is bound. -/
def regionPeriod (s : State) (n : Nat) : Option (Nat × BitVec 3) :=
  (getRegion s n).engine.map (fun e => (e.val, ((getEngine s e.val).pend.getD (getEngine s e.val).params).period))

/-- R82: with this PERIOD a static channel would join engines of different periods. -/
def periodClash (s : State) (e : Nat) (p : BitVec 3) : Bool :=
  let own (c : ChanRec) : Bool := decide (c.kind = 1) && decide (c.dst.toNat / 2 ^ 18 % 16 = ownModule s)
  let dst (c : ChanRec) : Option (Nat × BitVec 3) := regionPeriod s (c.dst.toNat / 512 % 512)
  ((((getEngine s e).image.map (·.chans)).getD []).any (fun c => own c && (dst c).any (fun d => d.1 ≠ e && d.2 ≠ p)))
    || (List.range 8).any (fun k => decide (k ≠ e) && ((((getEngine s k).image.map (·.chans)).getD []).any (fun c =>
        own c && (dst c).any (fun d => d.1 = e)
          && decide (((getEngine s k).pend.getD (getEngine s k).params).period ≠ p))))

/-- The tide parameters that a command names: DEADLINE 0 stands for the default. -/
def bindParams (x : Job) : TideParams :=
  let p := periodCycles (BitVec.ofNat 3 (cmdNat x 4 1))
  { period := BitVec.ofNat 3 (cmdNat x 4 1)
    deadline := BitVec.ofNat 32 (if cmdNat x 8 4 = 0 then p - 24576 else cmdNat x 8 4)
    ckptTides := BitVec.ofNat 16 (cmdNat x 0x0C 2)
    ckptBase := BitVec.ofNat 64 (cmdNat x 0x10 8)
    ckptValid := decide (cmdNat x 0x18 1 = 1) }

/-- R188, R189, R365: what refuses a TIDE_BIND. -/
def bindCodes (s : State) (e : Nat) (x : Job) : List Nat :=
  let g := getEngine s e
  let ps := bindParams x
  let c := getChan s (haKey ps.ckptBase)
  let d := cmdNat x 8 4
  (if 4 < cmdNat x 4 1 ∨ (d ≠ 0 ∧ (d < 6144 ∨ periodCycles ps.period < d + 12288))
      ∨ g.image.any (fun im => decide (50 * ps.deadline.toNat < im.proof.toNat))
      ∨ (ps.period ≠ g.params.period ∧ !(namingStreams s e).isEmpty) ∨ periodClash s e ps.period
      ∨ (ps.ckptValid ∧ ps.ckptTides = 0) then [stRange] else [])
    ++ (if ps.ckptValid then
        (if c.mode ∨ 2 ^ 42 ≤ ps.ckptBase.toNat ∨ ps.ckptBase.toNat % 64 ≠ 0 then [stRange] else [])
          ++ (if c.owned ∧ c.owner.toNat = jobFn x then [] else [stNotOwner])
      else [])

/-- The number of the next tide of an engine with parameters `ps`. -/
def nextTide (s : State) (e : Nat) (ps : TideParams) : Word :=
  tideNumber (BitVec.ofNat 64 (nextStart s { getEngine s e with pend := some ps } / 50)) (periodCycles ps.period)

/-- TIDE_BIND (R365, R189). [DEDUCED: log 89] -/
def execTideBind (e : Fin 8) (j : Nat) (s : State) : Out := clocked s <|
  .next (startJob e.val j 0x12 (fun x t =>
    let codes := bindCodes t e.val x
    let ps := bindParams x
    let n := nextTide t e.val ps
    if !codes.isEmpty then endJob e.val j (pickStatus codes) [] t
    else finishJob e.val j stOk (leBytes 4 n.toNat) 0xFFFF n (updEngine t e.val (fun g =>
      if tidesRun g then { g with pend := some ps } else { g with params := ps, pend := none }))) s)

/-! ### Streams (R366–R369) -/

/-- Condition cycles of a stream in a tide (R241). -/
def conditionCycles (x : Stream) (p : BitVec 3) : Nat :=
  let frames := if audioField x 3 1 = 0 then 0 else 2 ^ p.toNat / 2 ^ audioField x 6 1
  max ((inSamples x p + 3) / 4) (128 * frames) + 64

/-- R236: a field outside its range, for PERIOD `p`. -/
def audioRange (x : Stream) (p : BitVec 3) : Bool :=
  let f := audioField x
  decide (3 < f 0 1) || decide (1 < f 1 1) || decide (3 < f 2 1) || decide (1 < f 3 1) || decide (32767 < f 4 2)
    || (if f 3 1 = 0 then decide (f 6 1 ≠ 0 ∨ f 7 1 ≠ 0 ∨ f 8 1 ≠ 0 ∨ f 0x0A 2 ≠ 0 ∨ f 0x0C 2 ≠ 0)
        else decide (2 < f 6 1 ∨ p.toNat < f 6 1 ∨ 2 < f 7 1 ∨ 1 < f 8 1 ∨ 1000 < f 0x0A 2 ∨ f 0x0C 2 < f 0x0A 2 + 500
          ∨ rateHz (f 2 1) / 2 < f 0x0C 2))
    || decide (3 < f 0x10 1) || decide (1 < f 0x11 1) || decide (srcSamples x p < overlap x) || decide (3 < f 0x14 1)
    || decide (1 < f 0x15 1) || decide (1 < f 0x16 1) || decide (1023 < f 0x1A 2) || decide (1023 < f 0x1E 2)

/-- R237: the stream fits on the bridges of its endpoints and repeats no (endpoint, sub) pair. -/
def bridgesFit (s : State) (x : Stream) (p : BitVec 3) : Bool :=
  let half := periodCycles p * 25 / 2
  let others := streamsWhere s (fun _ => true)
  let cond := others.filter (fun n => (getStream s n).any (fun y => condBridge s y = condBridge s x))
  let dlv := others.filter (fun n => (getStream s n).any (fun y => dlvBridge s y = dlvBridge s x))
  let cyc (f : Stream → Nat) (ns : List Nat) : Nat := (ns.map (fun n => ((getStream s n).map f).getD 0)).sum
  decide (conditionCycles x p + cyc (fun y => conditionCycles y (getEngine s y.inEng).params.period) cond ≤ half)
    && decide (deliverCycles s x + cyc (deliverCycles s) dlv ≤ half) && decide (cond.length < 1024) && decide (dlv.length < 1024)
    && !(others.any (fun n => (getStream s n).any (fun y =>
      (y.inEng = x.inEng && audioField y 0x18 4 = audioField x 0x18 4)
        || (y.outEng = x.outEng && audioField y 0x1C 4 = audioField x 0x1C 4))))

/-- A stream-map entry (R368). -/
def mapEntry (w : Nat) : Nat × Nat × Bool := (w % 512, w / 512 % 32, decide (w / 2 ^ 14 % 2 = 1))

/-- R366, R368: what refuses an open. -/
def openCodes (s : State) (e : Nat) (fn : Nat) (x : Stream) (words : List Nat) : List Nat :=
  let p := (getEngine s x.inEng).params.period
  let se (k : Nat) : Bool := decide (k < 8)
  let mine (k : Nat) : Bool := (getEngine s k).owned && decide ((getEngine s k).owner.toNat = fn)
  let runs (k : Nat) : Bool := decide ((getEngine s k).state = 2 ∨ (getEngine s k).state = 3)
  let stages := stageOf s x.inEng ++ stageOf s x.outEng
  if !se x.inEng ∨ !se x.outEng then [stRange]
  else
    (if mine x.inEng && mine x.outEng then [] else [stNotOwner])
      ++ (if field x.audio 9 1 ≠ 0 ∨ field x.audio 0x17 1 ≠ 0 ∨ words.any (fun w => decide (2 ^ 15 ≤ w)) then [stBad] else [])
      ++ (if runs x.inEng && runs x.outEng && decide ((getEngine s x.outEng).params.period = p)
            && (decide (x.inEng = e) || decide (x.outEng = e))
            && (condBridge s x).any (fun b => !bridgeDown s b) && (dlvBridge s x).any (fun b => !bridgeDown s b)
            && !audioRange x p && bridgesFit s x p
            && decide ((streamsWhere s (fun _ => true)).length < 4096)
            && decide ((namingStreams s x.inEng).length < 2048) && decide ((namingStreams s x.outEng).length < 2048)
            && x.map.all (fun m => stages.contains m.1 && (!m.2.2 || decide (m.2.1 = 0))) then [] else [stRange])

/-- The lowest free stream number. -/
def freeStream (s : State) : Nat := ((List.range 4096).find? (fun n => (getStream s n).isNone)).getD 4096

/-- A STREAM_OPEN, with the status of its host read when that failed. -/
def openCmd (e : Fin 8) (j : Nat) (fail : Option Nat) (s : State) : State :=
  startJob e.val j 0x13 (fun x t =>
    let addr := cmdNat x 8 8
    let count := cmdNat x 6 2
    let words := (List.range count).map (fun i => readNat t.hmem (addr + 32 + 4 * i) 4)
    let n := freeStream t
    let v : Stream :=
      { engine := e
        fn := jobFn x
        inEng := cmdNat x 4 1
        outEng := cmdNat x 5 1
        audio := readBytes t.hmem addr 32
        map := words.map mapEntry
        dither := BitVec.ofNat 32 (n + 1) }
    if addr % 64 ≠ 0 ∨ 4096 < count then endJob e.val j stRange [] t
    else match fail with
      | some code => endJob e.val j code [] t
      | none =>
        let codes := openCodes t e.val (jobFn x) v words
        if !codes.isEmpty then endJob e.val j (pickStatus codes) [] t
        else
          let on (k : Nat) (u : State) : State := updEngine u k (fun g => { g with state := 3 })
          let first := nextTide t e.val ((getEngine t e.val).pend.getD (getEngine t e.val).params)
          finishJob e.val j stOk (leBytes 2 n ++ leBytes 2 0 ++ leBytes 4 first.toNat) (BitVec.ofNat 16 n) noTide
            (on v.outEng (on v.inEng (setStream t n (some v))))) s

/-- STREAM_OPEN (R366–R368, R390). -/
def execStreamOpen (e : Fin 8) (j : Nat) (err : Bool) (s : State) : Out := clocked s <| .next (openCmd e j (readFail err) s)

/-- A command that names a stream: it must be open, the function's, and the engine's (R334, R367). -/
def streamCode (s : State) (e fn n : Nat) : Nat :=
  match getStream s n with
  | none => stRange
  | some x => if x.fn ≠ fn then stNotOwner else if x.engine.val ≠ e then stRange else stOk

/-- A stream names a FAULTED engine. -/
def namesFaulted (s : State) (x : Stream) : Bool := decide ((getEngine s x.inEng).state = 4 ∨ (getEngine s x.outEng).state = 4)

/-- STREAM_CLOSE (R369, R387). -/
def execStreamClose (e : Fin 8) (j : Nat) (s : State) : Out := clocked s <|
  .next (startJob e.val j 0x14 (fun x t =>
    let n := cmdNat x 4 2
    let code := streamCode t e.val (jobFn x) n
    match getStream t n with
    | some st =>
      if code ≠ stOk then finishJob e.val j code [] (BitVec.ofNat 16 n) noTide t
      else if st.closing.isSome then finishJob e.val j stRange [] (BitVec.ofNat 16 n) noTide t
      else
        let t1 := updStream t n (fun y => { y with closing := some x.ticket })
        if namesFaulted t st then closeStream n stOk t1 else t1
    | none => finishJob e.val j code [] (BitVec.ofNat 16 n) noTide t) s)

/-! ### Frames (R370, R387) -/

/-- A frame refused, or completed for a FAULTED engine. [DEDUCED: log 90] -/
def refuseFrame (e j n code : Nat) (s : State) : State :=
  bump (uEngine e) eFrames (finishJob e j code (leBytes 4 0 ++ leBytes 4 0) (BitVec.ofNat 16 n) noTide s)

/-- A frame command, with the status of the host read of its input when that failed. [DEDUCED: log 90] -/
def frameCmd (e j op : Nat) (fail : Option Nat) (s : State) : State :=
  match startable s e j op with
  | none => s
  | some x =>
    let n := cmdNat x 4 2
    let code := streamCode s e (jobFn x) n
    let t := updJob s e j (fun y => { y with started := true })
    if reservedSet x.cmd then refuseFrame e j n stBad t
    else match getStream s n with
      | none => refuseFrame e j n code t
      | some st =>
        if code ≠ stOk then refuseFrame e j n code t
        else if namesFaulted s st then
          refuseFrame e j n (if (getEngine s st.inEng).state = 4 then (getEngine s st.inEng).faultStatus
            else (getEngine s st.outEng).faultStatus).toNat t
        else if !acceptsOp e (getEngine s e).state.toNat op then refuseFrame e j n stRange t
        else
          let pIn := (getEngine s st.inEng).params.period
          let pOut := (getEngine s st.outEng).params.period
          let input := decide (op = 0x15)
          if st.closing.isSome ∨ 8 ≤ st.queue.length ∨ cmdNat x 0x10 8 % 64 ≠ 0 ∨ cmdNat x 0x1C 4 < outBytes st pOut
              ∨ (input ∧ (cmdNat x 8 8 % 64 ≠ 0 ∨ cmdNat x 0x18 4 ≠ inBytes st pIn)) then refuseFrame e j n stRange t
          else if input ∧ fail.isSome then refuseFrame e j n (fail.getD stBad) t
          else
            let f : Frame :=
              { ticket := x.ticket
                outAddr := BitVec.ofNat 64 (cmdNat x 0x10 8)
                outCap := cmdNat x 0x1C 4
                input := if input then some (readBytes s.hmem (cmdNat x 8 8) (cmdNat x 0x18 4)) else none
                ready := !input || decide (condBridge s st = some (fnBridge s st.fn)) }
            updStream (updEngine t e (fun g => { g with jobs := g.jobs.eraseIdx j })) n (fun y => { y with queue := y.queue ++ [f] })

/-- FRAME_IN (R370). -/
def execFrameIn (e : Fin 8) (j : Nat) (err : Bool) (s : State) : Out := clocked s <| .next (frameCmd e.val j 0x15 (readFail err) s)

/-- FRAME_OUT (R370). -/
def execFrameOut (e : Fin 8) (j : Nat) (s : State) : Out := clocked s <| .next (frameCmd e.val j 0x16 none s)

/-! ### Checkpoints and synchronisation (R373–R375) -/

/-- CHECKPOINT (R373). -/
def execCheckpoint (e : Fin 8) (j : Nat) (s : State) : Out := clocked s <|
  .next (startJob e.val j 0x17 (fun _ t =>
    if !(getEngine t e.val).params.ckptValid then endJob e.val j stRange [] t
    else updEngine t e.val (fun g => { g with ckptAsked := true })) s)

/-- R374, R375: what an engine's sync request is refused for before it is sent. [DEDUCED: log 88] -/
def engSyncCode (s : State) (fn obj : Nat) : Nat :=
  let home := homeOf s (BitVec.ofNat 17 obj)
  if 2 ^ 17 ≤ obj ∨ domainSize s ≤ obj / 8192 then stRange
  else if obj / 8192 = ownModule s then
    (if !((getRegion s home).owned && decide ((getRegion s home).owner.toNat = fn)) then stNotOwner
     else if regionOffline s home then stSyncLost else stOk)
  else if !s.dom.present.getLsbD (obj / 8192) then stSyncLost
  else if (tget 0 s.dom.funcMap (16 * fn + obj / 8192)).getLsbD 5 then stOk else stNotOwner

/-- An engine's sync request is sent, and its command waits for the answer (R374). -/
def engSync (e j : Nat) (op : BitVec 8) (operand : Word) (x : Job) (s : State) : State :=
  let obj := cmdNat x 4 4
  let code := engSyncCode s (jobFn x) obj
  if code ≠ stOk then endJob e j code [] s
  else
    let o : BitVec 17 := BitVec.ofNat 17 obj
    sendCtl (.syncReq (homeOf s o) op o operand (BitVec.ofNat 18 (engineBridge s e)) (BitVec.ofNat 4 (ownModule s))
        (BitVec.ofNat 3 e) (getEngine s e).owner)
      (updJob s e j (fun y => { y with prog := .sync o (nowUs s) }))

/-- SYNC_WAIT (R375). -/
def execSyncWait (e : Fin 8) (j : Nat) (s : State) : Out := clocked s <|
  .next (startJob e.val j 0x18 (fun x t =>
    if cmdNat x 8 4 = 0 ∨ 10000000 < cmdNat x 8 4 then endJob e.val j stRange [] t else engSync e.val j 0x47 0 x t) s)

/-- SYNC_WAIT_TIMEOUT (R375). -/
def execSyncWaitTimeout (e : Fin 8) (j : Nat) (s : State) : Out := clocked s <|
  .next (match getJob s e.val j with
    | some x =>
      (match x.prog with
        | .sync _ since =>
          if opByte x.cmd ≠ 0x18 then s
          else endJob e.val j stTimeout [] (clockTo (tcycle s + ((since + cmdNat x 8 4 - nowUs s) * 12288 + 9) / 10) s)
        | _ => s)
    | none => s)

/-- SYNC_SIGNAL with one ACTION; an ACTION that does not exist completes RANGE with any of them. -/
def syncSignal (e j action : Nat) (op : BitVec 8) (s : State) : State :=
  match startable s e j 0x19 with
  | none => s
  | some x =>
    if cmdNat x 8 1 ≠ action ∧ cmdNat x 8 1 ≤ 2 then s
    else startJob e j 0x19 (fun x t =>
      if 2 < cmdNat x 8 1 ∨ (action = 2 ∧ (cmdNat x 0x0C 4 = 0 ∨ 65535 < cmdNat x 0x0C 4)) then endJob e j stRange [] t
      else engSync e j op (if action = 2 then BitVec.ofNat 32 (cmdNat x 0x0C 4) else 0) x t) s

/-- SYNC_SIGNAL_SET (R374, R375). -/
def execSyncSignalSet (e : Fin 8) (j : Nat) (s : State) : Out := clocked s <| .next (syncSignal e.val j 0 0x45 s)

/-- SYNC_SIGNAL_CLEAR (R374, R375). -/
def execSyncSignalClear (e : Fin 8) (j : Nat) (s : State) : Out := clocked s <| .next (syncSignal e.val j 1 0x46 s)

/-- SYNC_SIGNAL_RELEASE (R374, R375). -/
def execSyncSignalRelease (e : Fin 8) (j : Nat) (s : State) : Out := clocked s <| .next (syncSignal e.val j 2 0x43 s)

/-- The status of an answer to an engine (R140, R375). -/
def answerStatus (r : BitVec 8) : Nat :=
  match r.toNat with
  | 0 => stOk
  | 1 => stForfeit
  | 2 => stSyncLost
  | 3 => stNotOwner
  | _ => stRange

/-- ENGINE_SYNC_ANSWER (R374, R375): FULL sends the request again; an answer that nothing awaits is discarded.
[DEDUCED: log 87] -/
def execEngineSyncAnswer (e : Fin 8) (s : State) : Out := clocked s <|
  .next (match takeCtl (fun c => match c with
      | .engAns k o r => if k = e.val then some (o, r) else none
      | _ => none) s with
    | none => s
    | some ((o, r), t) =>
      match (getEngine t e.val).jobs.findIdx? (fun x => match x.prog with
          | .sync p _ => p = o
          | _ => false) with
      | none => t
      | some j =>
        match getJob t e.val j with
        | none => t
        | some x =>
          if r = 5 then
            engSync e.val j (if opByte x.cmd = 0x18 then 0x47 else if cmdNat x 8 1 = 0 then 0x45 else if cmdNat x 8 1 = 1 then 0x46
              else 0x43) (if opByte x.cmd = 0x19 ∧ cmdNat x 8 1 = 2 then BitVec.ofNat 32 (cmdNat x 0x0C 4) else 0) x t
          else endJob e.val j (answerStatus r) [] t)

/-! ### Integrity policies (R390–R397) -/

/-- R397: what a bridge's report does to its stream: point 1 egress staging, 2 input relay, 3 output relay. -/
def streamTaint (n point : Nat) (s : State) : State :=
  match getStream s n with
  | none => s
  | some x =>
    if point = 2 then s
    else if x.policy = 0 then updStream s n (fun y => { y with tainted := true })
    else
      let s1 := updStream s n (fun y =>
        { y with
          late := true
          frame := if point = 1 then none else y.frame })
      if x.policy = 2 then updEngine s1 x.engine.val (fun g => { g with tide := { g.tide with halt := true } }) else s1

/-- TTAINT_RECEIVE (R394, R395, R397). The policies of R395 are applied to the rows when the guard opens. -/
def execTtaintReceive (e : Fin 8) (s : State) : Out := clocked s <|
  let late (tide : Word) (t : State) : Bool :=
    let g := getEngine t e.val
    g.tide.num ≠ tide || g.tide.guard || !g.tide.active
  .next (match takeCtl (fun c => match c with
      | .ttaintRows k n tide rows => if k = e.val then some (tide, Sum.inl (n, rows)) else none
      | .ttaintStream k _ tide st point => if k = e.val then some (tide, Sum.inr (st, point)) else none
      | _ => none) s with
    | none => s
    | some ((tide, r), t) =>
      if late tide t then bump (uEngine e.val) eTtaintLate t
      else match r with
        | .inl (n, rows) => updEngine t e.val (fun g =>
            { g with tide := { g.tide with taintRows := tupd 0 g.tide.taintRows n (fun w => w ||| rows) } })
        | .inr (st, point) => streamTaint st point t)

/-- STR_INT_POL_SET (R390, R391): STREAM always takes the written value. -/
def execStrIntPolSet (fn : Fin 32) (v : BitVec 32) (s : State) : Out := clocked s <|
  let n := v.toNat % 4096
  let pol : BitVec 2 := v.extractLsb' 12 2
  let s1 := updFn s fn.val (fun g => { g with polStream := v.setWidth 12 })
  .next (if !barOpen s fn.val then s else match getStream s1 n with
    | none => s1
    | some x =>
      let st := (getEngine s1 x.engine.val).state
      if !v.getLsbD 14 ∨ pol = 3 ∨ x.fn ≠ fn.val ∨ st = 4 ∨ st = 5 then s1
      else updStream s1 n (fun y => { y with pendPolicy := some pol }))

end Sys2Proof.Machine
end

