-- ==== Sys2Proof/Machine/Transfer.lean ====
section
/-! DEFINITION. Machine/Transfer.lean: what the Transfer Engines do: COPY, WEIGHT_PIN, the answers to transfer packets, and the
pins of the region controllers (R376–R379, R402). -/

namespace Sys2Proof.Machine

open Sys2Proof

/-! ### COPY (R376) -/

/-- An operand of COPY: its kind and its word, moved on by `n` bytes. -/
structure CopyEnd where
  kind : Nat
  word : Nat
  deriving DecidableEq, Repr

/-- The operand `n` bytes further. -/
def CopyEnd.at (c : CopyEnd) (n : Nat) : CopyEnd := { c with word := c.word + n }

/-- Parts of a scratchpad operand: its core and address. -/
def CopyEnd.core (c : CopyEnd) : Nat := c.word / 2 ^ 24 % 2 ^ 18
def CopyEnd.addr (c : CopyEnd) : Nat := c.word % 2 ^ 24

def copySrc (x : Job) : CopyEnd := { kind := cmdNat x 4 1 % 4, word := cmdNat x 8 8 }
def copyDst (x : Job) : CopyEnd := { kind := cmdNat x 4 1 / 4 % 4, word := cmdNat x 0x10 8 }
def copySize (x : Job) : Nat := cmdNat x 0x18 4

/-- The channels that a range of Harbour memory touches. -/
def chansOf (a n : Nat) : List Nat := (List.range (n / 2 ^ 35 + 2)).filterMap (fun i =>
  if a / 2 ^ 35 + i ≤ (a + n - 1) / 2 ^ 35 then some (a / 2 ^ 35 + i) else none)

/-- The banks that a scratchpad range touches. -/
def banksOf (a n : Nat) : List Nat := (List.range 13).filter (fun b => decide (a / 0x4000 ≤ b ∧ b ≤ (a + n - 1) / 0x4000))

/-- What refuses an operand of COPY. [DEDUCED: log 92] -/
def copyEndCodes (s : State) (fn n : Nat) (dst : Bool) (c : CopyEnd) : List Nat :=
  match c.kind with
  | 0 => []
  | 1 =>
    let ks := chansOf c.word n
    (if 2 ^ 42 ≤ c.word then [stBad] else [])
      ++ (if ks.all (fun k => (getChan s k).owned && decide ((getChan s k).owner.toNat = fn)) then [] else [stNotOwner])
      ++ (if c.word % 64 ≠ 0 ∨ 2 ^ 42 < c.word + n ∨ ks.any (fun k => (getChan s k).mode) then [stRange] else [])
  | 2 =>
    let k := getCore s (carrier s c.core)
    (if 2 ^ 42 ≤ c.word ∨ 2 ^ 20 ≤ c.addr then [stBad] else [])
      ++ (if ownerOf s (c.core / 512) = some fn then [] else [stNotOwner])
      ++ (if 0x30000 < c.addr + n ∨ (dst ∧ (banksOf c.addr n).any (fun b => decide (bankKind k b ≠ 1))) then [stRange] else [])
  | _ => [stRange]

/-- What refuses a COPY before any byte moves. [DEDUCED: log 92] -/
def copyCodes (s : State) (x : Job) : List Nat :=
  let n := copySize x
  (if 16 ≤ cmdNat x 4 1 then [stBad] else [])
    ++ (if n % 64 ≠ 0 ∨ n < 64 ∨ 2 ^ 30 < n ∨ ((copySrc x).kind = 0 ∧ (copyDst x).kind = 0) then [stRange]
        else copyEndCodes s (jobFn x) n false (copySrc x) ++ copyEndCodes s (jobFn x) n true (copyDst x))

/-- Both ends lie in one memory and their ranges overlap; what the bytes become is open (log 19). [DESIGN CHOICE: log 19] -/
def copyOverlaps (x : Job) : Bool :=
  let a := copySrc x
  let b := copyDst x
  let n := copySize x
  decide (a.kind = b.kind) && decide (a.word ≠ b.word) && decide (a.word < b.word + n) && decide (b.word < a.word + n)

/-- Bytes read from host memory or a scratchpad. -/
def copyRead (s : State) (c : CopyEnd) (n : Nat) : List Byte :=
  if c.kind = 0 then readBytes s.hmem c.word n else readBytes (getCore s (carrier s c.core)).spad c.addr n

/-- Bytes written to host memory or a scratchpad. -/
def copyWrite (c : CopyEnd) (bs : List Byte) (s : State) : State :=
  if c.kind = 0 then { s with hmem := writeBytes s.hmem c.word bs }
  else updCore s (carrier s c.core) (fun k => { k with spad := writeBytes k.spad c.addr bs })

/-- The bytes that reach the destination from offset `o` on. -/
def copyBytes (x : Job) (o : Nat) (bs : List Byte) : List Byte :=
  if copyOverlaps x then
    (List.range bs.length).map (fun i => Config.overlapByte (copySrc x).word (copyDst x).word (copySize x) (o + i))
  else bs

/-- Bytes to the end of the bank at a Harbour operand. -/
def bankRoom (c : CopyEnd) : Nat := if c.kind = 1 then 2 ^ 30 - c.word % 2 ^ 30 else 2048

/-- The next packet's share of a COPY after `moved` bytes: at most 32 flits, in one bank at either end (R296, R377).
[DEDUCED: log 91] -/
def copyChunk (x : Job) (moved : Nat) : Nat :=
  min (min 2048 (copySize x - moved)) (min (bankRoom ((copySrc x).at moved)) (bankRoom ((copyDst x).at moved)))

/-- The next packet of a COPY: a READ of a Harbour source, or a WRITE of bytes in hand. -/
def copySend (e : Nat) (x : Job) (moved : Nat) (s : State) : State :=
  let n := copyChunk x moved
  let src := (copySrc x).at moved
  if src.kind = 1 then
    sendReq e { reqId := 0, haddr := BitVec.ofNat 64 src.word, op := 3, count := n / 64, data := [], use := 0, ref := moved,
                ticket := some x.ticket } s
  else
    sendReq e { reqId := 0, haddr := BitVec.ofNat 64 ((copyDst x).at moved).word, op := 1, count := n / 64,
                data := copyBytes x moved (copyRead s src n), use := 0, ref := moved, ticket := some x.ticket } s

/-- `n` more bytes have moved: the next packet, or the end. [DEDUCED: log 91] -/
def copyStep (e j : Nat) (x : Job) (moved n : Nat) (s : State) : State :=
  let s1 := bumpBy (uEngine e) teBytes n (updJob s e j (fun y => { y with prog := .copy (moved + n) }))
  if copySize x ≤ moved + n then endJob e j stOk (leBytes 4 (moved + n)) s1 else copySend e x (moved + n) s1

/-- A COPY, with the status of its host read when that failed. Without a Harbour all bytes move at once; else one packet is
outstanding at a time. -/
def copyCmd (e j : Nat) (fail : Option Nat) (s : State) : State :=
  startJob e j 0x20 (fun x t =>
    let codes := copyCodes t x
    let host := decide ((copySrc x).kind = 0)
    if !codes.isEmpty then endJob e j (pickStatus codes) (leBytes 4 0) t
    else if host ∧ fail.isSome then endJob e j (fail.getD stBad) (leBytes 4 0) t
    else if (copySrc x).kind ≠ 1 ∧ (copyDst x).kind ≠ 1 then
      copyStep e j x 0 (copySize x)
        (copyWrite (copyDst x) (copyBytes x 0 (copyRead t (copySrc x) (copySize x))) t)
    else copySend e x 0 (updJob t e j (fun y => { y with prog := .copy 0 }))) s

/-- COPY (R376, R377). -/
def execCopy (e : Fin 13) (j : Nat) (err : Bool) (s : State) : Out := clocked s <| .next (copyCmd e.val j (readFail err) s)

/-- XACK OK of a packet of a COPY, with the data of a READ. -/
def copyAck (e : Nat) (r : Xfer) (data : List Byte) (s : State) : State :=
  match r.ticket.bind (jobAt (getEngine s e)) with
  | none => s
  | some j =>
    match getJob s e j with
    | none => s
    | some x =>
      let n := 64 * r.count
      let dst := (copyDst x).at r.ref
      if r.op = 3 ∧ dst.kind = 1 then
        sendReq e { reqId := 0, haddr := BitVec.ofNat 64 dst.word, op := 1, count := r.count,
                    data := copyBytes x r.ref (padTo n data), use := 0, ref := r.ref, ticket := r.ticket } s
      else if r.op = 3 then copyStep e j x r.ref n (copyWrite dst (copyBytes x r.ref (padTo n data)) s)
      else copyStep e j x r.ref n s

/-! ### Pins (R378, R379, R402, R405) -/

/-- The pin's HADDR in a master: whole records, counted on from the master's bank. [DEDUCED: log 94] -/
def recordAddr (m : DWord) (r : Nat) : DWord := m + BitVec.ofNat 64 (2 ^ 30 * (r / 508400) + 2112 * (r % 508400))

/-- A pin changed in its engine's table. -/
def updPin (e i : Nat) (f : Pin → Pin) (s : State) : State := updEngine s e (fun g => { g with pins := g.pins.modify i f })

/-- The master to fetch from: at the first attempt MASTER, or MASTER2 when MASTER cannot be reached; at the second MASTER2, or
MASTER without one or with one that cannot be reached (R378, R379, R405). -/
def pinMaster (s : State) (p : Pin) (second : Bool) : Option DWord :=
  let up (m : DWord) : Bool := harbourUp s (recordAddr m p.record)
  let order := if second then p.master2.toList ++ [p.master] else p.master :: p.master2.toList
  order.find? up

/-- READ_REC of `n` records, sent by engine `from'`. -/
def readRecs (from' use : Nat) (a : DWord) (n : Nat) (core : BitVec 18) (ref : Nat) (t : Option Ticket) (s : State) : State :=
  sendReq from' { reqId := 0, haddr := a, op := 4, count := n, data := [], ret := core.setWidth 32, use := use, ref := ref,
                  ticket := t } s

/-- The pin order for a pin (R378). -/
def sendPinOrder (e : Nat) (p : Pin) (s : State) : State := sendCtl (.pinOrder (p.core.toNat / 512) e p.core p.tag p.addr) s

/-- RESULT of WEIGHT_PIN. [DESIGN CHOICE: log 20] -/
def pinResult (pinned failed : Nat) (first : Option Nat) : List Byte :=
  leBytes 4 pinned ++ leBytes 4 failed ++ leBytes 4 (first.getD Config.noFailIndex.toNat)

/-- A WEIGHT_PIN ends with a code; pins without their block are given up. -/
def endPin (e j code : Nat) (s : State) : State :=
  match getJob s e j with
  | none => s
  | some x =>
    match x.prog with
    | .pin a b f => endJob e j code (pinResult a b f) (dropPins [x.ticket]
        (updEngine s e (fun g => { g with xfers := g.xfers.filter (fun r => r.ticket ≠ some x.ticket) })))
    | _ => endJob e j code (pinResult 0 0 none) s

/-- The job that waits for a pin, when it is a WEIGHT_PIN: its engine and place. -/
def pinJob (s : State) (t : Ticket) : Option (Nat × Nat) :=
  (List.range 13).findSome? (fun e => (jobAt (getEngine s e) t).map (fun j => (e, j)))

/-- A WEIGHT_PIN counts an entry and completes when none is left. [DEDUCED: log 97] -/
def countPin (t : Ticket) (i : Nat) (good : Bool) (s : State) : State :=
  match pinJob s t with
  | none => s
  | some (e, j) =>
    let s1 := updJob s e j (fun x => match x.prog with
      | .pin a b f => { x with prog := if good then .pin (a + 1) b f else .pin a (b + 1) (some (min i (f.getD i))) }
      | _ => x)
    let left := (List.range 8).any (fun k => (getEngine s1 k).pins.any (fun p => p.job.any (fun x => x.1 = t)))
    if left then s1
    else match getJob s1 e j with
      | none => s1
      | some x => match x.prog with
        | .pin _ b _ => endPin e j (if b = 0 then stOk else stTainted) s1
        | _ => s1

/-! ### WEIGHT_PIN -/

/-- Entry `i` of a pin table as a pin, for its header and command. -/
def pinEntry (b : List Byte) (t : Ticket) (i : Nat) : Pin :=
  let e := b.drop (64 + 16 * i)
  { core := BitVec.ofNat 18 (field e 4 4), addr := field e 8 4, tag := BitVec.ofNat 16 (field e 12 2), check := 0,
    record := field e 0 4, master := BitVec.ofNat 64 (field b 0 8),
    master2 := if field b 0x14 1 % 2 = 1 then some (BitVec.ofNat 64 (field b 8 8)) else none,
    fetch := 2, job := some (t, i) }

/-- The same 2 KiB range of one core, in part. -/
def pinsOverlap (a b : Pin) : Bool := a.core = b.core && decide (a.addr < b.addr + 2048) && decide (b.addr < a.addr + 2048)

/-- R379, R402: entry `i` breaks the table, the stage, the core's banks or the pin table. [DEDUCED: log 93] -/
def pinBad (s : State) (se : Nat) (b : List Byte) (ps : List Pin) (i : Nat) (p : Pin) : Bool :=
  let e := b.drop (64 + 16 * i)
  let k := getCore s (carrier s p.core.toNat)
  let older := (getEngine s se).pins ++ ps.take i
  decide (2 ^ 18 ≤ field e 4 4) || decide (field e 14 2 ≠ 0) || decide (p.addr % 64 ≠ 0) || decide (0x30000 < p.addr + 2048)
    || decide (p.addr / 0x4000 ≠ (p.addr + 2047) / 0x4000) || decide (bankKind k (p.addr / 0x4000) ≠ 1)
    || !(stageOf s se).contains (p.core.toNat / 512) || older.any (pinsOverlap p)
    || decide (96 ≤ (older.filter (fun o => o.core = p.core)).length)

/-- Runs of entries that one READ_REC serves: consecutive records for one core in one bank, at most 1,024 (R296, R378). -/
def pinRuns : List Pin → List (Pin × Nat)
  | [] => []
  | p :: ps =>
    match pinRuns ps with
    | (q, n) :: rest =>
      if q.core = p.core ∧ q.record = p.record + 1 ∧ q.record % 508400 ≠ 0 ∧ n < 1024 then (p, n + 1) :: rest
      else (p, 1) :: (q, n) :: rest
    | [] => [(p, 1)]

/-- What refuses a WEIGHT_PIN before its table is read. -/
def pinRefused (x : Job) : Bool := decide (8 ≤ cmdNat x 4 1 ∨ cmdNat x 8 8 % 64 ≠ 0 ∨ cmdNat x 0x10 4 < 64)

/-- What refuses a WEIGHT_PIN whose table is `b`, before its entries. [DEDUCED: log 93] -/
def pinCodes (s : State) (x : Job) (b : List Byte) : List Nat :=
  let se := cmdNat x 4 1
  let g := getEngine s se
  if pinRefused x then [stRange]
  else
    (if g.owned ∧ g.owner.toNat = jobFn x then [] else [stNotOwner])
      ++ (if 2 ≤ field b 0x14 1 ∨ (b.drop 0x15).take 43 ≠ List.replicate 43 0 then [stBad] else [])
      ++ (if field b 0 8 % 2 ^ 30 ≠ 0 ∨ (field b 0x14 1 % 2 = 1 ∧ field b 8 8 % 2 ^ 30 ≠ 0) ∨ field b 0x10 4 = 0
            ∨ (cmdNat x 0x10 4 - 64) / 16 < field b 0x10 4 then [stRange] else [])

/-- A WEIGHT_PIN, with the status of its host read when that failed: the table is checked, every controller gets its pin orders, and
the records are asked for. [DEDUCED: log 175] -/
def pinCmd (e j : Nat) (fail : Option Nat) (s : State) : State :=
  startJob e j 0x21 (fun x t =>
    let b := readBytes t.hmem (cmdNat x 8 8) (cmdNat x 0x10 4)
    let se := cmdNat x 4 1
    let codes := pinCodes t x b
    if fail.isSome ∧ !pinRefused x then endJob e j (fail.getD stBad) (pinResult 0 0 none) t
    else if !codes.isEmpty then endJob e j (pickStatus codes) (pinResult 0 0 none) t
    else
      let ps := (List.range (field b 0x10 4)).map (pinEntry b x.ticket)
      match ps.zipIdx.find? (fun p => pinBad t se b ps p.2 p.1) with
      | some p => endJob e j stRange (pinResult 0 0 (some p.2)) t
      | none =>
        if ps.any (fun p => (pinMaster t p false).isNone) then endJob e j stHole (pinResult 0 0 none) t
        else
          let t1 := updJob (updEngine t se (fun g => { g with pins := g.pins ++ ps })) e j (fun y =>
            { y with prog := .pin 0 0 none })
          let t2 := forAll ps (sendPinOrder se) t1
          forAll (pinRuns ps) (fun r u =>
            readRecs e 1 (recordAddr ((pinMaster t r.1 false).getD r.1.master) r.1.record) r.2 r.1.core r.1.record
              (some x.ticket) u) t2) s

/-- WEIGHT_PIN (R378, R379, R402). -/
def execWeightPin (e : Fin 13) (j : Nat) (err : Bool) (s : State) : Out := clocked s <| .next (pinCmd e.val j (readFail err) s)

/-- PIN_ORDER (R378): the controller records a pin order. -/
def execPinOrder (region : Fin 512) (s : State) : Out := clocked s <|
  .next (match takeCtl (fun c => match c with
      | .pinOrder n e core tag addr => if n = region.val then some (e, core, tag, addr) else none
      | _ => none) s with
    | none => s
    | some ((e, core, tag, addr), t) => updEngine t e (fun g =>
        { g with pins := g.pins.map (fun p =>
          if p.core = core ∧ p.tag = tag ∧ p.addr = addr then { p with ordered := true } else p) }))

/-- The pin that a block at a core is for: an ordered one, else one already in place; its engine and place.
[DEDUCED: log 96] -/
def pinFor (s : State) (core : Nat) (tag : Half) : Option (Nat × Nat × Pin) :=
  let all := (List.range 8).flatMap (fun e => (getEngine s e).pins.zipIdx.map (fun p => (e, p.2, p.1)))
  let mine := all.filter (fun p => decide (p.2.2.core.toNat = core) && p.2.2.tag = tag)
  (mine.find? (fun p => p.2.2.ordered && decide (p.2.2.fetch ≠ 0))).or (mine.find? (fun p => p.2.2.pinned))

/-- A pin is in place: the verified payload stands at ADDR. -/
def pinGood (e i : Nat) (p : Pin) (check : Word) (s : State) : State :=
  let s1 := updPin e i (fun p =>
    { p with
      check := check
      pinned := true
      bad := false
      fetch := 0
      ordered := false
      holed := false
      job := none }) s
  match p.job with
  | some (t, k) => countPin t k true s1
  | none =>
    if p.pinned ∧ p.fetch ≠ 0 then
      bump (uEngine e) eRefetch (updEngine s1 e (fun g => { g with auditRun := g.auditRun.map (fun a => (a.1, a.2.1, a.2.2 + 1)) }))
    else s1

/-- A block of a pin failed its check, or no master gave it: the second fetch, or the end of the attempt (R379, R405). -/
def pinFail (e i : Nat) (p : Pin) (s : State) : State :=
  match p.job with
  | some (t, k) =>
    if p.fetch = 2 then
      match pinJob s t, pinMaster s p true with
      | some (te, _), some m =>
        readRecs te 1 (recordAddr m p.record) 1 p.core p.record (some t) (updPin e i (fun p => { p with fetch := 4 }) s)
      | some (te, j), none => endPin te j stHole s
      | none, _ => s
    else countPin t k false (updEngine s e (fun g => { g with pins := g.pins.eraseIdx i }))
  | none =>
    if p.fetch = 2 then updPin e i (fun p => { p with fetch := 3 }) s
    else updPin e i (fun p => { p with fetch := 0, ordered := false, bad := true }) s

/-- A gauge: the counter holds a value, not a count of events. -/
def setGauge (u n v : Nat) (s : State) : State :=
  { s with cnt := { s.cnt with live := tupd Counter.init s.cnt.live (ctrKey u n) (fun c => { c with val := BitVec.ofNat 48 v }) } }

/-- A pin of a row waits for its block. -/
def rowFetching (g : Engine) (n row : Nat) : Bool :=
  g.pins.any (fun p => decide (p.fetch ≠ 0) && decide (p.core.toNat / 512 = n) && decide (p.core.toNat / 16 % 32 = row))

/-- R425: the rebuilding of a row ends when every pin of its logical column has been fetched. -/
def settleRebuild (e : Nat) (s : State) : State :=
  forAll (stageOf s e) (fun n t => updRegion t n (fun r =>
    let ended : BitVec 32 := (List.range 32).foldl (fun w i =>
      if r.rebuilt.getLsbD i ∧ !rowFetching (getEngine t e) n i then w ||| (1#32 <<< i) else w) 0
    { r with rebuilding := r.rebuilding &&& ~~~ended, rebuilt := r.rebuilt &&& ~~~ended })) s

/-- RESULT of AUDIT, and its status (R380): CONTEXT_HOLE when no master gave a record, TAINTED when an entry stays BAD. -/
def auditResult (a : Nat × Nat × Nat) : List Byte := leBytes 4 a.1 ++ leBytes 4 a.2.1 ++ leBytes 4 a.2.2
def auditStatus (g : Engine) : Nat :=
  if g.pins.any (fun p => p.bad && p.holed) then stHole else if g.pins.any (·.bad) then stTainted else stOk

/-- R403, R404: an audit pass ends when every range has been compared and no refetch is left. [DEDUCED: log 85] -/
def settleAudit (e : Nat) (s : State) : State :=
  let g := getEngine s e
  match g.auditRun with
  | none => s
  | some a =>
    if g.pins.any (fun p => decide (p.fetch ≠ 0)) then s
    else
      let s1 := bump (uEngine e) eAudPasses (updEngine s e (fun g => { g with auditRun := none }))
      match g.jobs.findIdx? (fun x => opByte x.cmd = 0x1A && x.prog = .wait) with
      | some j => endJob e j (auditStatus g) (auditResult a) s1
      | none => s1

/-- What follows when a pin of an engine has come, or has failed. [DEDUCED: log 97] -/
def settlePins (e : Nat) (s : State) : State :=
  settleRebuild e (settleAudit e (setGauge (uEngine e) eAudBad (((getEngine s e).pins.filter (·.bad)).length) s))

/-- PIN_BLOCK_LAND (R378, R379, R405): a block for a pin is verified and written by the region controller, ahead of the landing
slots. A block whose tag no pin has is left to the landing slots. [DEDUCED: log 96] -/
def execPinBlockLand (c : CoreRef) (s : State) : Out := clocked s <|
  let key := c.key
  let n := c.region.val
  .next (match (atEject s key 2).find? (fun p => p.purpose = 2 && !p.poison) with
    | none => s
    | some p =>
      match p.payload with
      | .block h b =>
        let id := (logicalId s key).getD (2 ^ 18)
        let coming := s.ctl.any (fun c => match c with
          | .pinOrder _ _ core tag _ => decide (core.toNat = id) && tag = h.tag
          | _ => false)
        if discards s key then rearm key 1 (bump (uCore key) cBlkDrop (removePacket p.serial s))
        else match pinFor s id h.tag with
          | none => if coming then s else movePacket { p with purpose := 0 } s
          | some (e, i, q) =>
            let t := rearm key 1 (removePacket p.serial s)
            let sum := crc32c b
            if sum = h.check then
              settlePins e (pinGood e i q h.check (updCore t key (fun k => { k with spad := writeBytes k.spad q.addr (padTo 2048 b) })))
            else
              let t1 := bump (uRegion n) rPinFail (logCheckFail (uRegion n) (uCore key) (ownerOf s n) h sum 5
                (BitVec.ofNat 32 q.record) (recordAddr q.master q.record).toNat t)
              if q.fetch = 0 then t1 else settlePins e (pinFail e i q t1)
      | _ => removePacket p.serial s)

/-! ### Answers to transfer packets (R377, R399) -/

/-- The pins that a READ_REC asked for and that have not come. -/
def pinsOf (s : State) (r : Xfer) : List (Nat × Nat × Pin) :=
  ((List.range 8).flatMap (fun e => (getEngine s e).pins.zipIdx.map (fun p => (e, p.2, p.1)))).filter (fun p =>
    decide (p.2.2.core.setWidth 32 = r.ret) && decide (r.ref ≤ p.2.2.record ∧ p.2.2.record < r.ref + r.count)
      && decide (p.2.2.fetch = 2 ∨ p.2.2.fetch = 4))

/-- What an XACK does, by what its packet served. A READ_REC of pins that is answered TAINTED still sends its records, whose
checks decide. [DEDUCED: log 95] -/
def xackFor (e : Nat) (r : Xfer) (code : Nat) (data : List Byte) (s : State) : State :=
  match r.use with
  | 0 =>
    if code = stOk then copyAck e r data s
    else match r.ticket.bind (jobAt (getEngine s e)) with
      | none => s
      | some j => endJob e j code (leBytes 4 r.ref) s
  | 1 =>
    if code = stOk ∨ code = stTainted then s
    else match r.ticket.bind (jobAt (getEngine s e)) with
      | none => s
      | some j =>
        let ps := pinsOf s r
        let again := ps.all (fun p => decide (p.2.2.fetch = 2)) && ps.all (fun p => p.2.2.master2.isSome)
        if code = stHole ∧ again then
          forAll ps (fun p t => pinFail p.1 p.2.1 p.2.2 t) s
        else endPin e j code s
  | 2 =>
    if code = stHole then forAll (pinsOf s r) (fun p t => updPin p.1 p.2.1 (fun q => { q with holed := true }) t) s else s
  | _ =>
    if code = stOk then s
    else updEngine s e (fun g => { g with ckpt := g.ckpt.map (fun c => { c with failed := true }) })

/-- XACK (R377, R399). -/
def execXack (e : Fin 13) (s : State) : Out := clocked s <|
  let g := getEngine s e.val
  let want (p : Packet) : Option (Packet × Xfer × XferHead × List Byte) :=
    match p.payload with
    | .xfer h d =>
      if p.loc = .arrived (engineBridge s e.val) ∧ h.op = 5 then
        (g.xfers.find? (fun r => r.reqId = h.reqId)).map (fun r => (p, r, h, d))
      else none
    | _ => none
  .next (match s.packets.findSome? want with
    | none => s
    | some (p, r, h, d) =>
      xackFor e.val r h.status.toNat d (updEngine (removePacket p.serial s) e.val (fun g =>
        { g with xfers := g.xfers.filter (fun x => x.reqId ≠ r.reqId) })))

/-- XACK_TIMEOUT (R377): 200 µs after the oldest packet was sent. A Transfer Engine sends it again once; a second silence ends
the command. The other engines' packets fail their checkpoint or leave their refetch to its own limit (R399, R405). -/
def execXackTimeout (e : Fin 13) (s : State) : Out := clocked s <|
  .next (match (getEngine s e.val).xfers with
    | [] => s
    | r :: _ =>
      let t := clockTo (tcycle s + ((r.sentAt + 200 - nowUs s) * 12288 + 9) / 10) s
      let gone := updEngine t e.val (fun g => { g with xfers := g.xfers.filter (fun x => x.reqId ≠ r.reqId) })
      if r.use ≥ 3 then updEngine gone e.val (fun g => { g with ckpt := g.ckpt.map (fun c => { c with failed := true }) })
      else if r.use = 2 then gone
      else if !r.resent then bump (uEngine e.val) teResend (resendReq e.val r t)
      else
        let fn := (getEngine s e.val).owner.toNat
        let u := uHost (if (getFn s fn).port then 1 else 0)
        let t1 := bump (uEngine e.val) teTimeout (logAt u (mkRec 0x0C02 1 u (some fn) noTide
          [(1, e.val), (3, 0), (8, r.haddr.toNat)]) gone)
        match r.ticket.bind (jobAt (getEngine t1 e.val)) with
        | none => t1
        | some j => if r.use = 0 then endJob e.val j stTimeout (leBytes 4 r.ref) t1 else endPin e.val j stTimeout t1)

end Sys2Proof.Machine
end

