-- ==== Sys2Proof/Machine/Assign.lean ====
section
/-! DEFINITION. Machine/Assign.lean: the assignment of regions and Harbour channels, and the scrub (R36–R41, R158, R292, R381,
R382). -/

namespace Sys2Proof.Machine

open Sys2Proof

/-! ### Scrub (R38–R40) -/

/-- The physical cores that a scrub of region `n` covers: all but RETIRED ones, in physical order. -/
def scrubCores (s : State) (n : Nat) : List Nat := (regionCores n).filter (fun k => decide (eff s (uCore k) ≠ 4))

/-- A core after a scrub (R38, R45). [DEDUCED: log 98] -/
def scrubCore (k : Core) : Core :=
  { clearRegs k with
    run := .stopped
    istore := []
    spad := []
    queues := []
    landing := []
    ingest := none
    syncOps := []
    lostOps := []
    part := 0
    psBase := 0
    psSize := 0
    sel := false
    mirrorEn := false
    mirrorTide := 0
    mirrorValid := false
    mirrorGot := none
    fault := {}
    slots := []
    tlast := noTide }

/-- The CRC of a core that read back zero: 225,280 bytes of 0 under the seed (R39). -/
def zeroScrub (seed : Word) : Word := crc32cSeed seed (List.replicate 225280 0)

/-- RGN_SCRUB_SIG over the scrubbed cores; what a core that did not read back zero returns is open (log 21).
[DESIGN CHOICE: log 21] -/
def scrubSignature (seed : Word) (cores bad : List Nat) : Word :=
  crc32cSeed seed (cores.flatMap (fun k => leBytes 4 (if bad.contains k then Config.badScrub k seed else zeroScrub seed).toNat))

/-- A scrub of region `n` ends; `bad` are the physical cores that did not read back zero (R38–R40, R158). -/
def endScrub (n : Nat) (bad : List Nat) (s : State) : State :=
  let cores := scrubCores s n
  let wrong := bad.filter cores.contains
  let pass := wrong.isEmpty
  let seed := (getRegion s n).scrubSeed
  let sig := scrubSignature seed cores wrong
  let ok := cores.length - wrong.length
  let s1 := forAll cores (fun k t => ctrZero (uCore k) (updCore t k scrubCore)) (abandonTest n s)
  let s2 := ctrZero (uRegion n) (updRegion s1 n (fun r =>
    { r with
      scrubBusy := false
      scrubPass := pass
      scrubDone := true
      scrubCoresOk := BitVec.ofNat 10 ok
      scrubSig := sig
      sync := []
      waiters := []
      clean := pass && !r.owned
      scanned := false }))
  let s3 := logRegion n 0x0104 (if pass then 0 else 2) (uRegion n) noTide
    [(1, if pass then 1 else 0), (1, 0), (2, ok), (4, sig.toNat), (4, seed.toNat)] s2
  if pass then (if (getHealth s3 (uRegion n)).live = 3 then setLive (uRegion n) 0 s3 else s3)
  else setLive (uRegion n) 3 s3

/-! ### REGION_ASSIGN (R36, R37, R381) -/

/-- RGN_OWN_MAP of every region, as an assignment leaves it (R123). -/
def settleOwnMaps (s : State) : State :=
  forAll (List.range 512) (fun n t => updRegion t n (fun r =>
    { r with
      ownMap := (List.range 512).foldl (fun w i =>
        if (ownerOf s n).isSome ∧ ownerOf s i = ownerOf s n then w ||| (1#512 <<< i) else w) 0 })) s

/-- A region gets an owner. -/
def giveRegion (n fn : Nat) (s : State) : State :=
  settleOwnMaps (updRegion s n (fun r =>
    { r with
      owner := BitVec.ofNat 5 fn
      owned := true
      last := BitVec.ofNat 5 fn
      lastValid := true
      clean := false }))

/-- A region loses its owner. -/
def freeRegion (n : Nat) (s : State) : State := settleOwnMaps (updRegion s n (fun r => { r with owned := false }))

/-- R381, R533: why a region is neither assigned nor released. -/
def regionRefused (s : State) (n : Nat) : Bool :=
  let r := getRegion s n
  decide (512 ≤ n) || r.engine.isSome || r.held || s.dbg.coreSib.getLsbD n || decide (eff s (uRegion n) = 2) || decide (eff s (uRegion n) = 4)

/-- R36, R534: the assignment needs a scrub. -/
def needsScrub (s : State) (n fn : Nat) : Bool :=
  let r := getRegion s n
  (r.lastValid && decide (r.last.toNat ≠ fn)) || decide (eff s (uRegion n) = 3) || r.scanned

/-- RESULT of REGION_ASSIGN. [DEDUCED: log 99] -/
def assignResult (sig ok : Nat) (scrubbed pass : Bool) : List Byte :=
  leBytes 4 sig ++ leBytes 2 ok ++ leBytes 1 ((if scrubbed then 1 else 0) + (if pass then 2 else 0))

/-- Another command of the same kind that names the same region or channel and has not completed (R359). -/
def sameTarget (s : State) (j op off n : Nat) (v : Nat) : Bool :=
  (List.range (getEngine s 12).jobs.length).any (fun i => decide (i ≠ j) && (getJob s 12 i).any (fun y =>
    y.prog = .scrub && decide (opByte y.cmd = op) && decide (field y.cmd off n = v)))

/-- REGION_ASSIGN without RELEASE: with a scrub it completes when that ends. [DEDUCED: log 99] -/
def execRegionAssign (j : Nat) (s : State) : Out := clocked s <|
  .next (match startable s 12 j 0x30 with
    | none => s
    | some x =>
      let n := cmdNat x 4 2
      let fn := cmdNat x 6 1
      if cmdNat x 7 1 = 1 ∨ sameTarget s j 0x30 4 2 n then s
      else startJob 12 j 0x30 (fun _ t =>
        if regionRefused t n ∨ 32 ≤ fn then endJob 12 j stRange (assignResult 0 0 false false) t
        else
          let t1 := updRegion t n (fun r => { r with scrubSeed := BitVec.ofNat 32 (cmdNat x 8 4) })
          if needsScrub t n fn then
            updJob (updRegion t1 n (fun r => { r with scrubBusy := true })) 12 j (fun y => { y with prog := .scrub })
          else endJob 12 j stOk (assignResult 0 0 false false) (giveRegion n fn t1)) s)

/-- REGION_ASSIGN with RELEASE. -/
def execRegionRelease (j : Nat) (s : State) : Out := clocked s <|
  .next (match startable s 12 j 0x30 with
    | none => s
    | some x =>
      let n := cmdNat x 4 2
      if cmdNat x 7 1 ≠ 1 ∨ sameTarget s j 0x30 4 2 n then s
      else startJob 12 j 0x30 (fun _ t =>
        if regionRefused t n ∨ (getRegion t n).scrubBusy then endJob 12 j stRange (assignResult 0 0 false false) t
        else endJob 12 j stOk (assignResult 0 0 false false) (freeRegion n t)) s)

/-- SCRUB_DONE (R38–R40, R381): `bad` are the physical cores that did not read back zero. [DEDUCED: log 100] -/
def execScrubDone (region : Fin 512) (bad : List (Fin 32 × Fin 17)) (s : State) : Out := clocked s <|
  let n := region.val
  .next (if !(getRegion s n).scrubBusy then s
    else
      let s1 := endScrub n (bad.map (fun b => coreKey n b.1.val b.2.val)) s
      let r := getRegion s1 n
      let res := assignResult r.scrubSig.toNat r.scrubCoresOk.toNat true r.scrubPass
      match (getEngine s1 12).jobs.findIdx? (fun x => x.prog = .scrub && decide (opByte x.cmd = 0x30) && decide (field x.cmd 4 2 = n)) with
      | none => if r.scrubPass then s1 else freeRegion n s1
      | some j =>
        match getJob s1 12 j with
        | none => s1
        | some x =>
          if r.scrubPass then endJob 12 j stOk res (giveRegion n (cmdNat x 6 1) s1)
          else endJob 12 j stRange res (freeRegion n s1))

/-! ### HCH_ASSIGN (R291, R292, R382) -/

/-- A Harbour channel is a target of a bound image. -/
def isTarget (s : State) (q ch : Nat) : Bool := (List.range 8).any (fun e => (harbourTargets s e).any (fun t =>
  decide (targetKey t = chanKey q ch)))

/-- What refuses HCH_ASSIGN. -/
def channelCodes (s : State) (q ch : Nat) : List Nat :=
  if 4 ≤ q ∨ 32 ≤ ch then [stRange]
  else
    (if !(getChan s (chanKey q ch)).staging.isEmpty || isTarget s q ch || !usable s (uChannel q ch) then [stRange] else [])
      ++ (if (harbourPort s q ch).isNone ∨ !(getHarbour s q).powered then [stTimeout] else [])

/-- HCH_ASSIGN of either kind. [DEDUCED: log 101] -/
def channelCmd (j : Nat) (release : Bool) (s : State) : State :=
  match startable s 12 j 0x31 with
  | none => s
  | some x =>
    let q := cmdNat x 4 1
    let ch := cmdNat x 5 1
    let fn := cmdNat x 6 1
    let c := getChan s (chanKey q ch)
    let codes := channelCodes s q ch ++ (if !release ∧ 32 ≤ fn then [stRange] else [])
    if decide (cmdNat x 7 1 = 1) ≠ release ∨ sameTarget s j 0x31 4 2 (q + 256 * ch) then s
    else startJob 12 j 0x31 (fun _ t =>
      if !codes.isEmpty then endJob 12 j (pickStatus codes) (leBytes 1 0) t
      else if release then endJob 12 j stOk (leBytes 1 0) (updChan t (chanKey q ch) (fun c => { c with owned := false }))
      else
        let zero := c.lastValid && decide (c.last.toNat ≠ fn)
        let t1 := updChan t (chanKey q ch) (fun c =>
          { c with
            owner := BitVec.ofNat 5 fn
            owned := true
            last := BitVec.ofNat 5 fn
            lastValid := true
            zeroing := zero })
        if zero then updJob t1 12 j (fun y => { y with prog := .scrub }) else endJob 12 j stOk (leBytes 1 0) t1) s

/-- HCH_ASSIGN without RELEASE: with a zeroing it completes when that ends. [DEDUCED: log 101] -/
def execHchAssign (j : Nat) (s : State) : Out := clocked s <| .next (channelCmd j false s)

/-- HCH_ASSIGN with RELEASE. -/
def execHchRelease (j : Nat) (s : State) : Out := clocked s <| .next (channelCmd j true s)

end Sys2Proof.Machine
end

