-- ==== Sys2Proof/Machine/Health.lean ====
section
/-! DEFINITION. Machine/Health.lean: the health map, its updates and live reports, releases and self-checks, and the orders of
R490 on units (R411–R420, R475, R476, R488, R490). -/

namespace Sys2Proof.Machine

open Sys2Proof

/-! ### Units and Lighthouse's entries (R411, R475) -/

/-- The class of a unit, and its other bits. -/
def unitClass (u : Nat) : Nat := u / 0x10000000
def unitBits (u : Nat) : Nat := u % 0x10000000

/-- R411: a unit id of the module. A link needs both of its ends. [DEDUCED: log 181] -/
def isUnit (u : Nat) : Bool :=
  let k := unitBits u
  match unitClass u with
  | 0 => decide (k < 0x80000 ∧ keyCol k < 17)
  | 1 => decide (k < 0x80000 ∧ keyCol k < 17)
  | 2 => decide (k < 0x200000 ∧ keyCol k < 17) && ((decide (k / 0x80000 = 1) && (neighbour (k % 0x80000) 1).isSome)
      || (decide (k / 0x80000 = 2) && (neighbour (k % 0x80000) 2).isSome))
  | 3 => decide (k < 512)
  | 4 => decide (k < 32)
  | 5 => decide (k < 16)
  | 6 => decide (k < 2)
  | 7 => decide (k < 4096)
  | 8 => decide (k < 128)
  | 9 => decide (k < 4)
  | _ => false

/-- The region of a unit of classes 0 to 3. -/
def unitRegion (u : Nat) : Option Nat := if unitClass u ≤ 3 then some (u % 512) else none

/-- R413: a core, router or link of an unpowered region stays FENCED until its controller has the live views again.
[DEDUCED: log 200] -/
def awaitsPower (s : State) (u : Nat) : Bool := (unitRegion u).any (fun n => decide (unitClass u ≠ 3) && !(getRegion s n).powered)

/-- The effective state of a unit, as its holder has it (R413, R414). [DEDUCED: log 200] -/
def effNow (s : State) (u : Nat) : Nat := if awaitsPower s u then max 2 (eff s u) else eff s u

/-- The direction, from the router that names it, of a link (R411). -/
def linkDir (u : Nat) : Nat := if unitBits u / 0x80000 = 1 then 1 else 2

def getUnit (s : State) (u : Nat) : LhUnit := tget LhUnit.init s.lh.map u
def updLh (s : State) (f : Lighthouse → Lighthouse) : State := { s with lh := f s.lh }

/-- Lighthouse has finished R477 and runs. -/
def lhRuns (s : State) : Bool := s.lh.stage = 3

/-- R415, R419, R475: Lighthouse changes a unit's health-map state, with a new epoch, and sends the update. -/
def lhSet (u : Nat) (v : BitVec 3) (s : State) : State :=
  let e := s.lh.epoch + 1
  setEvent 0 7 (sendCtl (.hmUpdate u v e) (updLh s (fun l =>
    { l with
      epoch := e
      map := tupd LhUnit.init l.map u (fun x => { x with map := v, epoch := e })
      retired := if v = 4 ∧ !l.retired.contains u ∧ l.retired.length < 65536 then l.retired ++ [u] else l.retired })))

/-- Lighthouse marks an IN_SERVICE unit SUSPECT (R408, R416). -/
def lhSuspect (u : Nat) (s : State) : State := if lhRuns s ∧ (getUnit s u).map = 0 then lhSet u 1 s else s

/-! ### Answers (R488, R490–R492) -/

/-- A response: header and body. -/
def rspBytes (code tag status : Nat) (body : List Byte) : List Byte :=
  leBytes 1 code ++ leBytes 1 1 ++ leBytes 2 tag ++ leBytes 2 status ++ leBytes 2 body.length ++ body

/-- The mailbox holds a response (R491, R492). -/
def mbxDone (rsp : List Byte) (s : State) : State :=
  setEvent 0 5 (updLh s (fun l =>
    let m : Mailbox :=
      { l.mbx with
        busy := false
        done := true
        taken := false
        rspLen := BitVec.ofNat 16 rsp.length
        rsp := rsp }
    { l with mbx := m }))

/-- Lighthouse answers a message; a mailbox that no longer waits discards the answer (R492). -/
def respond (via : Via) (bytes : List Byte) (s : State) : State :=
  match via with
  | .mailbox => if s.lh.mbx.busy ∧ s.lh.mbx.taken then mbxDone bytes s else s
  | _ => updLh s (fun l => { l with out := l.out ++ [.message via bytes] })

/-! ### Orders on units, one at a time (R490) -/

/-- A region at 85 °C or above is not released after a trip (R515). -/
def tripHolds (s : State) (u : Nat) : Bool :=
  decide (unitClass u = 3) && (getRegion s (u % 512)).tripped && !atMost s (sensorId 1 (u % 512)) 850

/-- R533: the core scan of the unit's region is open. -/
def scanHolds (s : State) (u : Nat) : Bool := decide (unitClass u ≤ 3) && s.dbg.coreSib.getLsbD (u % 512)

/-- The answer to an order: EPOCH and EFFECTIVE. [DEDUCED: log 104] -/
def answerOrder (o : LhOrder) (status : Nat) (s : State) : State :=
  if o.dropped then s
  else if 5 ≤ o.action then respond o.via (rspBytes 5 o.tag status []) s
  else respond o.via (rspBytes 4 o.tag status
    (if notDone status then [] else leBytes 4 s.lh.epoch.toNat ++ leBytes 1 (effNow s o.unit))) s

/-- R231: Lighthouse orders a bridge down. -/
def orderBridgeDown (b : Nat) (s : State) : State :=
  updBridge s b (fun r => if r.shiState = 5 then r else { r with shiState := 5, cause := 4 })

/-- R269: Lighthouse orders a port that is DOWN to retrain. [DEDUCED: log 106] -/
def orderRetrain (p : Nat) (s : State) : State :=
  updPort s p (fun q => if q.pstate = 6 then { q with pstate := 1, partner := 0, cause := 0, stayDown := false } else q)

/-- PORT_ORDER (R490): KIND 1 to 4, a bridge, port or function. -/
def portOrder (kind n : Nat) (s : State) : Nat × State :=
  match kind with
  | 1 => if 32 ≤ n then (stRange, s) else (stOk, orderBridgeDown n s)
  | 2 => if 16 ≤ n then (stRange, s) else (stOk, updPort (portDown n 4 s) n (fun q => { q with stayDown := true }))
  | 3 => if 16 ≤ n then (stRange, s) else (stOk, orderRetrain n s)
  | _ => if 32 ≤ n then (stRange, s) else (stOk, failover n 4 s)

/-- An order begins: its answer when it ends at once, or none while it waits. [DEDUCED: log 103] -/
def beginOrder (o : LhOrder) (s : State) : Option Nat × State :=
  let m := (getUnit s o.unit).map
  if 5 ≤ o.action then
    let r := portOrder (o.action - 4) o.unit s
    (some r.1, r.2)
  else match o.action with
  | 1 => if 2 ≤ m.toNat then (some stOk, s) else (none, lhSet o.unit 2 s)
  | 2 =>
    if m.toNat < 2 then (some stOk, s)
    else if m = 4 ∨ unitClass o.unit = 4 ∨ tripHolds s o.unit ∨ scanHolds s o.unit then (some stRange, s)
    else (none, lhSet o.unit 0 s)
  | 3 => if m = 4 then (some stOk, s) else (none, lhSet o.unit 4 s)
  | _ => if m ≠ 0 ∨ effNow s o.unit ≠ 0 then (some stRange, s) else (some stOk, lhSet o.unit 1 s)

/-- An update of the unit has not been taken by its holder. -/
def updatePending (s : State) (u : Nat) : Bool :=
  s.ctl.any (fun c => match c with
    | .hmUpdate u' _ _ => decide (u' = u)
    | _ => false)

/-- The running order has ended: its update is acknowledged, and a release's self-check is over. [DEDUCED: log 104] -/
def orderEnded (s : State) (o : LhOrder) : Bool :=
  !updatePending s o.unit && (decide (o.action ≠ 2) || !(getHealth s o.unit).checking)

/-- Orders carried out as far as they go, from the first (R490). -/
def runOrders : Nat → State → State
  | 0, s => s
  | n + 1, s =>
    match s.lh.orders with
    | [] => s
    | o :: rest =>
      if !lhRuns s then s
      else if o.begun then
        if orderEnded s o then runOrders n (answerOrder o stOk (updLh s (fun l => { l with orders := rest }))) else s
      else
        match beginOrder o s with
        | (some c, t) => runOrders n (answerOrder o c (updLh t (fun l => { l with orders := rest })))
        | (none, t) => updLh t (fun l => { l with orders := { o with begun := true } :: rest })

def settleOrders (s : State) : State := runOrders (s.lh.orders.length + 1) s

/-! ### Updates at the holder (R412–R417, R420) -/

/-- R420: what the exclusion of a unit brings; for a core, what R43 and R143 give. -/
def excludeUnit (u : Nat) (retired : Bool) (s : State) : State :=
  let k := unitBits u
  match unitClass u with
  | 0 => dropSpareTest k (forfeitCore k (endCopy k (updCore s k stopCore)))
  | 1 => routerOut k s
  | 2 => linkOut (k % 0x80000) (linkDir u) s
  | 3 => closeRegion k (if retired then 1 else 0) s
  | 4 => orderBridgeDown k s
  | 5 => portDown k 4 s
  | 6 => forAll (List.range 32) (fun f t => if (getFn t f).port = decide (k = 1) then failover f 2 t else t) s
  | 8 => forAll (List.range 32) (fun b t => fenceLive (uBank (k / 32) (k % 32) b) t) s
  | _ => s

/-- A release begins the self-check; a port trains again for it (R417). [DEDUCED: log 106, 107] -/
def beginCheck (u : Nat) (s : State) : State :=
  if unitClass u = 5 then
    orderRetrain (unitBits u) s
  else s

/-- R415: an update that its holder rejects is logged; a stale one is counted too. [DEDUCED: log 105] -/
def rejectUpdate (u : Nat) (e : Word) (stale : Bool) (s : State) : State :=
  let n := (unitRegion u).getD 512
  let s1 := logAt (reporterOf u) (mkRec 0x0E02 1 u none noTide [(4, e.toNat), (4, (epochOf s u).toNat)]) s
  if stale ∧ n < 512 then bump (uRegion n) rHmStale s1 else s1

/-- R459: a core that has been marked SUSPECT becomes due at once. [DEDUCED: log 130] -/
def dueAtOnce (k : Nat) (s : State) : State :=
  let up : BringUp :=
    { s.up with
      dueNow := if s.up.dueNow.any (fun x => x.1 = k) then s.up.dueNow else s.up.dueNow ++ [(k, s.tid)] }
  { s with up := up }

/-- R414–R417: an accepted update takes effect in the cycle in which it is taken in. [DEDUCED: log 105] -/
def acceptUpdate (u : Nat) (v : BitVec 3) (e : Word) (s : State) : State :=
  let h := getHealth s u
  let was := eff s u
  let s1 := updHealth s u (fun h =>
    { h with
      map := v
      epoch := e
      checking := if 2 ≤ v.toNat then false else h.checking || decide (2 ≤ h.map.toNat) })
  let s2 := if h.map = v then s1
    else logAt (reporterOf u) (mkRec 0x0E01 (stateSev v.toNat) u none noTide
      [(1, h.map.toNat), (1, v.toNat), (1, 0), (1, 0), (4, e.toNat)]) s1
  let s2 := if v = 1 ∧ h.map ≠ 1 ∧ unitClass u = 0 then dueAtOnce u s2 else s2
  if 2 ≤ v.toNat ∧ (was < 2 ∨ was = 3) then excludeUnit u (v = 4) s2
  else if v.toNat < 2 ∧ 2 ≤ h.map.toNat then beginCheck u s2
  else s2

/-- The next update for a unit reaches its holder, which accepts or rejects it. -/
def takeUpdate (u : Nat) (s : State) : State :=
  let pick (c : Ctl) : Option (BitVec 3 × Word) := match c with
    | .hmUpdate u' v e => if u' = u then some (v, e) else none
    | _ => none
  match takeCtl pick s with
  | none => s
  | some ((v, e), t) =>
    let h := getHealth t u
    let d := (e - epochOf t u).toNat
    settleOrders (if d = 0 ∨ 2 ^ 31 ≤ d then rejectUpdate u e true t
      else if h.map = 4 ∧ v ≠ 4 then rejectUpdate u e false t
      else acceptUpdate u v e t)

/-- HM_UPDATE (R415). -/
def execHmUpdate (unit : BitVec 32) (s : State) : Out := .next (if unitClass unit.toNat ≤ 6 then takeUpdate unit.toNat s else s)

/-- HB_HM (R476, R488): the same at a Harbour. -/
def execHbHm (unit : BitVec 32) (s : State) : Out := .next (if 7 ≤ unitClass unit.toNat then takeUpdate unit.toNat s else s)

/-! ### Live reports at Lighthouse (R414, R418) -/

/-- Disagreements on a unit in the last 24 h. -/
def disagreements (s : State) (u : Nat) : Nat :=
  ((getHealth s u).disagree.filter (fun t => decide (nowUs s < t + 86400000000))).length

/-- A report is recorded: a live fence goes into the map, and the third disagreement within 24 h retires the unit. -/
def recordLive (u : Nat) (v : BitVec 3) (s : State) : State :=
  let s1 := updLh s (fun l => { l with map := tupd LhUnit.init l.map u (fun x => { x with live := v }) })
  let m := (getUnit s1 u).map
  if v ≠ 2 ∨ m = 4 then s1
  else if 3 ≤ disagreements s1 u then lhSet u 4 s1
  else if m.toNat < 2 then lhSet u 2 s1
  else s1

/-- The next live report of a unit reaches Lighthouse. -/
def takeLive (u : Nat) (s : State) : State :=
  let pick (c : Ctl) : Option (BitVec 3) := match c with
    | .live u' v _ => if u' = u then some v else none
    | _ => none
  if !lhRuns s then s
  else match takeCtl pick s with
    | none => s
    | some (v, t) => recordLive u v t

/-- LIVE_REPORT (R414). -/
def execLiveReport (unit : BitVec 32) (s : State) : Out := .next (if unitClass unit.toNat ≤ 6 then takeLive unit.toNat s else s)

/-- HB_STATE (R488): the report of a Harbour. -/
def execHbState (unit : BitVec 32) (s : State) : Out := .next (if 7 ≤ unitClass unit.toNat then takeLive unit.toNat s else s)

/-! ### Self-checks (R417, R418) -/

/-- A hop that was out stays closed to traffic until its unit rejoins (R119). -/
def awaitHop (k dir : Nat) (s : State) : State :=
  if tget 0 (getRouter s k).mark dir = 2 then markHop k dir 1 s else s

/-- R427: a row of the region has two excluded cores; the scan of its cores. -/
def checkHolds (s : State) (u : Nat) : Bool :=
  match unitClass u with
  | 3 => !twoExcluded s (unitBits u)
  | 5 => (getPort s (unitBits u)).pstate = 5
  | 6 => (getHport s (unitBits u)).l0
  | _ => true

/-- What a release brings once the check has passed (R44, R119, R143, R417). [DEDUCED: log 103] -/
def releaseUnit (u : Nat) (s : State) : State :=
  let k := unitBits u
  match unitClass u with
  | 0 => forfeitCore k (updCore (countIngest k s) k coreReset)
  | 1 => forAll (List.range 4) (fun d t => match neighbour k d with
      | some k' => awaitHop k' (opposite d) (awaitHop k d t)
      | none => t) (updRouter s k (fun r => { r with dead := false }))
  | 2 =>
    let d := linkDir u
    let k := k % 0x80000
    match neighbour k d with
    | some k' => awaitHop k' (opposite d) (awaitHop k d s)
    | none => s
  | 3 =>
    endScrub k [] (updRegion s k (fun r =>
      { r with
        powered := true
        pg := true
        tripped := false
        awaitsRejoin := true }))
  | 6 => settleStandby s
  | _ => s

/-- SELF_CHECK (R413, R417, R418): a check that passes releases the unit; one that fails is a disagreement, and the unit stays
FENCED. [DEDUCED: log 107] -/
def execSelfCheck (unit : BitVec 32) (pass : Bool) (s : State) : Out :=
  let u := unit.toNat
  let h := getHealth s u
  .next (if !h.checking || awaitsPower s u then s
    else
      let s1 := updHealth s u (fun h => { h with checking := false })
      settleOrders (if pass && checkHolds s u then
          releaseUnit u (setLive u 0 (updHealth s1 u (fun h => { h with releasedAt := some (nowUs s) })))
        else
          let s2 := if h.live = 2 then sendCtl (.live u 2 (epochOf s u)) s1 else setLive u 2 s1
          noteDisagree u s2))

end Sys2Proof.Machine
end

