-- ==== Sys2Proof/Machine/Audit.lean ====
section
/-! DEFINITION. Machine/Audit.lean: audit passes over the pinned ranges, their refetches and the evidence that they give
(R380, R402–R408). -/

namespace Sys2Proof.Machine

open Sys2Proof

/-- The pins of an engine that region controllers can audit: those in place, in stage regions that are not offline.
[DESIGN CHOICE: log 108] -/
def audited (s : State) (p : Pin) : Bool :=
  (p.pinned || p.bad) && decide (p.fetch = 0) && !regionOffline s (p.core.toNat / 512)

/-- R405, R410: the record of a mismatch. -/
def logAuditFail (e : Nat) (p : Pin) (sum : Word) (s : State) : State :=
  let g := getEngine s e
  let u := uHost (if (getFn s g.owner.toNat).port then 1 else 0)
  logAt u (mkRec 0x0D02 1 (uRegion (p.core.toNat / 512)) (some g.owner.toNat) g.tide.num
    [(4, p.core.toNat + 2 ^ 18 * ownModule s), (4, p.addr), (2, p.tag.toNat), (1, e), (1, 0), (4, p.check.toNat),
     (4, sum.toNat), (4, p.record), (8, (recordAddr p.master p.record).toNat)]) s

/-- Failures of a logical core's pins within 24 h (R408). -/
def coreFails (s : State) (e : Nat) (core : BitVec 18) : Nat :=
  (((getEngine s e).pins.filter (fun p => p.core = core)).flatMap (fun p =>
    p.fails.filter (fun t => decide (nowUs s < t + 86400000000)))).length

/-- R408: the third failure within 24 h, and every later one, is evidence against the physical core. [DEDUCED: log 109] -/
def auditEvidence (e : Nat) (core : BitVec 18) (s : State) : State :=
  let n := coreFails s e core
  let key := carrier s core.toNat
  if n < 3 then s
  else lhSuspect (uCore key) (logAt (uRegion (keyRegion key)) (mkRec 0x0D04 1 (uCore key) (ownerOf s (keyRegion key)) noTide
    [(4, core.toNat + 2 ^ 18 * ownModule s), (1, n)]) s)

/-- One entry audited (R404, R405): a mismatch, or an entry that is BAD, is to be fetched again. -/
def auditPin (e : Nat) (s : State) (i : Nat) : State :=
  match (getEngine s e).pins[i]? with
  | none => s
  | some p =>
    if !audited s p then s
    else
      let n := p.core.toNat / 512
      let sum := crc32c (readBytes (getCore s (carrier s p.core.toNat)).spad p.addr 2048)
      let miss := sum ≠ p.check
      let s1 := bump (uRegion n) rAudChecked (updEngine s e (fun g =>
        { g with auditRun := g.auditRun.map (fun a => (a.1 + 1, a.2.1 + (if miss then 1 else 0), a.2.2)) }))
      let s2 := if miss ∨ p.bad then updPin e i (fun q =>
          { q with
            fetch := 1
            holed := false
            fails := if miss then q.fails ++ [nowUs s] else q.fails }) s1 else s1
      if miss then auditEvidence e p.core (bump (uRegion n) rAudFail (logAuditFail e p sum s2)) else s2

/-- Places of an engine's pins, in ascending (core, ADDR) order. -/
def pinOrder (g : Engine) : List Nat :=
  (sortBy (fun a b => decide (a.1.core.toNat < b.1.core.toNat ∨ (a.1.core = b.1.core ∧ a.1.addr ≤ b.1.addr))) g.pins.zipIdx).map
    (·.2)

/-- R404: one pass, all regions in parallel; its refetches follow. [DESIGN CHOICE: log 108] -/
def auditPass (e : Nat) (s : State) : State :=
  let s1 := updEngine s e (fun g => { g with auditRun := some (0, 0, 0) })
  settlePins e ((pinOrder (getEngine s1 e)).foldl (auditPin e) s1)

/-- R403: the TID_TIME at which pass `k` falls due. [DEDUCED: log 172] -/
def auditDue (g : Engine) (k : Nat) : Nat := g.auditBase.toNat + k * g.auditPeriod.toNat * 24576000

/-- AUDIT_PASS (R403): the clock moves on to the next due time; a pass that falls due while another runs is not started.
[DEDUCED: log 172] -/
def execAuditPass (e : Fin 8) (s : State) : Out := clocked s <|
  let g := getEngine s e.val
  .next (if g.image.isNone ∨ !g.auditEn ∨ g.state.toNat < 2 ∨ 3 < g.state.toNat ∨ g.auditPeriod = 0 then s
    else
      let k := (g.auditDone.toNat - g.auditBase.toNat) / (g.auditPeriod.toNat * 24576000) + 1
      let t := clockTo (50 * auditDue g k) s
      let t1 := updEngine t e.val (fun g => { g with auditDone := BitVec.ofNat 64 (auditDue g k) })
      if g.auditRun.isSome then t1 else auditPass e.val t1)

/-- AUDIT (R380): it runs a pass at once, after one that is running. [DEDUCED: log 85] -/
def execAudit (e : Fin 8) (j : Nat) (s : State) : Out := clocked s <|
  .next (if (getEngine s e.val).auditRun.isSome then s
    else startJob e.val j 0x1A (fun _ t => auditPass e.val t) s)

/-- R438: a rebuilding or a relocation needs the record. [DEDUCED: log 110] -/
def mustHave (s : State) (e : Nat) (p : Pin) : Bool :=
  let n := p.core.toNat / 512
  !p.pinned && ((getRegion s n).rebuilding.getLsbD (p.core.toNat / 16 % 32)
    || (getEngine s e).reloc.any (fun r => r.reserve = n))

/-- A refetch for which no master can be reached: the engine faults where it needs the record, else the entry is BAD.
[DEDUCED: log 110] -/
def pinHole (e i : Nat) (p : Pin) (s : State) : State :=
  if mustHave s e p then faultEngine e stHole s
  else settlePins e (updPin e i (fun q =>
    { q with
      fetch := 0
      ordered := false
      bad := true
      holed := true }) s)

/-- REFETCH (R405): the pin order, and READ_REC of one record from the master whose turn it is. -/
def execRefetch (e : Fin 8) (s : State) : Out := clocked s <|
  .next (match (getEngine s e.val).pins.zipIdx.find? (fun p => decide (p.1.fetch = 1 ∨ p.1.fetch = 3)) with
    | none => s
    | some (p, i) =>
      match pinMaster s p (decide (p.fetch = 3)) with
      | none => pinHole e.val i p s
      | some m =>
        readRecs e.val 2 (recordAddr m p.record) 1 p.core p.record none (sendPinOrder e.val p (updPin e.val i (fun q =>
          { q with
            fetch := q.fetch + 1
            ordered := false
            sentUs := nowUs s }) s)))

/-- REFETCH_TIMEOUT (R405): 200 µs after the READ_REC; the record is fetched once more, or the entry is BAD. -/
def execRefetchTimeout (e : Fin 8) (s : State) : Out := clocked s <|
  .next (match (getEngine s e.val).pins.zipIdx.find? (fun p => p.1.job.isNone && decide (p.1.fetch = 2 ∨ p.1.fetch = 4)) with
    | none => s
    | some (p, i) =>
      let t := clockTo (tcycle s + ((p.sentUs + 200 - nowUs s) * 12288 + 9) / 10) s
      let t1 := updEngine t e.val (fun g => { g with xfers := g.xfers.filter (fun x =>
        !(decide (x.use = 2) && decide (x.ret = p.core.setWidth 32) && decide (x.ref = p.record))) })
      if p.fetch = 4 ∧ p.holed then pinHole e.val i p t1 else settlePins e.val (pinFail e.val i p t1))

end Sys2Proof.Machine
end

