-- ==== Sys2Proof/Machine/Image.lean ====
section
/-! DEFINITION. Machine/Image.lean: a placement image as pass 1 reads, resolves and judges it (R159–R176, R181, R246, R363,
R580). -/

namespace Sys2Proof.Machine

open Sys2Proof

/-- The little-endian number of a size at an offset of an image. -/
abbrev Reader := Nat → Nat → Nat

/-- An image in host memory. -/
def imageReader (s : State) (a : Nat) : Reader := fun off n => readNat s.hmem (a + off) n

/-- One reason for which an image is refused: its cause, its status, and the offset of the offending byte (R363, R580). -/
structure Finding where
  cause : Nat
  status : Nat
  off : Option Nat
  deriving DecidableEq, Repr

/-- [DEDUCED: log 111] -/
def finding (bad : Bool) (cause status : Nat) (off : Option Nat) : List Finding :=
  if bad then [{ cause := cause, status := status, off := off }] else []

/-- A failing item of R174 that carries RANGE, at an offset. [DEDUCED: log 111] -/
def outside (bad : Bool) (cause off : Nat) : List Finding := finding bad cause stRange (some off)

/-- R174 item 14: bits from `b` up of a field are not 0; the first byte that shows it. -/
def reservedAt (rd : Reader) (off n b : Nat) : List Finding :=
  match (List.range n).find? (fun i => (rd (off + i) 1) >>> (b - 8 * i) ≠ 0) with
  | some i => finding true 14 stBad (some (off + i))
  | none => []

/-! ### Partitions and persistent state (R26, R29) -/

def partKind (part b : Nat) : Nat := part / 4 ^ b % 4

/-- R26, first three conditions. -/
def partOk (part : Nat) : Bool :=
  let ks := (List.range 12).map (partKind part)
  !ks.contains 3 && decide ((ks.filter (fun k => decide (k = 2))).length ≤ 1) && ks.contains 0

/-- Every byte of a range lies in a resident bank. -/
def inResident (part a n : Nat) : Bool :=
  decide (a + n ≤ 0x30000) && (List.range 12).all (fun b =>
    decide (a + n ≤ 0x4000 * b ∨ 0x4000 * (b + 1) ≤ a) || decide (partKind part b = 1))

/-- R26, R29: PS_BASE and PS_SIZE of a CORE_PSTATE value with a partition. -/
def pstateOk (part pstate : Nat) : Bool :=
  let base := pstate % 128
  let size := pstate / 128 % 16
  decide (base ≤ 95 ∧ size ≤ 8) && (decide (size = 0) || inResident part (2048 * base) (4096 * size))

/-! ### Sections (R165, R166) -/

structure Sec where
  typ : Nat
  off : Nat
  len : Nat
  cnt : Nat
  entry : Nat
  deriving DecidableEq, Repr

def secList (rd : Reader) : List Sec := (List.range (rd 0x0C 2)).map (fun i =>
  let e := 0x40 + 16 * i
  { typ := rd e 2, off := rd (e + 4) 4, len := rd (e + 8) 4, cnt := rd (e + 12) 4, entry := e })

def secOf (rd : Reader) (t : Nat) : Option Sec := (secList rd).find? (fun x => decide (x.typ = t))

/-- Record size of a section type; a PROGRAMS or DATA record is its fixed part. -/
def recordSize (t : Nat) : Nat :=
  match t with
  | 1 => 4 | 2 => 8 | 3 => 24 | 4 => 16 | 5 => 8 | 6 => 16 | 7 => 4 | 8 => 8 | 9 => 16 | _ => 12

/-- Offsets of the records of a type. -/
def recordsOf (rd : Reader) (t : Nat) : List Nat :=
  match secOf rd t with
  | none => []
  | some x => (List.range x.cnt).map (fun i => x.off + recordSize t * i)

/-- Item 1 (R162, R163, R363), with the reserved bytes of the header. `len` is LENGTH of the command; `sum` says that CHECK
matches. -/
def headFindings (rd : Reader) (len : Nat) (sum : Bool) : List Finding :=
  let item (bad : Bool) (off : Nat) : List Finding := finding bad 1 stBad (some off)
  let n := rd 8 4
  item (rd 0 4 ≠ 0x4D495053) 0 ++ item (rd 5 1 ≠ 1) 5 ++ item (decide (1 < rd 6 1)) 6 ++ item (decide (1 < rd 7 1)) 7
    ++ item (n % 4 ≠ 0 || n < 0x100 || n ≠ len) 8 ++ item (rd 0x0C 2 < 3 || 10 < rd 0x0C 2) 0x0C
    ++ item (rd 0x10 3 ≠ 0x015512) 0x10 ++ item (n = len && !sum) (n - 4)
    ++ reservedAt rd 0x0E 2 0 ++ reservedAt rd 0x13 1 0 ++ reservedAt rd 0x1C 4 0 ++ reservedAt rd 0x30 16 0

/-- Two ranges share a byte. -/
def rangesMeet (a n b m : Nat) : Bool := decide (0 < n ∧ 0 < m ∧ a < b + m ∧ b < a + n)

/-- Item 2 on one program of the index: R166. -/
def programFindings (rd : Reader) (x : Sec) (i : Nat) : List Finding :=
  let e := x.off + 8 * i
  let a := rd e 4
  let w := rd (e + 4) 2
  let meets := (List.range i).any (fun k =>
    rangesMeet a (4 * w) (rd (x.off + 8 * k) 4) (4 * rd (x.off + 8 * k + 4) 2))
  finding (a % 64 ≠ 0 || a < 8 * x.cnt || x.len < a + 4 * w || meets) 2 stBad (some e)
    ++ finding (w = 0 || 4096 < w) 2 stBad (some (e + 4)) ++ reservedAt rd (e + 6) 2 0

/-- Item 2 (R164, R165, R166), with the reserved bytes of the section table. The programs of a table that breaks R165 are not judged
(R580). -/
def sectionFindings (rd : Reader) : List Finding :=
  let xs := secList rd
  let modeL := rd 6 1 = 1
  let table := 0x40 + 16 * xs.length
  let last := rd 8 4 - 4
  let item (bad : Bool) (off : Nat) : List Finding := finding bad 2 stBad (some off)
  let found :=
    xs.zipIdx.flatMap (fun p =>
      let x := p.1
      let before := xs.take p.2
      item (x.typ = 0 || 10 < x.typ || before.any (fun y => decide (y.typ = x.typ)) || (x.typ = 8 && !modeL)) x.entry
        ++ item (x.off % 64 ≠ 0 || x.off < table || last < x.off + x.len
            || before.any (fun y => rangesMeet x.off x.len y.off y.len)) (x.entry + 4)
        ++ item (if x.typ = 2 then x.len < 8 * x.cnt else x.typ ≠ 9 && x.len ≠ x.cnt * recordSize x.typ) (x.entry + 8)
        ++ item (x.typ = 2 && (x.cnt = 0 || 262144 < x.cnt)) (x.entry + 12)
        ++ reservedAt rd (x.entry + 2) 2 0)
      ++ finding (([1, 2, 3] ++ (if modeL then [8] else [])).any (fun t => xs.all (fun x => decide (x.typ ≠ t)))) 2 stBad none
  found ++ (match secOf rd 2 with
    | some x => if found.any (fun f => decide (f.cause = 2)) then [] else (List.range x.cnt).flatMap (programFindings rd x)
    | none => [])

/-! ### Regions and groups (R172) -/

def stageRegions (rd : Reader) : List Nat :=
  (recordsOf rd 1).filterMap (fun o => if rd (o + 2) 1 = 0 then some (rd o 2 % 512) else none)
def reserveRegions (rd : Reader) : List Nat :=
  (recordsOf rd 1).filterMap (fun o => if rd (o + 2) 1 = 1 then some (rd o 2 % 512) else none)

/-- The place of a region in the serpentine order. -/
def serpentine (n : Nat) : Nat := 24 * regionRow n + (if regionRow n % 2 = 0 then regionCol n else 23 - regionCol n)

/-- The sizes of the groups of `p` regions for layers of (weight, minimum); none when the allocator refuses. -/
def groupSizes (p : Nat) (layers : List (Nat × Nat)) : Option (List Nat) :=
  let mins := (layers.map (·.2)).sum
  let w := (layers.map (·.1)).sum
  if w = 0 ∨ p < mins then none
  else
    let s := p - mins
    let ns := layers.map (fun l => l.2 + s * l.1 / w)
    let left := p - ns.sum
    let byRem := sortBy (fun a b => decide (b.1 < a.1 ∨ (a.1 = b.1 ∧ a.2 ≤ b.2))) (layers.zipIdx.map (fun l => (s * l.1.1 % w, l.2)))
    let more := (byRem.take left).map (·.2)
    some (ns.zipIdx.map (fun x => if more.contains x.2 then x.1 + 1 else x.1))

/-- Runs of the given lengths. -/
def cutRuns {α : Type} : List Nat → List α → List (List α)
  | [], _ => []
  | n :: ns, xs => xs.take n :: cutRuns ns (xs.drop n)

/-- LAYERS records. -/
def layerList (rd : Reader) : List (Nat × Nat) := (recordsOf rd 8).map (fun o => (rd o 4, rd (o + 4) 2))

/-- The groups of a mode L image. -/
def imageGroups (rd : Reader) : Option (List (List Nat)) :=
  (groupSizes (stageRegions rd).length (layerList rd)).map (fun ns =>
    cutRuns ns (sortBy (fun a b => decide (serpentine a ≤ serpentine b)) (stageRegions rd)))

/-- The regions to which a record's REGION field applies, with their indexes in their group (R161, R173). -/
def placesOf (rd : Reader) (gs : List (List Nat)) (r : Nat) : List (Nat × Nat) :=
  if rd 6 1 = 1 then ((gs[r]?.getD []).zipIdx.map (fun x => (x.2, x.1))) else [(0, r)]

/-- A record names no stage region, or no layer (R174). -/
def noPlace (rd : Reader) (gs : List (List Nat)) (r : Nat) : Bool :=
  if rd 6 1 = 1 then (gs[r]?.getD []).isEmpty else !(stageRegions rd).contains r

/-- The core that a template coordinate or core id names in one of those regions. -/
def placedCore (t n : Nat) : Nat := 512 * n + t % 512

/-! ### Resolved records, each with the offset of the record that it comes from (R173) -/

def resolvedCores (rd : Reader) (gs : List (List Nat)) : List (Nat × CoreRec) :=
  (recordsOf rd 3).flatMap (fun o => (placesOf rd gs (rd o 2 % 512)).map (fun p =>
    (o, { region := p.2, rowFirst := rd (o + 2) 1, rowLast := rd (o + 3) 1, colFirst := rd (o + 4) 1, colLast := rd (o + 5) 1,
          prog := rd (o + 8) 4 % 2 ^ 18, entry := BitVec.ofNat 12 (rd (o + 8) 4 / 2 ^ 18), part := BitVec.ofNat 24 (rd (o + 12) 4),
          pstate := BitVec.ofNat 32 (rd (o + 16) 4), staticQ := BitVec.ofNat 8 (rd (o + 20) 1) })))

/-- The channels of one CHANNELS record. A mode L destination is in the same group or the next one. -/
def channelsOf (rd : Reader) (own : Nat) (gs : List (List Nat)) (o : Nat) : List ChanRec :=
  let src := rd (o + 4) 4 % 2 ^ 18
  let dst := rd (o + 8) 4
  let kind := rd (o + 3) 1
  let l := src / 512
  (placesOf rd gs l).filterMap (fun p =>
    let mk (d : Nat) : ChanRec :=
      { channel := rd o 2 % 4096 + p.1
        slot := rd (o + 2) 1 % 32
        kind := kind
        src := BitVec.ofNat 18 (placedCore src p.2)
        dst := BitVec.ofNat 25 d
        maxHops := rd (o + 12) 2 }
    if rd 6 1 ≠ 1 then some (mk dst)
    else if kind = 2 then some (mk (dst % 2 ^ 18 + 2 ^ 18 * own))
    else
      let ends := if dst / 512 % 2 = 1 then
          let next := gs[l + 1]?.getD []
          next[p.1 * next.length / (gs[l]?.getD []).length]?
        else some p.2
      ends.map (fun n => mk (placedCore dst n + 2 ^ 18 * own + 2 ^ 22 * (dst / 2 ^ 22 % 8))))

def resolvedChans (rd : Reader) (own : Nat) (gs : List (List Nat)) : List (Nat × ChanRec) :=
  (recordsOf rd 4).flatMap (fun o => (channelsOf rd own gs o).map (fun c => (o, c)))

/-- R173: with SCOPE 1 only the first region of the group, a barrier counting every region of it. -/
def syncsOf (rd : Reader) (gs : List (List Nat)) (o : Nat) : List SyncRec :=
  let cfg := rd (o + 4) 4
  let ps := placesOf rd gs (rd o 2 % 512)
  let one := rd (o + 3) 1 = 1 ∧ rd 6 1 = 1
  (if one then ps.take 1 else ps).map (fun p =>
    { region := p.2, obj := rd (o + 2) 1 % 16, kind := BitVec.ofNat 3 cfg,
      init := BitVec.ofNat 16 (cfg / 8 % 2 ^ 16 * (if one ∧ cfg % 8 = 3 then ps.length else 1)) })

def resolvedSyncs (rd : Reader) (gs : List (List Nat)) : List (Nat × SyncRec) :=
  (recordsOf rd 5).flatMap (fun o => (syncsOf rd gs o).map (fun c => (o, c)))

def resolvedRoutes (rd : Reader) (gs : List (List Nat)) : List (Nat × RouteRec) :=
  (recordsOf rd 6).flatMap (fun o => (placesOf rd gs (rd o 2 % 512)).map (fun p =>
    (o, { region := p.2, mesh := BitVec.ofNat 32 (rd (o + 4) 4), chw := BitVec.ofNat 32 (rd (o + 8) 4) })))

def resolvedMirrors (rd : Reader) (gs : List (List Nat)) : List (Nat × MirrorRec) :=
  (recordsOf rd 7).flatMap (fun o => (placesOf rd gs (rd o 2 % 512)).map (fun p =>
    (o, { region := p.2, row := rd (o + 2) 1, bank := rd (o + 3) 1 })))

def resolvedData (rd : Reader) (gs : List (List Nat)) : List (Nat × DataRec) :=
  (recordsOf rd 9).flatMap (fun o => (placesOf rd gs (rd o 4 % 2 ^ 18 / 512)).map (fun p =>
    (o, { core := BitVec.ofNat 18 (placedCore (rd o 4) p.2), addr := rd (o + 4) 4,
          off := ((secOf rd 9).map (·.off)).getD 0 + rd (o + 8) 4, len := rd (o + 12) 4 })))

/-- R173: a SHORE record applies to the region GROUP_INDEX of its group. -/
def resolvedShores (rd : Reader) (gs : List (List Nat)) : List (Nat × ShoreRec) :=
  (recordsOf rd 10).flatMap (fun o =>
    ((placesOf rd gs (rd o 4 % 2 ^ 18 / 512)).filter (fun p => decide (p.1 = rd (o + 8) 2))).map (fun p =>
      (o, { core := BitVec.ofNat 18 (placedCore (rd o 4) p.2), bridge := rd (o + 4) 1, egress := decide (rd (o + 5) 1 = 1),
            endpoint := rd (o + 6) 2 })))

/-- The CORES record that covers a logical core. -/
def coverOf (cs : List (Nat × CoreRec)) (id : Nat) : Option CoreRec :=
  (cs.find? (fun c => decide (c.2.region = id / 512 ∧ c.2.rowFirst ≤ id / 16 % 32 ∧ id / 16 % 32 ≤ c.2.rowLast
    ∧ c.2.colFirst ≤ id % 16 ∧ id % 16 ≤ c.2.colLast))).map (·.2)

/-- The logical cores of a CORES record. -/
def recordCores (c : CoreRec) : List Nat :=
  (List.range (c.rowLast + 1 - c.rowFirst)).flatMap (fun i => (List.range (c.colLast + 1 - c.colFirst)).map (fun j =>
    512 * c.region + 16 * (c.rowFirst + i) + (c.colFirst + j)))

/-! ### Items 3 to 13 of R174 -/

/-- An earlier element of a list satisfies `p` with the one at place `i`. -/
def hasEarlier {α : Type} (xs : List α) (i : Nat) (p : α → Bool) : Bool := (xs.take i).any p

/-- Items 3 and 4. -/
def regionFindings (s : State) (fn : Nat) (rd : Reader) : List Finding :=
  let os := recordsOf rd 1
  let stage := stageRegions rd
  (os.zipIdx.flatMap (fun p =>
    let o := p.1
    let n := rd o 2 % 512
    let r := getRegion s n
    outside (1 < rd (o + 2) 1) 3 (o + 2) ++ outside (hasEarlier os p.2 (fun q => decide (rd q 2 % 512 = n))) 3 o
      ++ finding (ownerOf s n ≠ some fn) 3 stNotOwner (some o)
      ++ outside (r.engine.isSome || r.held || s.dbg.coreSib.getLsbD n || !usable s (uRegion n) || regionOffline s n || r.awaitsRejoin) 3 o
      ++ reservedAt rd o 2 9 ++ reservedAt rd (o + 3) 1 0))
    ++ finding stage.isEmpty 3 stRange none
    ++ finding (rd 7 1 = 0 && decide ((reserveRegions rd).length < (stage.length + 63) / 64)) 4 stRange none

/-- Item 5: the allocator and the resolutions of R173. -/
def layerFindings (rd : Reader) (gs : List (List Nat)) : List Finding :=
  if rd 6 1 ≠ 1 then []
  else
    let size (l : Nat) : Nat := (gs[l]?.getD []).length
    (recordsOf rd 8).flatMap (fun o =>
      outside (rd o 4 = 0) 5 o ++ outside (rd (o + 4) 2 = 0 || 512 < rd (o + 4) 2) 5 (o + 4) ++ reservedAt rd (o + 6) 2 0)
      ++ finding (imageGroups rd).isNone 5 stRange none
      ++ (recordsOf rd 4).flatMap (fun o =>
        let l := rd (o + 4) 4 % 2 ^ 18 / 512
        outside (rd (o + 3) 1 ≠ 2 && rd (o + 8) 4 / 512 % 2 = 1 && decide (l < gs.length) && decide (gs.length ≤ l + 1)) 5 (o + 9)
          ++ outside (decide (0 < size l) && decide (rd o 2 % 4096 ≠ 4095) && decide (4094 < rd o 2 % 4096 + (size l - 1))) 5 o)
      ++ (recordsOf rd 5).flatMap (fun o =>
        outside (rd (o + 3) 1 = 1 && rd (o + 4) 4 % 8 = 3
          && decide (1024 < rd (o + 4) 4 / 8 % 2 ^ 16 * size (rd o 2 % 512))) 5 (o + 4))
      ++ (recordsOf rd 10).flatMap (fun o =>
        let l := rd o 4 % 2 ^ 18 / 512
        outside (decide (0 < size l) && decide (size l ≤ rd (o + 8) 2)) 5 (o + 8))

/-- Two resolved CORES records share a core. -/
def coresMeet (a b : CoreRec) : Bool :=
  decide (a.region = b.region ∧ a.rowFirst ≤ b.rowLast ∧ b.rowFirst ≤ a.rowLast ∧ a.colFirst ≤ b.colLast ∧ b.colFirst ≤ a.colLast)

/-- Item 6. -/
def coreFindings (rd : Reader) (gs : List (List Nat)) : List Finding :=
  let cs := resolvedCores rd gs
  let progs := (secOf rd 2).getD { typ := 2, off := 0, len := 0, cnt := 0, entry := 0 }
  (recordsOf rd 3).flatMap (fun o =>
    let code := rd (o + 8) 4
    let part := rd (o + 12) 4 % 2 ^ 24
    let ps := rd (o + 16) 4
    outside (noPlace rd gs (rd o 2 % 512)) 6 o
      ++ outside (31 < rd (o + 3) 1 || rd (o + 3) 1 < rd (o + 2) 1) 6 (o + 2)
      ++ outside (15 < rd (o + 5) 1 || rd (o + 5) 1 < rd (o + 4) 1) 6 (o + 4)
      ++ outside (decide (progs.cnt ≤ code % 2 ^ 18)
          || decide (rd (progs.off + 8 * (code % 2 ^ 18) + 4) 2 ≤ code / 2 ^ 18 % 4096)) 6 (o + 8)
      ++ outside (!partOk part) 6 (o + 12) ++ outside (!pstateOk part ps || ps / 2 ^ 11 % 2 = 1) 6 (o + 16)
      ++ reservedAt rd o 2 9 ++ reservedAt rd (o + 6) 2 0 ++ reservedAt rd (o + 8) 4 30 ++ reservedAt rd (o + 12) 4 24
      ++ reservedAt rd (o + 16) 4 13 ++ reservedAt rd (o + 21) 3 0)
    ++ cs.zipIdx.flatMap (fun p => outside (hasEarlier cs p.2 (fun q => coresMeet q.2 p.1.2)) 6 p.1.1)

/-- The slot that a static channel binds (R79, R81). -/
def chanSlot (c : ChanRec) : Slot :=
  let d := c.dst.toNat
  { dst := BitVec.ofNat 18 d, module := BitVec.ofNat 4 (d / 2 ^ 18), queue := BitVec.ofNat 3 (d / 2 ^ 22), kind := BitVec.ofNat 2 c.kind,
    static := true, channel := BitVec.ofNat 12 c.channel }

/-- R175: the STATIC_Q of a core that another loaded image covers. -/
def loadedQueues (s : State) (id : Nat) : Option Byte :=
  (List.range 8).findSome? (fun e => ((getEngine s e).image.bind (fun im => coreRecOf im id)).map (·.staticQ))

/-- R81, R175, R272, R277: why the destination of a channel is refused, as a status. [DEDUCED: log 112, 113] -/
def chanRefusal (s : State) (fn : Nat) (cs : List (Nat × CoreRec)) (shores : List (Nat × ShoreRec)) (stage : List Nat)
    (c : ChanRec) : Option Nat :=
  let sl := chanSlot c
  let id := sl.dst.toNat
  let n := id / 512
  if c.kind = 2 then
    if sl.module.toNat ≠ ownModule s then some stRange
    else if 0x3FC00 ≤ id then
      if shores.any (fun x => x.2.egress && decide (x.2.endpoint = id - 0x3FC00)) then none else some stRange
    else
      let h := getChan s (targetKey id)
      if h.owned ∧ h.owner.toNat = fn then none else if h.owned then some stNotOwner else some stRange
  else if domainSize s ≤ sl.module.toNat then some stRange
  else if sl.module.toNat ≠ ownModule s then
    if !s.dom.present.getLsbD sl.module.toNat then some stRange
    else if (tget 0 s.dom.funcMap (16 * fn + sl.module.toNat)).getLsbD 5 then none else some stNotOwner
  else
    let q := if stage.contains n then (coverOf cs id).map (·.staticQ) else loadedQueues s id
    if !stage.contains n ∧ ownerOf s n ≠ some fn then some stNotOwner
    else if q.any (fun w => w.getLsbD sl.queue.toNat) then none
    else some stRange

/-- R176: the hops of a channel from its source as the tables stand, none when its head would be discarded. -/
def chanHops (s : State) (shores : List (Nat × ShoreRec)) (c : ChanRec) : Option Nat :=
  let key := carrier s c.src.toNat
  let sl := chanSlot c
  let egress := (shores.find? (fun x => x.2.egress && decide (x.2.endpoint = sl.dst.toNat - 0x3FC00))).map (·.2.bridge)
  let path :=
    if c.kind = 2 ∧ 0x3FC00 ≤ sl.dst.toNat then
      egress.map (fun b =>
        let d := bridgeDest s b (c.channel % 4)
        let corner : BitVec 1 := if needsCorner key d.region then 1 else 0
        pathFrom s (hopOf s) d pathBound { slotSideband s key sl 1 false 0 with lane := corner, corner := corner } key)
    else slotPath s (hopOf s) key sl
  path.bind (fun p => if p.2 then some (p.1.length - 1) else none)

/-- Item 7. [DEDUCED: log 112] -/
def chanFindings (s : State) (fn : Nat) (rd : Reader) (gs : List (List Nat)) : List Finding :=
  let cs := resolvedCores rd gs
  let shores := resolvedShores rd gs
  let stage := stageRegions rd
  let xs := resolvedChans rd (ownModule s) gs
  (recordsOf rd 4).flatMap (fun o =>
    let kind := rd (o + 3) 1
    let modeL := rd 6 1 = 1
    outside (kind = 0 || 2 < kind) 7 (o + 3) ++ outside (rd o 2 % 4096 = 4095) 7 o
      ++ outside (noPlace rd gs (rd (o + 4) 4 % 2 ^ 18 / 512)) 7 (o + 4)
      ++ reservedAt rd o 2 12 ++ reservedAt rd (o + 2) 1 5 ++ reservedAt rd (o + 4) 4 18 ++ reservedAt rd (o + 8) 4 25
      ++ reservedAt rd (o + 14) 2 0
      ++ (if kind = 2 ∧ modeL then
          finding (rd (o + 8) 4 / 2 ^ 18 % 128 ≠ 0) 14 stBad (some (o + 10)) else [])
      ++ (if kind = 1 ∧ modeL then finding (rd (o + 8) 4 / 2 ^ 10 % 2 ^ 12 ≠ 0) 14 stBad
          (some (if rd (o + 8) 4 / 2 ^ 10 % 2 ^ 6 ≠ 0 then o + 9 else o + 10)) else []))
    ++ xs.zipIdx.flatMap (fun p =>
      let o := p.1.1
      let c := p.1.2
      if c.kind = 0 ∨ 2 < c.kind then []
      else
        outside (hasEarlier xs p.2 (fun q => decide (q.2.channel = c.channel))) 7 o
          ++ outside (hasEarlier xs p.2 (fun q => q.2.src = c.src && decide (q.2.slot = c.slot))) 7 (o + 2)
          ++ outside (coverOf cs c.src.toNat).isNone 7 (o + 4)
          ++ (match chanRefusal s fn cs shores stage c with
            | some st => finding true 7 st (some (o + 8))
            | none =>
              match chanHops s shores c with
              | none => outside true 7 (o + 8)
              | some h => outside (decide (c.maxHops ≠ 0) && decide (c.maxHops < h)) 7 (o + 12)))

/-- R134: KIND and INIT as the register takes them. -/
def syncValueOk (kind init : Nat) : Bool :=
  match kind with
  | 0 => decide (init = 0)
  | 1 => decide (init = 0)
  | 2 => true
  | 3 => decide (1 ≤ init ∧ init ≤ 1024)
  | 4 => decide (init ≤ 1)
  | _ => false

/-- Item 8. -/
def syncFindings (rd : Reader) (gs : List (List Nat)) : List Finding :=
  let xs := resolvedSyncs rd gs
  (recordsOf rd 5).flatMap (fun o =>
    let cfg := rd (o + 4) 4
    outside (noPlace rd gs (rd o 2 % 512)) 8 o ++ outside (!syncValueOk (cfg % 8) (cfg / 8 % 2 ^ 16)) 8 (o + 4)
      ++ (if rd 6 1 = 1 then outside (1 < rd (o + 3) 1) 8 (o + 3) else reservedAt rd (o + 3) 1 0)
      ++ reservedAt rd o 2 9 ++ reservedAt rd (o + 2) 1 4 ++ reservedAt rd (o + 4) 4 19)
    ++ xs.zipIdx.flatMap (fun p => outside (hasEarlier xs p.2 (fun q =>
      decide (q.2.region = p.1.2.region ∧ q.2.obj = p.1.2.obj))) 8 (p.1.1 + 2))

/-- Values that RGN_MESH_CTL and RGN_CHW_CTL take (R94, R105). -/
def meshCtlOk (v : Nat) : Bool := decide (v % 32 ≠ 0 ∧ v / 32 % 32 ≠ 0)
def chwCtlOk (v : Nat) : Bool := decide (1024 ≤ v % 2 ^ 24)

/-- Item 9. -/
def routeFindings (rd : Reader) (gs : List (List Nat)) : List Finding :=
  let os := recordsOf rd 6
  os.zipIdx.flatMap (fun p =>
    let o := p.1
    outside (noPlace rd gs (rd o 2 % 512) || hasEarlier os p.2 (fun q => decide (rd q 2 = rd o 2))) 9 o
      ++ outside (rd (o + 4) 4 ≠ 0 && !meshCtlOk (rd (o + 4) 4)) 9 (o + 4)
      ++ outside (rd (o + 8) 4 ≠ 0 && !chwCtlOk (rd (o + 8) 4)) 9 (o + 8)
      ++ reservedAt rd o 2 9 ++ reservedAt rd (o + 2) 2 0 ++ reservedAt rd (o + 4) 4 10 ++ reservedAt rd (o + 8) 4 25
      ++ reservedAt rd (o + 12) 4 0)

/-- The mirror bank that the MIRROR records give the spare of a row. -/
def spareBank (ms : List MirrorRec) (n row : Nat) : Option Nat :=
  (ms.find? (fun m => decide (m.region = n ∧ (m.row = row ∨ m.row = 0xFF)))).bind (fun m => if m.bank < 12 then some m.bank else none)

/-- R35: the holder of a core's mirror under R32 has a mirror bank. -/
def holderOk (s : State) (cs : List (Nat × CoreRec)) (ms : List MirrorRec) (id : Nat) : Bool :=
  if id % 16 < 15 then
    (coverOf cs (id + 1)).any (fun h => (List.range 12).any (fun b => decide (partKind h.part.toNat b = 2))
      && decide (h.pstate.toNat / 128 % 16 ≤ 8))
  else decide (pointOf s (id / 512) (id / 16 % 32) ≠ 16) || (spareBank ms (id / 512) (id / 16 % 32)).isSome

/-- Item 10. -/
def mirrorFindings (s : State) (rd : Reader) (gs : List (List Nat)) : List Finding :=
  let os := recordsOf rd 7
  let cs := resolvedCores rd gs
  let ms := (resolvedMirrors rd gs).map (·.2)
  os.zipIdx.flatMap (fun p =>
    let o := p.1
    outside (noPlace rd gs (rd o 2 % 512)) 10 o
      ++ outside ((31 < rd (o + 2) 1 && rd (o + 2) 1 ≠ 0xFF) || hasEarlier os p.2 (fun q => decide (rd q 2 = rd o 2
          ∧ (rd (q + 2) 1 = rd (o + 2) 1 ∨ rd (q + 2) 1 = 0xFF ∨ rd (o + 2) 1 = 0xFF)))) 10 (o + 2)
      ++ outside (11 < rd (o + 3) 1 && rd (o + 3) 1 ≠ 0xFF) 10 (o + 3) ++ reservedAt rd o 2 9)
    ++ cs.flatMap (fun c => outside (c.2.pstate.getLsbD 12 && !(recordCores c.2).all (holderOk s cs ms)) 10 (c.1 + 16))

/-- Items 11 and 12. -/
def dataFindings (rd : Reader) (gs : List (List Nat)) : List Finding :=
  let cs := resolvedCores rd gs
  let sec := (secOf rd 9).getD { typ := 9, off := 0, len := 0, cnt := 0, entry := 0 }
  let la := rd 0x14 4
  (recordsOf rd 9).flatMap (fun o =>
    let n := rd (o + 12) 4
    outside (noPlace rd gs (rd o 4 % 2 ^ 18 / 512)) 11 o
      ++ outside (sec.off + sec.len < o + 16) 11 o
      ++ outside (rd (o + 8) 4 < 16 * sec.cnt || sec.len < rd (o + 8) 4 + n) 11 (o + 8)
      ++ outside (n % 64 ≠ 0 || n < 64) 11 (o + 12) ++ outside (rd (o + 4) 4 % 64 ≠ 0) 11 (o + 4) ++ reservedAt rd o 4 18)
    ++ (resolvedData rd gs).flatMap (fun d =>
      match coverOf cs d.2.core.toNat with
      | none => outside true 11 d.1
      | some c => outside (!inResident c.part.toNat d.2.addr d.2.len) 11 (d.1 + 4))
    ++ outside (la ≠ 0xFFFFFFFF && (la % 64 ≠ 0 || cs.any (fun c =>
        let base := 2048 * (c.2.pstate.toNat % 128)
        let size := 4096 * (c.2.pstate.toNat / 128 % 16)
        !inResident c.2.part.toNat la 64 || rangesMeet la 64 base size))) 12 0x14

/-- Ingress endpoints of a bridge on an attach index (R181). -/
def ingressCount (xs : List (Nat × ShoreRec)) (b a : Nat) : Nat :=
  (xs.filter (fun x => !x.2.egress && decide (x.2.bridge = b ∧ x.2.core.toNat % 4 = a))).length

/-- Item 13. [DEDUCED: log 113] -/
def shoreFindings (s : State) (rd : Reader) (gs : List (List Nat)) : List Finding :=
  let cs := resolvedCores rd gs
  let os := recordsOf rd 10
  let xs := resolvedShores rd gs
  os.zipIdx.flatMap (fun p =>
    let o := p.1
    outside (noPlace rd gs (rd o 4 % 2 ^ 18 / 512)) 13 o
      ++ outside (31 < rd (o + 4) 1 || bridgeDown s (rd (o + 4) 1)) 13 (o + 4) ++ outside (1 < rd (o + 5) 1) 13 (o + 5)
      ++ outside (1023 < rd (o + 6) 2 || hasEarlier os p.2 (fun q => decide (rd (q + 6) 2 = rd (o + 6) 2))) 13 (o + 6)
      ++ reservedAt rd o 4 18 ++ (if rd 6 1 = 1 then [] else reservedAt rd (o + 8) 2 0) ++ reservedAt rd (o + 10) 2 0)
    ++ xs.flatMap (fun x => outside (coverOf cs x.2.core.toNat).isNone 13 x.1)
    ++ finding ((List.range 32).any (fun b => (List.range 4).any (fun i => (List.range 4).any (fun j =>
        decide (ingressCount xs b i + 1 < ingressCount xs b j))))) 13 stRange none

/-- R164: PROOF_CYCLES against a deadline. -/
def proofFindings (rd : Reader) (deadline : Nat) : List Finding := outside (decide (deadline * 50 < rd 0x18 4)) 17 0x18

/-- Everything that pass 1 finds (R580). -/
def imageFindings (s : State) (fn deadline : Nat) (rd : Reader) (len : Nat) (sum : Bool) : List Finding :=
  let one := headFindings rd len sum
  if one.any (fun f => decide (f.cause = 1)) then one
  else
    let two := one ++ sectionFindings rd
    if two.any (fun f => decide (f.cause = 2)) then two
    else
      let gs := (imageGroups rd).getD []
      two ++ regionFindings s fn rd ++ layerFindings rd gs ++ coreFindings rd gs ++ chanFindings s fn rd gs ++ syncFindings rd gs
        ++ routeFindings rd gs ++ mirrorFindings s rd gs ++ dataFindings rd gs ++ shoreFindings s rd gs
        ++ proofFindings rd deadline

/-- The smallest element of a list. -/
def leastOf : List Nat → Option Nat
  | [] => none
  | x :: xs => some (xs.foldl min x)

/-- R580: status, CAUSE and OFFSET of a refusal. -/
def verdictOf (fs : List Finding) : Option (Nat × Nat × Nat) :=
  if fs.isEmpty then none
  else
    let st := pickStatus (fs.map (·.status))
    let cause := (leastOf ((fs.filter (fun f => decide (f.status = st))).map (·.cause))).getD 0
    some (st, cause, (leastOf ((fs.filter (fun f => decide (f.cause = cause))).filterMap (·.off))).getD 0xFFFFFFFF)

/-- CHECK of an image in host memory (R163). -/
def imageSum (s : State) (a len : Nat) : Word := crc32c (readBytes s.hmem a (len - 4))

/-- The words of program `i`. -/
def programWords (rd : Reader) (i : Nat) : List Word :=
  match secOf rd 2 with
  | none => []
  | some x => (List.range (rd (x.off + 8 * i + 4) 2)).map (fun w => BitVec.ofNat 32 (rd (x.off + rd (x.off + 8 * i) 4 + 4 * w) 4))

/-- The image as pass 1 resolved it. -/
def resolveImage (s : State) (a len : Nat) : Image :=
  let rd := imageReader s a
  let gs := if rd 6 1 = 1 then (imageGroups rd).getD [] else []
  { addr := BitVec.ofNat 64 a
    len := len
    check := BitVec.ofNat 32 (rd (len - 4) 4)
    modeL := decide (rd 6 1 = 1)
    imageId := readBytes s.hmem (a + 0x20) 16
    layoutAddr := BitVec.ofNat 32 (rd 0x14 4)
    proof := BitVec.ofNat 32 (rd 0x18 4)
    stage := stageRegions rd
    reserve := reserveRegions rd
    groups := gs
    programs := (List.range (((secOf rd 2).map (·.cnt)).getD 0)).map (programWords rd)
    cores := (resolvedCores rd gs).map (·.2)
    chans := (resolvedChans rd (ownModule s) gs).map (·.2)
    syncs := (resolvedSyncs rd gs).map (·.2)
    routes := (resolvedRoutes rd gs).map (·.2)
    mirrors := (resolvedMirrors rd gs).map (·.2)
    data := (resolvedData rd gs).map (·.2)
    shores := (resolvedShores rd gs).map (·.2) }

end Sys2Proof.Machine
end

