-- ==== Sys2Proof/Machine/Load.lean ====
section
/-! DEFINITION. Machine/Load.lean: an image load: hold, clear, tree, records, programs, confirmation and bind (R121, R168–R171,
R177–R180, R363). -/

namespace Sys2Proof.Machine

open Sys2Proof

/-! ### What a load writes (R168–R171) -/

/-- The layer, and the place in its group, of a region of a mode L image. -/
def groupPlace (im : Image) (n : Nat) : Nat × Nat :=
  let l := (im.groups.findIdx? (fun g => g.contains n)).getD 0
  (l, ((im.groups[l]?.getD []).findIdx? (fun m => decide (m = n))).getD 0)

/-- The layout record of logical core `id`; `as'` is the region whose place it takes (R171, R431). -/
def layoutRecord (s : State) (im : Image) (as' id : Nat) : List Byte :=
  let p := groupPlace im as'
  let g := im.groups[p.1]?.getD []
  let next := im.groups[p.1 + 1]?.getD []
  padTo 64 (leBytes 4 id ++
    (if im.modeL then
      leBytes 2 p.1 ++ leBytes 2 p.2 ++ leBytes 2 g.length ++ leBytes 2 (g.head?.getD 0) ++ leBytes 2 (next.head?.getD 0xFFFF)
        ++ leBytes 2 next.length ++ leBytes 4 (16 * g.head?.getD 0 + 8192 * ownModule s)
    else leBytes 2 0 ++ leBytes 2 0 ++ leBytes 2 0 ++ leBytes 2 0 ++ leBytes 2 0xFFFF ++ leBytes 2 0 ++ leBytes 4 0)
    ++ leBytes 4 (ownModule s))

/-- CORE_PART and CORE_PSTATE written (R26, R29). -/
def setPart (part : BitVec 24) (k : Core) : Core := { k with part := part }
def setPstate (v : Word) (k : Core) : Core :=
  { k with
    psBase := v.extractLsb' 0 7
    psSize := v.extractLsb' 7 4
    mirrorEn := v.getLsbD 12 }

/-- The slots that an image's channels bind at logical core `id`. -/
def imageSlots (im : Image) (id : Nat) : Tbl Slot :=
  (im.chans.filter (fun c => decide (c.src.toNat = id))).foldl (fun t c => tset Slot.init t c.slot (chanSlot c)) []

/-- The words of its program at logical core `id`. -/
def imageProgram (im : Image) (id : Nat) : Tbl Word :=
  (((coreRecOf im id).bind (fun r => im.programs[r.prog]?)).getD []).zipIdx.foldl (fun t w => tset 0 t w.2 w.1) []

/-- The records of logical core `id`, and its DATA and layout record, written into a core (R168–R171). `as'` is the region
whose records they are. [DEDUCED: log 115] -/
def loadCore (s : State) (im : Image) (as' id : Nat) (k : Core) : Core :=
  match coreRecOf im id with
  | none => k
  | some r =>
    let k1 := setPstate r.pstate (setPart r.part k)
    let data := im.data.filter (fun d => decide (d.core.toNat = id))
    let spad := data.foldl (fun m d => writeBytes m d.addr (readBytes s.hmem (im.addr.toNat + d.off) d.len)) k.spad
    { k1 with
      sel := false
      staticQ := r.staticQ
      entry := r.entry
      hasProgram := true
      slots := imageSlots im id
      spad := if im.layoutAddr = 0xFFFFFFFF then spad else writeBytes spad im.layoutAddr.toNat (layoutRecord s im as' id) }

/-- The partition of a row's spare (R169). -/
def sparePart (im : Image) (n row : Nat) : BitVec 24 :=
  match spareBank im.mirrors n row with
  | some b => BitVec.ofNat 24 (2 * 4 ^ b)
  | none => 0

/-- Step 3 (R177): a core's configuration registers at reset, its instruction store zero, its sequencer stopped. -/
def clearCore (k : Core) : Core :=
  { k with
    run := .stopped
    part := 0
    psBase := 0
    psSize := 0
    sel := false
    mirrorEn := false
    staticQ := 0
    slots := []
    istore := []
    hasProgram := false
    restoreDue := false
    entry := 0 }

def clearRegion (n : Nat) (s : State) : State :=
  updRegion (forAll (regionCores n) (fun k t => updCore t k clearCore) s) n (fun r =>
    { r with sync := [], waiters := [], recordCheck := 0xFFFFFFFF, programCheck := 0xFFFFFFFF })

/-- Logical cores of an image in a region. -/
def regionIds (im : Image) (n : Nat) : List Nat := (imageCores im).filter (fun id => decide (id / 512 = n))

/-- The bytes of a region's records and DATA, in the order in which they are sent (R179). -/
def recordBytes (s : State) (im : Image) (n : Nat) : List Byte :=
  (im.cores.filter (fun r => decide (r.region = n))).flatMap (fun r =>
      leBytes 2 r.region ++ leBytes 1 r.rowFirst ++ leBytes 1 r.rowLast ++ leBytes 1 r.colFirst ++ leBytes 1 r.colLast ++ leBytes 2 0
        ++ leBytes 4 (r.prog + 2 ^ 18 * r.entry.toNat) ++ leBytes 4 r.part.toNat ++ leBytes 4 r.pstate.toNat
        ++ leBytes 4 r.staticQ.toNat)
    ++ (im.chans.filter (fun c => decide (c.src.toNat / 512 = n))).flatMap (fun c =>
      leBytes 2 c.channel ++ leBytes 1 c.slot ++ leBytes 1 c.kind ++ leBytes 4 c.src.toNat ++ leBytes 4 c.dst.toNat
        ++ leBytes 4 c.maxHops)
    ++ (im.syncs.filter (fun y => decide (y.region = n))).flatMap (fun y =>
      leBytes 2 y.region ++ leBytes 2 y.obj ++ leBytes 4 (y.kind.toNat + 8 * y.init.toNat))
    ++ (im.routes.filter (fun r => decide (r.region = n))).flatMap (fun r =>
      leBytes 4 r.region ++ leBytes 4 r.mesh.toNat ++ leBytes 8 r.chw.toNat)
    ++ (im.mirrors.filter (fun m => decide (m.region = n))).flatMap (fun m =>
      leBytes 2 m.region ++ leBytes 1 m.row ++ leBytes 1 m.bank)
    ++ (im.data.filter (fun d => decide (d.core.toNat / 512 = n))).flatMap (fun d =>
      leBytes 4 d.core.toNat ++ leBytes 4 d.addr ++ leBytes 4 d.off ++ leBytes 4 d.len
        ++ readBytes s.hmem (im.addr.toNat + d.off) d.len)

/-- RGN_MESH_CTL and RGN_CHW_CTL of a region at load (R168). -/
def loadRoute (im : Image) (n : Nat) (r : Region) : Region :=
  let x := im.routes.find? (fun x => decide (x.region = n))
  let mesh : Word := (x.map (·.mesh)).getD 0
  let chw : Word := (x.map (·.chw)).getD 0
  { r with
    w1 := if mesh = 0 then 8 else mesh.extractLsb' 0 5
    w2 := if mesh = 0 then 8 else mesh.extractLsb' 5 5
    chwLimit := if chw = 0 then 0x010000 else chw.extractLsb' 0 24
    chwEn := if chw = 0 then true else chw.getLsbD 24 }

/-- A region's SYNC records (R134, R168). -/
def loadSyncs (im : Image) (n : Nat) (s : State) : State :=
  forAll (im.syncs.filter (fun y => decide (y.region = n))) (fun y t => syncCfgWrite t n y.obj y.kind y.init) s

/-- Step 5 at one region (R168–R171, R177): cores, spares, route values and objects. `as'` is the region whose records they
are. -/
def loadRecords (im : Image) (as' n : Nat) (s : State) : State :=
  let s1 := forAll (regionIds im n) (fun id t => updCore t (carrier t id) (loadCore t im as' id)) s
  let s2 := forAll (List.range 32) (fun row t =>
    if pointOf t n row = 16 then updCore t (coreKey n row 16) (setPart (sparePart im n row)) else t) s1
  updRegion (loadSyncs im n s2) n (fun r =>
    { loadRoute im n r with recordCheck := crcRun r.recordCheck (recordBytes s im n) })

/-! ### Program flits (R178, R179) -/

/-- The flits of a program: 16 words each, with the word at which each begins. -/
def flitWords : Nat → Nat → List Word → List (Nat × List Word)
  | 0, _, _ => []
  | n + 1, first, ws => if ws.isEmpty then [] else (first, ws.take 16) :: flitWords n (first + 16) (ws.drop 16)

/-- The bytes of a program flit; a packet's descriptor flit goes before its first one. -/
def flitBytes (prog first : Nat) (ws : List Word) : List Byte :=
  (if first % 256 = 0 then padTo 64 (leBytes 4 prog ++ leBytes 2 first) else []) ++ padTo 64 (ws.flatMap (fun w => leBytes 4 w.toNat))

/-- Every program flit of an image: program, first word, words. -/
def imageFlits (im : Image) : List (Nat × Nat × List Word) :=
  im.programs.zipIdx.flatMap (fun p => (flitWords p.1.length 0 p.1).map (fun f => (p.2, f.1, f.2)))

/-- PROGRAM_CHECK of an image. -/
def programSum (im : Image) : Word := (imageFlits im).foldl (fun c f => crcRun c (flitBytes f.1 f.2.1 f.2.2)) 0xFFFFFFFF

/-- An image's programs sent to a region, on a multicast group or by unicast. [DESIGN CHOICE: log 114] -/
def sendPrograms (im : Image) (group : Option Nat) (n : Nat) (s : State) : State :=
  { s with ctl := s.ctl ++ (imageFlits im).map (fun f => .program n group f.2.1 f.2.2 f.1) }

/-- PROGRAM_FLIT (R178): the words go into every core whose record names the program. [DESIGN CHOICE: log 114] -/
def execProgramFlit (region : Fin 512) (s : State) : Out := clocked s <|
  let n := region.val
  .next (match takeCtl (fun c => match c with
      | .program r _ first ws prog => if r = n then some (first, ws, prog) else none
      | _ => none) s with
    | none => s
    | some ((first, ws, prog), t) =>
      let im := (t.load.map (·.image)).getD {}
      let mine := (regionIds im n).filter (fun id => (coreRecOf im id).any (fun r => decide (r.prog = prog)))
      updRegion (forAll mine (fun id u => updCore u (carrier u id) (fun k =>
          { k with istore := ws.zipIdx.foldl (fun m w => tset 0 m (first + w.2) w.1) k.istore })) t) n (fun r =>
        { r with programCheck := crcRun r.programCheck (flitBytes prog first ws) }))

/-! ### The multicast tree of a load (R121) -/

/-- The Y-first route from a router to another over usable hops: each router with the direction in which it is left. -/
def directRoute (s : State) (t : Nat) : Nat → Nat → Option (List (Nat × Nat))
  | 0, _ => none
  | n + 1, k =>
    if k = t then some []
    else
      let dir := if meshY k < meshY t then 2 else if meshY t < meshY k then 0 else if meshX k < meshX t then 1 else 3
      if hopOf s k dir ≠ 0 then none
      else (neighbour k dir).bind (fun k' => (directRoute s t n k').map (fun r => (k, dir) :: r))

/-- The service router of a region. -/
def serviceOf (s : State) (n : Nat) : Nat := serviceKey n ((getRegion s n).svcMap.getLsbD n)

/-- The route of a target region from the root that reaches it in the fewest hops, the lower bridge on a tie. -/
def treeRoute (s : State) (g n : Nat) : Option (List (Nat × Nat)) :=
  (List.range 32).foldl (fun best b =>
    if bridgeDown s b then best
    else match directRoute s (serviceOf s n) 2000 (attachKey b (g % 4)), best with
      | some r, some q => if r.length < q.length then some r else some q
      | some r, none => some r
      | none, q => q) none

/-- OUT of the group set along the routes of its targets. -/
def setGroup (g : Nat) (regions : List Nat) (s : State) : State :=
  let put (k bit : Nat) (t : State) : State :=
    updRouter t k (fun r => { r with mcast := tupd 0 r.mcast g (fun w => w ||| (1#5 <<< bit)) })
  forAll regions (fun n t => match treeRoute s g n with
    | none => t
    | some r => put (serviceOf s n) 4 (forAll r (fun h u => put h.1 h.2 u) t)) s

/-- The lowest group of 0 to 62 that no router uses. -/
def freeGroup (s : State) : Nat :=
  ((List.range 63).find? (fun g => s.routers.all (fun r => tget 0 r.2.mcast g = 0))).getD 0

/-! ### The load (R177, R179, R363) -/

/-- RESULT of IMAGE_LOAD. -/
def loadResult (cause off us : Nat) : List Byte := leBytes 1 cause ++ leBytes 3 0 ++ leBytes 4 off ++ leBytes 4 us

/-- A load is refused: counted, logged, and its command completes. -/
def refuseLoad (e j st cause off us : Nat) (s : State) : State :=
  let fn := ((getJob s e j).map jobFn).getD 0
  let u := uHost (if (getFn s fn).port then 1 else 0)
  endJob e j st (loadResult cause off us) (bump (uEngine 12) ceRefused
    (logAt u (mkRec 0x0601 1 u (some fn) noTide [(1, e), (1, cause), (2, 0), (4, off)]) s))

/-- Steps 1 and 3 to 6. [DEDUCED: log 122] -/
def startLoad (e : Nat) (x : Job) (im : Image) (s : State) : State :=
  let g := freeGroup s
  let s1 := forAll (im.stage ++ im.reserve) (fun n t => updRegion t n (fun r =>
    { r with held := true, heldBy := some (Fin.ofNat 8 e) })) (updEngine (forAll (im.stage ++ im.reserve) abandonTest s) e (fun g => { g with state := 1 }))
  let s2 := forAll im.stage (fun n t => loadRecords im n n (clearRegion n t)) s1
  let s3 := forAll im.stage (sendPrograms im (some g)) (setGroup g im.stage s2)
  { s3 with
    load := some
      { eng := e
        ticket := x.ticket
        image := im
        fn := jobFn x
        startUs := nowUs s
        sentUs := nowUs s
        group := g
        expect := im.stage.map (fun n => (n, crcRun 0xFFFFFFFF (recordBytes s im n), programSum im)) } }

/-- An IMAGE_LOAD, with the status of its host read when that failed: loads run one at a time; pass 1 judges, and the load starts. -/
def loadCmd (e j : Nat) (fail : Option Nat) (s : State) : State :=
  if s.load.isSome then s
  else startJob e j 0x10 (fun x t =>
      let a := cmdNat x 8 8
      let len := cmdNat x 0x10 4
      let rd := imageReader t a
      if a % 64 ≠ 0 then endJob e j stRange (loadResult 0 0xFFFFFFFF 0) t
      else if fail.isSome then refuseLoad e j (fail.getD stBad) 16 0xFFFFFFFF 0 t
      else match verdictOf (imageFindings t (jobFn x) (getEngine t e).params.deadline.toNat rd len
          (decide ((imageSum t a len).toNat = rd (len - 4) 4))) with
        | some (st, cause, off) => refuseLoad e j st cause off 0 t
        | none => startLoad e x (resolveImage t a len) t) s

/-- IMAGE_LOAD (R177, R363). -/
def execImageLoad (e : Fin 8) (j : Nat) (err : Bool) (s : State) : Out := clocked s <| .next (loadCmd e.val j (readFail err) s)

/-- A load that has started ends without a bind (R180). -/
def failLoad (l : Load) (st cause : Nat) (s : State) : State :=
  let s1 := dropLoad l.eng s
  match jobAt (getEngine s1 l.eng) l.ticket with
  | none => s1
  | some j => refuseLoad l.eng j st cause 0xFFFFFFFF (nowUs s - l.startUs) s1

/-- A stage region bound to its engine, with every core that carries a program; their next start is clean.
[DEDUCED: log 115] -/
def bindRegion (im : Image) (e n : Nat) (s : State) : State :=
  updRegion (forAll (regionIds im n) (fun id t => updCore t (carrier t id) (fun k =>
      { k with
        engine := some (Fin.ofNat 8 e)
        run := .stopped
        tended := false
        fencedTide := false
        cleanNext := true })) s) n (fun r =>
    { r with
      engine := some (Fin.ofNat 8 e)
      held := false
      heldBy := none
      joinedAt := s.cclk
      rebuilding := 0
      rebuilt := 0
      tdoneSent := false
      cmdSeen := false })

/-- R190, R206: TLAST of a core that joins with no committed state. -/
def noCommit (k : Core) : Core := { k with tlast := noTide }

/-- Step 8: the image is bound, unless a static channel would join engines of different periods (R82). -/
def bindLoad (l : Load) (s : State) : State :=
  let im := l.image
  let s1 := forAll (imageCores im) (fun id t => updCore t (carrier t id) noCommit)
    (forAll im.stage (bindRegion im l.eng) { clearGroup l.group s with load := none })
  let s2 := updEngine s1 l.eng (fun g =>
    { g with
      state := 2
      image := some im
      boundAt := s.cclk
      tide := {}
      auditBase := s.tid
      auditDone := s.tid
      auditRun := none })
  if periodClash s2 l.eng (getEngine s2 l.eng).params.period then failLoad l stRange 7 s
  else
    let s3 := bump (uEngine 12) ceLoads (setRgnEng im.stage (some (Fin.ofNat 8 l.eng)) s2)
    match jobAt (getEngine s3 l.eng) l.ticket with
    | none => s3
    | some j => endJob l.eng j stOk (loadResult 0 0xFFFFFFFF (nowUs s - l.startUs)) s3

/-- R179: the region receives its records and all programs again, by unicast, once; then the load is refused. -/
def resendRegion (l : Load) (n : Nat) (s : State) : State :=
  if l.resent.contains n then failLoad l stTimeout 15 s
  else
    let s1 := { s with ctl := s.ctl.filter (fun c => match c with
      | .program r _ _ _ _ => decide (r ≠ n)
      | _ => true) }
    let u := uHost (if (getFn s l.fn).port then 1 else 0)
    let s2 := bump (uEngine 12) ceResends (logAt u (mkRec 0x0602 1 u (some l.fn) noTide [(1, l.eng), (1, 0), (2, n)]) s1)
    let s3 := sendPrograms l.image none n (loadRecords l.image n n (updRegion s2 n (fun r =>
      { r with recordCheck := 0xFFFFFFFF, programCheck := 0xFFFFFFFF })))
    { s3 with load := some { l with resent := l.resent ++ [n], sentUs := nowUs s } }

/-- Program flits are on their way to a region. -/
def flitsLeft (s : State) (n : Nat) : Bool :=
  s.ctl.any (fun c => match c with
    | .program r _ _ _ _ => decide (r = n)
    | _ => false)

/-- The load waits for a region. -/
def waitsFor (l : Load) (n : Nat) : Bool := l.image.stage.contains n && !l.confirmed.contains n

/-- REGION_CONFIRM (R179): both checks as computed in pass 1; the last confirmation binds the image. -/
def execRegionConfirm (region : Fin 512) (damaged : Bool) (s : State) : Out := clocked s <|
  let n := region.val
  .next (match s.load with
    | none => s
    | some l =>
      let r := getRegion s n
      if !waitsFor l n ∨ flitsLeft s n ∨ regionOffline s n then s
      else if damaged ∨ !l.expect.contains (n, r.recordCheck, r.programCheck) then resendRegion l n s
      else
        let l1 : Load := { l with confirmed := l.confirmed ++ [n] }
        if l.image.stage.all l1.confirmed.contains then bindLoad l1 s else { s with load := some l1 })

/-- CONFIRM_TIMEOUT (R179): 1 ms after the flits were sent. -/
def execConfirmTimeout (region : Fin 512) (s : State) : Out := clocked s <|
  let n := region.val
  .next (match s.load with
    | none => s
    | some l =>
      if !waitsFor l n then s
      else resendRegion l n (clockTo (tcycle s + ((l.sentUs + 1000 - nowUs s) * 12288 + 9) / 10) s))

end Sys2Proof.Machine
end

