-- ==== Sys2Proof/Machine/Slide.lean ====
section
/-! DEFINITION. Machine/Slide.lean: row slides, slides back and the rebuilding of a column (R20, R31, R90, R421–R427, R462). -/

namespace Sys2Proof.Machine

open Sys2Proof

/-- What a core takes over from the core that carried its logical column (R423): instruction store, resident and mirror banks,
configuration and TLAST. [DEDUCED: log 117] -/
def movedCore (src dst : Core) : Core :=
  let kept := tkeep (fun a => partKind src.part.toNat (a / 0x4000) = 0) dst.spad
  let sent := tkeep (fun a => partKind src.part.toNat (a / 0x4000) ≠ 0) src.spad
  { dst with
    istore := src.istore
    spad := sent.foldl (fun m c => mset m c.1 c.2) kept
    part := src.part
    psBase := src.psBase
    psSize := src.psSize
    sel := src.sel
    mirrorEn := src.mirrorEn
    mirrorTide := src.mirrorTide
    mirrorValid := src.mirrorValid
    mirrorGot := none
    slots := src.slots
    staticQ := src.staticQ
    tlast := src.tlast
    engine := src.engine
    hasProgram := src.hasProgram
    entry := src.entry
    restoreDue := src.restoreDue
    rebuildDue := src.rebuildDue }

/-- A core that no longer carries a logical column. -/
def freedCore (k : Core) : Core := { unbindCore k with hasProgram := false, restoreDue := false, rebuildDue := false }

/-- The new content of the carrier of logical column `l` in a slide from point `f` to `g`: moved from the old carrier, or to be
rebuilt when that is excluded (R424, R425). [DEDUCED: log 117] -/
def slideInto (s : State) (n row f l : Nat) (dst : Core) : Core :=
  let key := coreKey n row (carrierCol f l)
  let src := getCore s key
  if excluded s key then
    { dst with engine := src.engine, hasProgram := false, rebuildDue := src.engine.isSome, restoreDue := false }
  else movedCore src dst

/-- The columns that move between two points. -/
def movingCols (f g : Nat) : List Nat := (List.range 16).filter (fun l => decide (carrierCol f l ≠ carrierCol g l))

/-- The content of a row moved from its point to another one (R423, R424). The spare of an unslid row gets the partition of its
MIRROR record (R169, R424). -/
def moveRow (n row g : Nat) (s : State) : State :=
  let f := pointOf s n row
  let s1 := forAll (movingCols f g) (fun l t => updCore t (coreKey n row (carrierCol g l)) (slideInto s n row f l)) s
  let s2 := updCore s1 (coreKey n row g) freedCore
  let lost := (movingCols f g).any (fun l =>
    excluded s (coreKey n row (carrierCol f l)) && (getCore s (coreKey n row (carrierCol f l))).engine.isSome)
  let s3 := if lost then updRegion s2 n (fun r =>
      { r with rebuilding := r.rebuilding ||| (1#32 <<< row), rebuilt := r.rebuilt &&& ~~~(1#32 <<< row) }) else s2
  let im := ((getRegion s n).engine.bind (fun e => (getEngine s e.val).image)).getD {}
  if g = 16 then
    updCore s3 (coreKey n row 16) (fun k =>
      { setPart (sparePart im n row) k with
        psBase := 0
        psSize := 0
        mirrorEn := false
        mirrorTide := 0
        mirrorValid := false
        slots := []
        staticQ := 0 })
  else s3

/-- The test of a row's test slide ends without a verdict (R426). -/
def dropTest (n row : Nat) (s : State) : State :=
  match (getRegion s n).ft with
  | none => s
  | some t =>
    if t.kind = 1 ∧ t.cores.any (fun k => keyRow k = row) then
      abandonTest n s
    else s

/-- R90: what a slid row held at its ejection ports goes to the core that now carries its logical destination. -/
def rehome (n row : Nat) (s : State) : State :=
  { s with
    packets := s.packets.map (fun p => match p.loc with
      | .eject k =>
        if k ∈ rowCores n row ∧ p.sb.kind = 1 ∧ p.purpose ≠ 1 then { p with loc := .eject (carrier s p.sb.dstCore.toNat) } else p
      | _ => p) }

/-- A row slides to a point (R423): with a copy in a bound region, without one else. Every core of the row starts clean.
[DEDUCED: log 116] -/
def slideRow (n row g : Nat) (temp : Bool) (bad : List Nat) (s : State) : State :=
  let f := pointOf s n row
  let bound := (getRegion s n).engine.isSome
  let s1 := if bound then moveRow n row g s else s
  let s2 := rehome n row
    (updRegion s1 n (fun r => { r with slide := tset Slide.init r.slide row { point := BitVec.ofNat 5 g, temp := temp } }))
  let s3 := if bound then forAll (rowCores n row) cleanCore s2 else s2
  let s4 := logRegion n 0x0E04 0 (uRegion n) noTide [(1, row), (1, f), (1, g), (1, if temp then 1 else 0)] s3
  forAll (if bound then bad else []) (fun c t => fenceCore (coreKey n row c) t) s4

/-- R422, R426: a row of the region may slide now: at once when the region is unbound, else in the guard of its engine, after
the command and the mirror copies. [DEDUCED: log 116] -/
def maySlide (s : State) (n : Nat) : Bool :=
  match (getRegion s n).engine with
  | none => true
  | some e =>
    let g := getEngine s e.val
    g.tide.active && g.tide.guard && (getRegion s n).cmdSeen && !regionOffline s n && !(g.reloc.any (fun r => r.lost = n))
      && s.cores.all (fun c => decide (keyRegion c.1 ≠ n) || c.2.mirrorGot.isNone)

/-- The point to which a row with one excluded core has to slide, if it has to (R421, R422, R426). -/
def slideTarget (s : State) (n row : Nat) : Option Nat :=
  match excludedIn s n row with
  | [k] => if keyCol k = pointOf s n row then none else some (keyCol k)
  | _ => none

/-- ROW_SLIDE (R422–R427): a fault slide or a re-slide. A row with a second excluded core in an unbound region makes the region
FENCED. -/
def execRowSlide (region : Fin 512) (row : Fin 32) (bad : List (Fin 17)) (s : State) : Out := clocked s <|
  let n := region.val
  .next (if 2 ≤ (excludedIn s n row.val).length then
      (if (getRegion s n).engine.isNone ∧ !regionOffline s n then takeOffline n 0 s else s)
    else match slideTarget s n row.val with
      | none => s
      | some g =>
        if !maySlide s n ∨ (pointOf s n row.val = 16 ∧ g = 16) then s
        else bump (uRegion n) rSlides (slideRow n row.val g false (bad.map (·.val)) (dropTest n row.val s)))

/-- A test slide of the row still needs its point: its test runs. -/
def testStands (s : State) (n row : Nat) : Bool :=
  (getRegion s n).ft.any (fun t => decide (t.kind = 1) && t.verdicts.isEmpty && t.cores.any (fun k => decide (keyRow k = row)))

/-- R426: the row may return to POINT 16: no core of it is excluded, and no test needs its point. -/
def slidesBack (s : State) (n row : Nat) : Bool :=
  decide (pointOf s n row ≠ 16) && (excludedIn s n row).isEmpty && !testStands s n row && maySlide s n

/-- A row returns to POINT 16 when it may. -/
def slideBack (n row : Nat) (bad : List Nat) (s : State) : State :=
  if slidesBack s n row then
    let s1 := bump (uRegion n) rSlideBacks (slideRow n row 16 false bad s)
    updRegion s1 n (fun r =>
      { r with ft := r.ft.filter (fun t => decide (t.kind ≠ 1) || !t.cores.any (fun k => decide (keyRow k = row))) })
  else s

/-- SLIDE_BACK (R426). -/
def execSlideBack (region : Fin 512) (row : Fin 32) (bad : List (Fin 17)) (s : State) : Out := clocked s <|
  .next (slideBack region.val row.val (bad.map (·.val)) s)

/-- Steps 1 to 3 of R425 at one core: cleared, loaded from the retained image, its persistent state restored. -/
def rebuildCore (e n key : Nat) (bad : BitVec 3) (s : State) : State :=
  match logicalId s key, (getEngine s e).image with
  | some id, some im =>
    let s1 := updCore s key (fun k =>
      let k1 := loadCore s im n id { k with spad := [], mirrorTide := 0, mirrorValid := false, mirrorGot := none }
      { k1 with
        istore := imageProgram im id
        rebuildDue := false
        cleanNext := true })
    let s2 := restoreCore e key id (mirrorHolder s id) (fun i => bad.getLsbD i) s1
    updEngine s2 e (fun g => { g with pins := g.pins.map (fun p =>
      if p.core.toNat = id then { p with pinned := false, fetch := 1, holed := false } else p) })
  | _, _ => s

/-- ROW_REBUILD (R425): the row is held until its pins have been fetched. [DEDUCED: log 119] -/
def execRowRebuild (region : Fin 512) (row : Fin 32) (bad : BitVec 3) (s : State) : Out := clocked s <|
  let n := region.val
  .next (match (getRegion s n).engine with
    | none => s
    | some e =>
      let r := getRegion s n
      if !r.rebuilding.getLsbD row.val ∨ r.rebuilt.getLsbD row.val then s
      else
        let keys := (rowCores n row.val).filter (fun k => (getCore s k).rebuildDue)
        settlePins e.val (updRegion (forAll keys (fun k t => rebuildCore e.val n k bad t) s) n (fun r =>
          { r with rebuilt := r.rebuilt ||| (1#32 <<< row.val) })))

end Sys2Proof.Machine
end

