-- ==== Sys2Proof/Machine/Reloc.lean ====
section
/-! DEFINITION. Machine/Reloc.lean: the relocation of a stage to a reserve region (R150, R180, R300, R428–R436, R438). -/

namespace Sys2Proof.Machine

open Sys2Proof

/-- Grid distance of two regions (R429). -/
def gridDistance (a b : Nat) : Nat :=
  (regionCol a - regionCol b) + (regionCol b - regionCol a) + ((regionRow a - regionRow b) + (regionRow b - regionRow a))

/-- A reserve that may be chosen (R429). -/
def reserveUsable (s : State) (n : Nat) : Bool := usable s (uRegion n) && !regionOffline s n && !(getRegion s n).awaitsRejoin

/-- The reserve for a lost region: the nearest usable one not tried yet, the lowest number on a tie. [DEDUCED: log 120] -/
def chooseReserve (s : State) (e lost : Nat) : Option Nat :=
  let g := getEngine s e
  let cs := ((g.image.map (·.reserve)).getD []).filter (fun n => reserveUsable s n && !g.triedReserves.contains n)
  (sortBy (fun a b => decide (gridDistance lost a < gridDistance lost b ∨ (gridDistance lost a = gridDistance lost b ∧ a ≤ b))) cs).head?

/-- A region or core id of an image with the reserve in place of the lost region. -/
def moveRegion (lost dest n : Nat) : Nat := if n = lost then dest else n
def moveId (lost dest : Nat) (id : BitVec 18) : BitVec 18 := BitVec.ofNat 18 (512 * moveRegion lost dest (id.toNat / 512) + id.toNat % 512)

/-- The image with the reserve in place of the lost region (R431). -/
def movedImage (s : State) (im : Image) (lost dest : Nat) : Image :=
  let mv := moveRegion lost dest
  { im with
    stage := im.stage.map mv
    reserve := im.reserve.filter (fun n => decide (n ≠ dest))
    groups := im.groups.map (fun g => g.map mv)
    cores := im.cores.map (fun r => { r with region := mv r.region })
    chans := im.chans.map (fun c =>
      let local' := decide (c.kind = 1) && decide (c.dst.toNat / 2 ^ 18 % 16 = ownModule s)
      { c with
        src := moveId lost dest c.src
        dst := if local' then
            (BitVec.ofNat 25 (c.dst.toNat / 2 ^ 18 * 2 ^ 18 + (moveId lost dest (c.dst.setWidth 18)).toNat)) else c.dst })
    syncs := im.syncs.map (fun y => { y with region := mv y.region })
    routes := im.routes.map (fun r => { r with region := mv r.region })
    mirrors := im.mirrors.map (fun m => { m with region := mv m.region })
    data := im.data.map (fun d => { d with core := moveId lost dest d.core })
    shores := im.shores.map (fun x => { x with core := moveId lost dest x.core }) }

/-- Phase 3: records, programs and DATA of the reserve. [DESIGN CHOICE: log 118] -/
def relocRecords (im : Image) (dest : Nat) (s : State) : State :=
  forAll (regionIds im dest) (fun id t => updCore t (carrier t id) (fun k => { noCommit k with istore := imageProgram im id }))
    (loadRecords im dest dest s)

/-- Phase 4: RGN_RELOC without chains, HB_RGN_ENG, stream maps and pins (R300, R368, R430). A failed attempt's reserve gives way
to the new one. -/
def redirect (e lost dest : Nat) (s : State) : State :=
  let old := lost :: (getEngine s e).triedReserves
  let mv (n : Nat) : Nat := if old.contains n then dest else n
  let t1 : State :=
    { s with
      reloc := tset none (s.reloc.map (fun x => (x.1, x.2.map mv))) lost (some dest)
      streams := s.streams.map (fun x => (x.1, x.2.map (fun y =>
        if y.inEng = e ∨ y.outEng = e then { y with map := y.map.map (fun m => (mv m.1, m.2.1, m.2.2)) } else y))) }
  let t2 := updEngine t1 e (fun g => { g with pins := g.pins.map (fun p =>
    { p with core := BitVec.ofNat 18 (512 * mv (p.core.toNat / 512) + p.core.toNat % 512) }) })
  setRgnEng [dest] (some (Fin.ofNat 8 e)) (setRgnEng old none t2)

/-- Moved state (R432): half A holds the committed half of the lost core, with its TLAST. -/
def putMoved (data : List Byte) (tide : Word) (k : Core) : Core :=
  { k with
    spad := writeBytes k.spad (halfBase k false) (padTo (halfSize k) data)
    sel := false
    tlast := tide
    cleanNext := true }

/-- Phase 5 on one core: moved when it is live in a region that is not offline, else restored (R432). [DEDUCED: log 121] -/
def relocState (e lost dest : Nat) (bad : List (BitVec 18 × Fin 3)) (id : Nat) (s : State) : State :=
  let src := carrier s id
  let dst := carrier s (512 * dest + id % 512)
  let gone := regionOffline s lost
  if !gone ∧ !excluded s src then
    updCore s dst (putMoved (committedHalf (getCore s src)) (getCore s src).tlast)
  else
    let holder := if gone then none else mirrorHolder s id
    updEngine (restoreCore e dst id holder (fun i => bad.any (fun b => decide (b.1.toNat = id) && decide (b.2.val = i))) s) e
      (fun g => { g with reloc := g.reloc.map (fun r => { r with restored := r.restored ++ [id] }) })

/-- Phase 6 begins: every pin of the region is to be fetched again. -/
def relocPins (e dest : Nat) (s : State) : State :=
  updEngine s e (fun g => { g with pins := g.pins.map (fun p =>
    if p.core.toNat / 512 = dest then { p with pinned := false, fetch := 1, holed := false } else p) })

/-- Phase 7 (R431): the reserve is a stage region from 8,192 cycles on; the lost region is unbound, and FENCED when it has a row
with two excluded cores (R427). -/
def relocJoin (e lost dest : Nat) (im : Image) (s : State) : State :=
  let host := uHost (if (getFn s (getEngine s e).owner.toNat).port then 1 else 0)
  let s1 := updRegion (bindRegion im e dest s) dest (fun r => { r with joinedAt := s.cclk + 8192 })
  let s2 := forAll (regionCoresOf s1 lost e) (fun k t => updCore t k freedCore) s1
  let s3 := updRegion s2 lost (fun r => { r with engine := none, rebuilding := 0, rebuilt := 0, tdoneSent := false, cmdSeen := false })
  let s4 := updEngine s3 e (fun g => { g with image := some im, reloc := none, triedReserves := [] })
  let s5 := if twoExcluded s4 lost ∧ !regionOffline s4 lost then takeOffline lost 0 s4 else s4
  bump (uEngine e) eRelocDone (logAt host (mkRec 0x0E05 1 (uRegion lost) (some (getEngine s e).owner.toNat) (getEngine s e).tide.num
    [(1, e), (1, 0), (2, lost), (2, dest)]) s5)

/-- R434: an attempt fails, and the relocation starts again on the next reserve. [DEDUCED: log 120] -/
def relocFail (e : Nat) (r : Reloc) (s : State) : State :=
  let host := uHost (if (getFn s (getEngine s e).owner.toNat).port then 1 else 0)
  bump (uEngine e) eRelocFail (logAt host (mkRec 0x0E06 2 (uRegion r.lost) (some (getEngine s e).owner.toNat) (getEngine s e).tide.num
      [(1, e), (1, 0), (2, r.lost), (2, r.reserve)])
    (updEngine s e (fun g =>
      { g with
        triedReserves := g.triedReserves ++ [r.reserve]
        reloc := some { lost := r.lost, reserve := 512, startUs := nowUs s, phase := 0 } })))

/-- The relocation of an engine passes to another phase. -/
def relocPhase (e k : Nat) (s : State) : State :=
  updEngine s e (fun g => { g with reloc := g.reloc.map (fun r => { r with phase := k }) })

/-- Phase 1 (R429, R434): the reserve is chosen; a test in either region is abandoned. -/
def relocChoose (e : Nat) (r : Reloc) (s : State) : State :=
  match chooseReserve s e r.lost with
  | none => faultEngine e stRemap s
  | some n =>
    updEngine (abandonTest n (abandonTest r.lost s)) e (fun g => { g with reloc := some { r with reserve := n, phase := 1 } })

/-- R180: the retained image is as it was when it was loaded. [DEDUCED: log 119] -/
def imageKept (s : State) (im : Image) : Bool :=
  imageSum s im.addr.toNat im.len = im.check && decide (readNat s.hmem (im.addr.toNat + im.len - 4) 4 = im.check.toNat)

/-- RELOCATION (R431): the next phase. [DESIGN CHOICE: log 118] -/
def execRelocation (e : Fin 8) (confirmed : Bool) (bad : List (BitVec 18 × Fin 3)) (s : State) : Out := clocked s <|
  let g := getEngine s e.val
  .next (match g.reloc, g.image with
    | some r, some im =>
      let moved := movedImage s im r.lost r.reserve
      if r.phase = 0 then relocChoose e.val r s
      else if !reserveUsable s r.reserve then relocFail e.val r s
      else match r.phase with
        | 1 => relocPhase e.val 2 (clearRegion r.reserve s)
        | 2 =>
          if !imageKept s im then faultEngine e.val stRemap s
          else if !confirmed then relocFail e.val r s
          else relocPhase e.val 3 (relocRecords moved r.reserve s)
        | 3 => relocPhase e.val 4 (redirect e.val r.lost r.reserve s)
        | 4 => relocPhase e.val 5 (forAll (regionIds im r.lost) (relocState e.val r.lost r.reserve bad) s)
        | 5 => relocPhase e.val 6 (relocPins e.val r.reserve s)
        | _ =>
          if g.pins.any (fun p => decide (p.fetch ≠ 0) && decide (p.core.toNat / 512 = r.reserve)) then s
          else relocJoin e.val r.lost r.reserve moved s
    | _, _ => s)

/-- RELOC_TIMEOUT (R434): 12 ms after the attempt began. -/
def execRelocTimeout (e : Fin 8) (s : State) : Out := clocked s <|
  .next (match (getEngine s e.val).reloc with
    | none => s
    | some r =>
      if r.phase = 0 then s
      else relocFail e.val r (clockTo (tcycle s + ((r.startUs + 12000 - nowUs s) * 12288 + 9) / 10) s))

end Sys2Proof.Machine
end

