-- ==== Sys2Proof/Machine/FieldTest.lean ====
section
/-! DEFINITION. Machine/FieldTest.lean: the in-field test: due times, the kinds of test, verdicts, starved rows and drop windows
(R459–R468). -/

namespace Sys2Proof.Machine

open Sys2Proof

/-! ### Due times (R459) -/

/-- TID_TIME of an hour. -/
def hourTid : Nat := 88473600000

/-- FT_CTL.INTERVAL on TID_TIME. -/
def intervalTid (s : State) : Nat := s.up.interval.toNat * 1474560000

/-- The physical index of a core in its region. -/
def physIndex (k : Nat) : Nat := 17 * keyRow k + keyCol k

/-- The due time of a core by its last pass, or by READY. -/
def regularDue (s : State) (k : Nat) : Nat :=
  match tget none s.up.lastPass k with
  | some t => t.toNat + intervalTid s
  | none => s.up.readyTid.toNat + intervalTid s * (physIndex k + 1) / 544

/-- The due time of a core. [DEDUCED: log 125] -/
def dueTime (s : State) (k : Nat) : Nat :=
  match s.up.dueNow.find? (fun x => x.1 = k) with
  | some x => min x.2.toNat (regularDue s k)
  | none => regularDue s k

/-- TID_TIME by which a core is overdue (R465); an excluded core has no due time. -/
def overdueBy (s : State) (k : Nat) : Nat :=
  if !s.up.ready ∨ excluded s k then 0 else s.tid.toNat - dueTime s k

/-! ### Kinds of test (R461) -/

/-- A running load holds the region (R177). -/
def loadHolds (s : State) (n : Nat) : Bool := s.load.any (fun l => (l.image.stage ++ l.image.reserve).contains n)

/-- The region runs no test and may start one. [DEDUCED: log 123] -/
def mayTest (s : State) (n : Nat) : Bool :=
  s.up.ready && (getRegion s n).ft.isNone && !regionOffline s n && !loadHolds s n && !s.dbg.coreSib.getLsbD n
    && !(getRegion s n).scrubBusy && (match (getRegion s n).engine with
      | some e => !(getEngine s e.val).reloc.any (fun r => r.lost = n)
      | none => true)

/-- The kind of test that the situation of a core allows: 0 direct, 1 test slide, 2 spare test; none while deferred. A row with an
excluded core has no free spare to test with. [DEDUCED: log 123, 124] -/
def testKind (s : State) (k : Nat) : Option Nat :=
  let n := keyRegion k
  if excluded s k then none
  else if (getRegion s n).engine.isNone then some 0
  else if pointOf s n (keyRow k) ≠ 16 ∨ !(excludedIn s n (keyRow k)).isEmpty then none
  else if keyCol k = 16 then some 2 else some 1

/-- The core of a region with the earliest due time among those that may start a test of a kind; the lower index on a tie. -/
def earliest (s : State) (n kind : Nat) : Option Nat :=
  ((regionCores n).filter (fun k => decide (testKind s k = some kind))).foldl (fun b k =>
    match b with
    | none => some k
    | some j => if dueTime s k < dueTime s j then some k else b) none

/-- The due core of a region that starts a test of a kind now. -/
def dueCore (s : State) (n kind : Nat) : Option Nat :=
  if mayTest s n then (earliest s n kind).filter (fun k => decide (dueTime s k ≤ s.tid.toNat)) else none

/-! ### Starting a test (R460, R462, R464, R466) -/

/-- A table whose entries at `0` up to `n` are free values of a kind of storage (log 22). [DEDUCED: log 22] -/
def freeTable (k now kind n : Nat) (skip : Nat → Bool) : Tbl Word :=
  (List.range n).filterMap (fun i =>
    if skip i ∨ Config.tested k now kind i = 0 then none else some (i, Config.tested k now kind i))

/-- A core that the tester has taken: stopped, in TARGET mode, and what it held lost. [DEDUCED: log 126] -/
def takeCore (key now : Nat) (k : Core) : Core :=
  { k with
    sreg := freeTable key now 0 32 (fun i => i = 0)
    areg := freeTable key now 1 8 (fun _ => false)
    vreg := freeTable key now 2 512 (fun _ => false)
    preg := freeTable key now 3 8 (fun i => i = 0)
    tile := freeTable key now 4 1024 (fun _ => false)
    istore := freeTable key now 5 4096 (fun _ => false)
    spad := (List.range 0x30000).filterMap (fun i =>
      if (Config.tested key now 6 i).setWidth 8 = 0#8 then none else some (i, (Config.tested key now 6 i).setWidth 8))
    run := .stopped
    loop0 := none
    loop1 := none
    landing := []
    testMode := .target
    underTest := true
    mirrorValid := false }

/-- A test of a kind starts on cores of a region. -/
def startTest (n kind : Nat) (keys : List Nat) (s : State) : State :=
  let tide := ((getRegion s n).engine.map (fun e => (getEngine s e.val).tide.num)).getD noTide
  let now := tcycle s
  updRegion (forAll keys (fun k t => updCore t k (takeCore k s.cclk)) s) n (fun r =>
    { r with ft := some { kind := kind, cores := keys, tide := tide, since := now } })

/-! ### Starved rows and drop windows (R465–R467) -/

/-- Cores of a slid row of a bound region that are overdue by at least `h` hours. -/
def overdueCores (s : State) (n row h : Nat) : List Nat :=
  if (getRegion s n).engine.isSome ∧ pointOf s n row ≠ 16 then
    (rowCores n row).filter (fun k => decide (0 < overdueBy s k) && decide (h * hourTid ≤ overdueBy s k))
  else []

/-- A row stays starved while one of its cores is overdue by 48 h; a grant that it holds is dropped with it. -/
def stillStarved (s : State) (x : Nat × Nat × Bool) : Bool := !(overdueCores s x.1 x.2.1 48).isEmpty

/-- The starved rows as they stand. -/
def starvedRows (s : State) : List (Nat × Nat × Bool) := s.lh.starved.filter (stillStarved s)

/-- The core of a list that has been overdue longest. -/
def mostOverdue (s : State) (ks : List Nat) : Option Nat :=
  ks.foldl (fun b k => match b with
    | none => some k
    | some j => if overdueBy s j < overdueBy s k then some k else b) none

/-- R466: the overdue cores of the row whose logical columns have the parity of the most overdue core's. -/
def windowSet (s : State) (n row : Nat) : List Nat :=
  let ks := (overdueCores s n row 0).filter (fun k => (logicalId s k).isSome)
  let par (k : Nat) : Nat := ((logicalId s k).getD 0) % 2
  match mostOverdue s ks with
  | none => []
  | some m => ks.filter (fun k => decide (par k = par m))

/-- A granted row of the region. -/
def grantedRow (s : State) (n : Nat) : Option Nat := ((starvedRows s).find? (fun x => decide (x.1 = n) && x.2.2)).map (·.2.1)

/-- R466: the drop window of a granted row starts in a guard, after the mirror copies. The grant is used, and the row stays starved
while R465 says so. -/
def startWindow (n row : Nat) (s : State) : State :=
  let s1 := updLh s (fun l => { l with starved := (starvedRows s).map (fun x => if x = (n, row, true) then (n, row, false) else x) })
  bump (uRegion n) rFtDropwin (startTest n 3 (windowSet s n row) s1)

/-- FT_DUE (R459–R461, R466): a due core of an unbound region starts its direct test; the drop window of a granted row starts in a
guard. [DEDUCED: log 127] -/
def execFtDue (region : Fin 512) (s : State) : Out := clocked s <|
  let n := region.val
  let s0 := settleTest n s
  .next (match (getRegion s0 n).engine with
    | none =>
      if !mayTest s0 n then s0
      else
        let s1 := match earliest s0 n 0 with
          | some k => clockTo (50 * dueTime s0 k) s0
          | none => s0
        (match dueCore s1 n 0 with
          | some k => startTest n 0 [k] s1
          | none => s1)
    | some _ =>
      match grantedRow s0 n with
      | some row => if mayTest s0 n && maySlide s0 n then startWindow n row s0 else s0
      | none => s0)

/-- TEST_SLIDE (R462): in a guard, a row slides to the due core's column with TEMP 1, and the test of the core begins. -/
def execTestSlide (region : Fin 512) (bad : List (Fin 17)) (s : State) : Out := clocked s <|
  let n := region.val
  .next (match dueCore s n 1 with
    | none => s
    | some k =>
      if (getRegion s n).engine.isNone ∨ !maySlide s n then s
      else startTest n 1 [k] (slideRow n (keyRow k) (keyCol k) true (bad.map (·.val)) s))

/-- SPARE_TEST (R464): from the first tide start after it fell due. [DEDUCED: log 127] -/
def execSpareTest (region : Fin 512) (s : State) : Out := clocked s <|
  let n := region.val
  .next (match (getRegion s n).engine, dueCore s n 2 with
    | some e, some k =>
      let g := getEngine s e.val
      if g.tide.active ∧ !g.tide.guard ∧ dueTime s k ≤ g.tide.start.toNat then startTest n 2 [k] s else s
    | _, _ => s)

/-! ### Verdicts (R460, R462–R466) -/

/-- A core that has passed becomes due again after INTERVAL. -/
def notePass (k : Nat) (s : State) : State :=
  let up : BringUp :=
    { s.up with
      lastPass := tset none s.up.lastPass k (some s.tid)
      dueNow := s.up.dueNow.filter (fun x => decide (x.1 ≠ k)) }
  let s1 : State := { s with up := up }
  updLh s1 (fun l => { l with overdue := l.overdue.filter (fun x => decide (x ≠ k)), starved := starvedRows s1 })

/-- R467: the region returns to IN_SERVICE when none of its cores is overdue by 72 h and each that was has passed a test. -/
def settleOverdue (n : Nat) (had : Bool) (s : State) : State :=
  let late := (regionCores n).any (fun k => decide (0 < overdueBy s k) && decide (72 * hourTid ≤ overdueBy s k))
  if lhRuns s ∧ had ∧ !late ∧ !s.lh.overdue.any (fun k => decide (keyRegion k = n)) ∧ (getUnit s (uRegion n)).map = 1 then
    lhSet (uRegion n) 0 s
  else s

/-- R416: a SUSPECT core that has passed a test is IN_SERVICE again. [DEDUCED: log 130] -/
def clearSuspect (k : Nat) (s : State) : State :=
  if lhRuns s ∧ (getUnit s (uCore k)).map = 1 then lhSet (uCore k) 0 s else s

/-- What a verdict brings, by the kind of test. [DEDUCED: log 129] -/
def takeVerdict (n k : Nat) (pass : Bool) (t : FieldTest) (s : State) : State :=
  let r := getRegion s n
  let t1 : FieldTest := { t with verdicts := t.verdicts ++ [(k, pass)] }
  match t.kind with
  | 1 =>
    let s1 := settleTest n (updCore (updRegion s n (fun r => { r with ft := some t1 })) k endTarget)
    if pass ∧ r.engine.isNone then slideBack n (keyRow k) [] s1 else s1
  | 2 =>
    let im := (r.engine.bind (fun e => (getEngine s e.val).image)).getD {}
    let s1 := updCore (updRegion s n (fun r => { r with ft := none })) k endTarget
    if pass ∧ r.engine.isSome then updCore s1 k (setPart (sparePart im n (keyRow k))) else s1
  | 3 => settleTest n (updRegion s n (fun r => { r with ft := some t1 }))
  | _ => updCore (updRegion s n (fun r => { r with ft := none })) k endTarget

/-- R462: the guard of tide t + 3 has opened. -/
def testExpired (s : State) (n : Nat) (t : FieldTest) : Bool :=
  match (getRegion s n).engine with
  | none => false
  | some e =>
    let g := getEngine s e.val
    let d := (g.tide.num - t.tide).toNat
    decide (t.kind = 1) && t.verdicts.isEmpty && decide (d < 2 ^ 31) && (decide (3 < d) || (decide (d = 3) && g.tide.guard))

/-- FT_VERDICT (R460): the judgement of a test, with the tie-break scan that follows a FAIL at once.
[DEDUCED: log 128; DESIGN CHOICE: log 195] -/
def execFtVerdict (c : CoreRef) (fail : Option (Fin 8 × Fin 2 × Bool)) (s : State) : Out := clocked s <|
  let n := c.region.val
  let k := c.key
  .next (match (getRegion s n).ft with
    | none => s
    | some t =>
      if !t.cores.contains k ∨ t.verdicts.any (fun v => v.1 = k) ∨ testExpired s n t then s
      else match fail with
        | none =>
          let had := s.lh.overdue.contains k
          let s1 := clockTo (t.since + 8650752) s
          settleOverdue n had (takeVerdict n k true t (clearSuspect k (notePass k (bump (uRegion n) rFtPass s1))))
        | some (sect, seed, scan) =>
          let had := s.lh.overdue.contains k
          let s1 := logRegion n 0x0F03 2 (uCore k) noTide
            [(4, (coreIdOf s k).toNat + 2 ^ 18 * ownModule s), (1, sect.val), (1, seed.val), (1, if scan then 1 else 0)] s
          if scan then
            settleOverdue n had (takeVerdict n k true t
              (clearSuspect k (notePass k (bump (uRegion n) rFtPass (bump (uRegion n) rFtOverruled s1)))))
          else takeVerdict n k false t (fenceCore k (bump (uRegion n) rFtFail s1)))

/-- FT_ABANDON (R462): a test slide without a verdict when the guard of tide t + 3 opens; the row slides back in that guard. -/
def execFtAbandon (region : Fin 512) (bad : List (Fin 17)) (s : State) : Out := clocked s <|
  let n := region.val
  .next (match (getRegion s n).ft with
    | none => s
    | some t =>
      if testExpired s n t && maySlide s n then
        forAll (t.cores.map keyRow) (fun row u => slideBack n row (bad.map (·.val)) u) (abandonTest n s)
      else s)

/-! ### Starvation and grants (R465–R467) -/

/-- The clock moves on to the time at which the earliest of some cores is overdue by `h` hours. -/
def untilOverdue (h : Nat) (ks : List Nat) (s : State) : State :=
  match (ks.filter (fun k => !excluded s k)).map (dueTime s) with
  | [] => s
  | d :: ds => if s.up.ready then clockTo (50 * (ds.foldl min d + h * hourTid)) s else s

/-- TEST_STARVED (R465). -/
def execTestStarved (region : Fin 512) (row : Fin 32) (s : State) : Out := clocked s <|
  let n := region.val
  .next (if (getRegion s n).engine.isNone ∨ pointOf s n row.val = 16 ∨ !lhRuns s then s
    else
      let s1 := untilOverdue 48 (rowCores n row.val) s
      let s2 := updLh s1 (fun l => { l with starved := starvedRows s1 })
      let late := overdueCores s2 n row.val 48
      if late.isEmpty ∨ s2.lh.starved.any (fun x => decide (x.1 = n) && decide (x.2.1 = row.val)) then s2
      else
        let hours := ((mostOverdue s2 late).map (fun k => overdueBy s2 k / hourTid)).getD 0
        setEvent 0 6 (logAt uLighthouse (mkRec 0x0F04 1 (uRegion n) (ownerOf s2 n) noTide [(1, row.val), (1, min hours 255)])
          (updLh s2 (fun l => { l with starved := l.starved ++ [(n, row.val, false)] }))))

/-- FT_GRANT (R466): GO grants a drop window to a starved row without a grant; any other GO is counted. -/
def execFtGrant (v : BitVec 32) (s : State) : Out := clocked s <|
  let n := (v.extractLsb' 0 9).toNat
  let row := (v.extractLsb' 9 5).toNat
  .next (if !barOpen s 0 ∨ !v.getLsbD 14 then s
    else if (starvedRows s).any (fun x => decide (x = (n, row, false))) then
      logRegion n 0x0F05 0 (uRegion n) noTide [(1, row), (1, (windowSet s n row).length)]
        (updLh s (fun l => { l with starved := (starvedRows s).map (fun x => if x = (n, row, false) then (n, row, true) else x) }))
    else bump (uRegion n) rFtGrantRefused s)

/-- OVERDUE_SUSPECT (R467). -/
def execOverdueSuspect (region : Fin 512) (s : State) : Out := clocked s <|
  let n := region.val
  let slid := (List.range 32).filter (fun r => decide (pointOf s n r ≠ 16))
  .next (if (getRegion s n).engine.isNone ∨ slid.isEmpty ∨ !lhRuns s then s
    else
      let s1 := untilOverdue 72 (slid.flatMap (rowCores n)) s
      let late := slid.flatMap (fun r => overdueCores s1 n r 72)
      if late.isEmpty then s1
      else
        lhSuspect (uRegion n) (updLh s1 (fun l =>
          { l with
            overdue := l.overdue ++ late.filter (fun k => !l.overdue.contains k) })))

/-- FT_CTL_WRITE (R459, R545): a change of INTERVAL recomputes every due time from the last pass. [DEDUCED: log 125] -/
def execFtCtlWrite (v : BitVec 32) (s : State) : Out := clocked s <|
  let i := v.extractLsb' 0 11
  let up : BringUp :=
    { s.up with
      interval := i
      dueNow := if i = s.up.interval then s.up.dueNow else [] }
  let s1 : State := { s with up := up }
  .next (if barOpen s 0 ∧ 60 ≤ i.toNat ∧ i.toNat ≤ 1440 then updLh s1 (fun l => { l with starved := starvedRows s1 }) else s)

end Sys2Proof.Machine
end

