-- ==== Sys2Proof/Machine/Power.lean ====
section
/-! DEFINITION. Machine/Power.lean: supplies, regulators, clocks, throttle levels, trips and faults (R498–R523). -/

namespace Sys2Proof.Machine

open Sys2Proof

/-- The log's name of the module as a whole (R522). -/
def wholeModule : Nat := 0xFFFFFFFF

/-- The filtered or replaced value of a sensor for a record; 0 before the first sample. -/
def sensedWord (s : State) (id : Nat) : Nat := ((sensed s id).getD 0).toNat

/-- Lighthouse's firmware runs, whether or not R477 is complete. -/
def lhUp (s : State) : Bool := decide (s.lh.stage = 2 ∨ s.lh.stage = 3)

def updPower (s : State) (f : Power → Power) : State := { s with power := f s.power }

/-! ### What the loss of power takes (R500, R503, R515, R517) -/

/-- A unit of a Harbour, or Lighthouse: it keeps its power. -/
def offWafer (u : Nat) : Bool := decide (7 ≤ unitClass u ∧ unitClass u ≤ 9) || decide (u = uLighthouse)

/-- The wafer and the bridges without power: nothing of their state is kept, and the administration block stands at its reset
values (R500, R553). Harbours, Lighthouse, host memory and the seawall nodes keep theirs. [DEDUCED: log 133, 188] -/
def loseWafer (s : State) : State :=
  let cnt : Counters :=
    { live := tkeep (fun k => offWafer (k / 65536)) s.cnt.live
      frozen := tkeep offWafer s.cnt.frozen
      shadow := tkeep (fun k => offWafer (k / 65536)) s.cnt.shadow
      snap := tkeep (fun k => offWafer (k / 4)) s.cnt.snap
      staged := tkeep (fun k => offWafer (k / 4)) s.cnt.staged
      out := tkeep (fun k => offWafer (k / 4)) s.cnt.out }
  let power : Power := { s.power with capKw := 23, capEn := true, cap := 0, capQuiet := 0 }
  { State.reset with
    pending := s.pending
    cclk := s.cclk
    serial := s.serial
    packets := s.packets.filter (fun p => match p.loc with
      | .far _ => true
      | _ => false)
    hmem := s.hmem
    hchans := s.hchans
    harbours := s.harbours
    sensors := tkeep (fun id => decide (id / 4096 = 1 ∨ 7 ≤ id / 4096)) s.sensors
    nodes := s.nodes
    lh := s.lh
    dbg := { trst := s.dbg.trst, stubIr := s.dbg.stubIr }
    logq := tkeep offWafer s.logq
    health := tkeep offWafer s.health
    cnt := cnt
    power := power
    up := { phase := 2 } }

/-- What a region loses without its supply: its cores, and what its controller holds; its segment leaves the IJTAG network (R531).
Its binding and its owner record stand in the engines and the Configuration Engine (log 24). [DEDUCED: log 24] -/
def darkRegion (n : Nat) (s : State) : State :=
  let off (w : BitVec 512) : BitVec 512 := w &&& ~~~(1#512 <<< n)
  let dbg : Debug := { s.dbg with seg := off s.dbg.seg, ctlSib := off s.dbg.ctlSib, coreSib := off s.dbg.coreSib }
  let s1 := forAll (regionCores n) (fun k t => updCore t k (fun _ => {})) { s with dbg := dbg }
  updRegion s1 n (fun r =>
    { r with
      powered := false
      pg := false
      slide := []
      scrubSeed := 0
      scrubBusy := false
      scrubPass := false
      scrubDone := false
      scrubCoresOk := 0
      scrubSig := 0
      chwLimit := 0x010000
      chwEn := true
      chwFired := false
      w1 := 8
      w2 := 8
      sync := []
      waiters := []
      rebuilding := 0
      rebuilt := 0
      tl := 0
      quiet := 0
      lvl := 0
      overA := 0
      clean := false })

/-- A region is powered down: fenced, offline, and dark (R503, R515, R517). [DEDUCED: log 24, 135] -/
def powerDown (n : Nat) (s : State) : State :=
  if (getRegion s n).powered then darkRegion n (if regionOffline s n then fenceLive (uRegion n) s else takeOffline n 3 s) else s

/-! ### Records (R522) -/

def logSupply (sensor state value : Nat) (s : State) : State :=
  (if state = 0 then id else bump uModule 11)
    (logAt uLighthouse (mkRec 0x1104 2 wholeModule none noTide [(2, sensor), (1, state), (1, 0), (4, value)]) s)

def logThrottle (rep u cause level value : Nat) (s : State) : State :=
  logAt rep (mkRec 0x1101 1 u none noTide [(1, cause), (1, level), (2, 0), (4, value)]) s

def logTrip (rep u cause value : Nat) (s : State) : State :=
  logAt rep (mkRec 0x1102 3 u none noTide [(1, cause), (3, 0), (4, value)]) s

/-! ### Supplies (R498–R500, R506, R507) -/

/-- The filtered supply lies below `lo` or above `hi`, in tenths of a volt. -/
def beyond (s : State) (id : Nat) (lo hi : Int) : Bool := above s id hi || (!atLeast s id lo && (sensed s id).isSome)

/-- The supply sensor that lies outside its operating range: the 48 V input first (R499). [DEDUCED: log 136] -/
def outOfRange (s : State) : Option Nat :=
  if beyond s (sensorId 8 0) 400 600 then some (sensorId 8 0)
  else if beyond s (sensorId 8 2) 114 126 then some (sensorId 8 2) else none

/-- The supply sensor beyond its lockout limits (R500). -/
def beyondLockout (s : State) : Option Nat :=
  if beyond s (sensorId 8 0) 360 620 then some (sensorId 8 0)
  else if beyond s (sensorId 8 2) 108 132 then some (sensorId 8 2) else none

/-- SUPPLY_RANGE (R499): the supply cause begins or ends. [DEDUCED: log 136] -/
def execSupplyRange (s : State) : Out :=
  .next (match outOfRange s with
    | some id =>
      let s1 := updPower s (fun p => { p with supply := true, supplyBy := id })
      if s.power.supply then s1 else logSupply id 1 (sensedWord s id) s1
    | none =>
      if s.power.supply then
        logSupply s.power.supplyBy 0 (sensedWord s s.power.supplyBy) (updPower s (fun p => { p with supply := false }))
      else s)

/-- LOCKOUT (R500): the 12 V bus converters stop. -/
def execLockout (s : State) : Out :=
  .next (match beyondLockout s with
    | none => s
    | some id =>
      if !s.power.bus then s
      else logSupply id 2 (sensedWord s id) (updPower (loseWafer s) (fun p => { p with bus := false, stopped := true })))

/-- ROOT_LOCK_LOSS (R507): the root is gated off, and the wafer and bridges stop as they stand. [DESIGN CHOICE: log 23] -/
def stopRoot (s : State) : State :=
  if !s.power.root then s
  else logSupply 0xFFFF 2 Config.rootValue.toNat
    (forAll [0, 1] (fun h t => updHport t h (fun p => { p with l0 := false, downUs := nowUs t }))
      (updPower s (fun p => { p with root := false, stopped := true })))

def execRootLockLoss (s : State) : Out := .next (stopRoot s)

/-- REFERENCE_STOP (R506, R507): the standby PLL takes the backup oscillator, and the root is gated off. -/
def execReferenceStop (s : State) : Out := .next (stopRoot (updPower s (fun p => { p with backup := true })))

/-! ### Regulators (R501, R502, R515, R517, R518) -/

/-- Setpoint of a rail (0 VCORE, 1 VSRAM), in millivolts. -/
def setpoint (n rail : Nat) : Nat := if rail = 0 then 700 + 5 * (Config.vset n).toNat else 750

/-- The filtered voltage of a rail lies further from its setpoint than `pct` per cent. -/
def offSetpoint (s : State) (n rail pct : Nat) : Bool :=
  (sensed s (sensorId (2 + rail) n)).any (fun v =>
    let d := fvAbs (fvAdd (fvMul (f32 v) (fvOfInt 1000)) (fvNeg (fvOfInt (setpoint n rail))))
    fvLt (fvOfInt (pct * setpoint n rail)) (fvMul d (fvOfInt 100)))

/-- Power-good: the regulator is on and both rails are in regulation (R501). -/
def powerGood (s : State) (n : Nat) : Bool :=
  (getRegion s n).powered && (getRegion s n).pg && !offSetpoint s n 0 3 && !offSetpoint s n 1 3

/-- REGULATOR_FAULT's record. -/
def logRegulator (n cause rail volt cur : Nat) (s : State) : State :=
  logRegion n 0x1103 2 (uRegion n) noTide [(1, cause), (1, rail), (2, 0), (4, volt), (4, cur)] s

/-- A regulator that has ramped. -/
def rampUp (n : Nat) (s : State) : State := updRegion s n (fun r => { r with powered := true, pg := true })

/-- RAMP_WAVE (R502): the next wave of 32 regulators of phase 2. [DESIGN CHOICE: log 134] -/
def execRampWave (bad : List (Fin 32 × Fin 2 × BitVec 32 × BitVec 32)) (s : State) : Out :=
  let w := s.up.waves
  let up : BringUp :=
    { s.up with
      waves := w + 1
      bad := s.up.bad ++ (List.range 32).filterMap (fun i =>
        if bad.any (fun x => x.1.val = i) then some (uRegion (32 * w + i)) else none) }
  .next (if s.up.phase ≠ 2 ∨ !s.power.bus ∨ 16 ≤ w then s
    else forAll (List.range 32) (fun i t =>
      match bad.find? (fun x => x.1.val = i) with
      | none => rampUp (32 * w + i) t
      | some x => fenceLive (uRegion (32 * w + i)) (logRegulator (32 * w + i) 3 x.2.1.val x.2.2.1.toNat x.2.2.2.toNat t)) { s with up := up })

/-- REGION_TRIP (R515). -/
def execRegionTrip (region : Fin 512) (s : State) : Out :=
  let n := region.val
  .next (if (getRegion s n).powered ∧ atLeast s (sensorId 1 n) 1100 then
      logTrip (uRegion n) (uRegion n) 0 (sensedWord s (sensorId 1 n))
        (updRegion (powerDown n s) n (fun r => { r with tripped := true }))
    else s)

/-- The fault of a regulator: its cause and rail (R517). -/
def regulatorFault (s : State) (n : Nat) (hot : Option (Fin 2)) : Option (Nat × Nat) :=
  if offSetpoint s n 0 5 then some (0, 0)
  else if offSetpoint s n 1 5 then some (0, 1)
  else if 5 ≤ (getRegion s n).overA then some (1, 0)
  else hot.map (fun r => (2, r.val))

/-- REGULATOR_FAULT (R517). [DESIGN CHOICE: log 134] -/
def execRegulatorFault (region : Fin 512) (hot : Option (Fin 2)) (s : State) : Out :=
  let n := region.val
  .next (match regulatorFault s n hot with
    | none => s
    | some (cause, rail) =>
      if !(getRegion s n).powered then s
      else logRegulator n cause rail (sensedWord s (sensorId (2 + rail) n)) (sensedWord s (sensorId (4 + rail) n)) (powerDown n s))

/-- The region beside one, by side. -/
def regionBeside (n dir : Nat) : Option Nat :=
  let c := regionCol n
  let r := regionRow n
  match dir with
  | 0 => if r = 0 then none else regionAt c (r - 1)
  | 1 => regionAt (c + 1) r
  | 2 => regionAt c (r + 1)
  | _ => if c = 0 then none else regionAt (c - 1) r

/-- NEIGHBOUR_PG_FALL (R518): the region whose power-good has fallen is offline. -/
def execNeighbourPgFall (region : Fin 512) (dir : Fin 4) (s : State) : Out := clocked s <|
  .next (match regionBeside region.val dir.val with
    | none => s
    | some m => if powerGood s m ∨ regionOffline s m ∨ !(getRegion s region.val).powered then s else takeOffline m 3 s)

/-! ### Throttle levels (R509–R514) -/

/-- TL_UPDATE (R512, R517): the thermal level of a region, and its count of updates above its rated current. -/
def execTlUpdate (region : Fin 512) (s : State) : Out := clocked s <|
  let n := region.val
  let r := getRegion s n
  let id := sensorId 1 n
  let hot := atLeast s id 950
  let cool := atMost s id 920
  let tl : BitVec 4 :=
    if hot then (if r.tl.toNat < 12 then r.tl + 1 else r.tl)
    else if cool && decide (r.tl ≠ 0) && decide (r.quiet = 9) then r.tl - 1 else r.tl
  let quiet : Nat := if cool ∧ r.tl ≠ 0 ∧ r.quiet < 9 then r.quiet + 1 else 0
  let overA : Nat := if above s (sensorId 4 n) 800 then r.overA + 1 else 0
  let s1 := updRegion s n (fun r => { r with tl := tl, quiet := quiet, overA := overA })
  let s2 := if tl = r.tl then s1 else bump (uRegion n) rThrChanges s1
  .next (if !r.powered then s
    else if (r.tl = 0 ∧ tl ≠ 0) ∨ (r.tl ≠ 0 ∧ tl = 0) then
      logThrottle (uRegion n) (uRegion n) 0 tl.toNat (sensedWord s id) s2
    else s2)

/-- A level and its count of quiet updates after one update. -/
def levelStep (rise quiet : Bool) (l q : Nat) : Nat × Nat :=
  if rise then (min 12 (l + 1), 0)
  else if quiet && decide (0 < l) then (if q = 9 then (l - 1, 0) else (l, q + 1))
  else (l, 0)

/-- The filtered input power in watts, when both sensors have a value (R513). -/
def inputPower (s : State) : Option FV :=
  match sensed s (sensorId 8 0), sensed s (sensorId 8 1) with
  | some v, some i => some (fvMul (f32 v) (f32 i))
  | _, _ => none

/-- The greatest of the three levels, with its cause and value: supply, coolant, cap. [DEDUCED: log 137] -/
def globalCause (s : State) (p : Power) : Nat × Nat × Nat :=
  let hotOut := atLeast s (sensorId 7 1) 550 && !atLeast s (sensorId 7 0) 450
  let watts := ((inputPower s).map (fun x => (to32 x).toNat)).getD 0
  let sup := (if p.supply then 12 else 0, 3, sensedWord s p.supplyBy)
  let cool := (p.cool, 2, sensedWord s (sensorId 7 (if hotOut then 1 else 0)))
  let cap := (p.cap, 1, watts)
  if cool.1 ≤ sup.1 ∧ cap.1 ≤ sup.1 then sup else if cap.1 ≤ cool.1 then cool else cap

/-- The coolant and cap levels after one update. -/
def updateLevels (s : State) (p : Power) : Power :=
  let coolUp := atLeast s (sensorId 7 0) 450 || atLeast s (sensorId 7 1) 550
  let coolDown := atMost s (sensorId 7 0) 420 && atMost s (sensorId 7 1) 520
  let capW : Int := 1000 * p.capKw.toNat
  let capUp := p.capEn && (inputPower s).any (fun w => fvLt (fvOfInt capW) w)
  let capDown := !p.capEn || (inputPower s).any (fun w => fvLe w (fvOfInt (capW - 500)))
  let c := levelStep coolUp coolDown p.cool p.coolQuiet
  let k := levelStep capUp capDown p.cap p.capQuiet
  { p with
    cool := c.1
    coolQuiet := c.2
    cap := k.1
    capQuiet := k.2 }

/-- G_UPDATE (R513, R514): the global level, and its delivery to every region. -/
def execGUpdate (s : State) : Out :=
  let p := updateLevels s s.power
  let top := globalCause s p
  let was := s.power.g
  let old := globalCause s s.power
  let s1 := updPower s (fun _ => { p with g := top.1 })
  let s2 := forAll (List.range 512) (fun n t => updRegion t n (fun r => { r with gl := BitVec.ofNat 4 top.1 })) s1
  let s3 := if top.1 = was then s2 else bump uModule 10 s2
  .next (if !lhUp s then s
    else if was = 0 ∧ top.1 ≠ 0 then logThrottle uLighthouse wholeModule top.2.1 top.1 top.2.2 s3
    else if was ≠ 0 ∧ top.1 = 0 then logThrottle uLighthouse wholeModule old.2.1 0 old.2.2 s3
    else s3)

/-- BRIDGE_TRIP (R516): the hottest of the bridge's sensors is at 115 °C. -/
def execBridgeTrip (b : Fin 32) (s : State) : Out :=
  let ids := (List.range 4).map (fun i => sensorId 6 (4 * b.val + i))
  .next (match ids.find? (fun id => atLeast s id 1150) with
    | none => s
    | some id =>
      if (getBridge s b.val).shiState = 5 ∨ !lhUp s then s
      else logTrip uLighthouse (uBridge b.val) 1 (sensedWord s id) (orderBridgeDown b.val s))

end Sys2Proof.Machine
end

