-- ==== Sys2Proof/Machine/BringUp.lean ====
section
/-! DEFINITION. Machine/BringUp.lean: the ten phases of power-on (R443–R458). -/

namespace Sys2Proof.Machine

open Sys2Proof

def updUp (s : State) (f : BringUp → BringUp) : State := { s with up := f s.up }

/-- The longest time of a phase, in ms (table of R443). -/
def phaseMax (p : Nat) : Nat :=
  match p with
  | 1 => 8000
  | 2 => 4000
  | 3 => 200
  | 4 => 50
  | 5 => 60000
  | 6 => 200
  | 7 => 3000
  | 8 => 2000
  | 9 => 10000
  | _ => 2550

/-- Time goes on to `ms` after the phase began. -/
def phaseTime (ms : Nat) (s : State) : State :=
  let us := s.up.phaseUs + 1000 * ms
  if nowUs s < us then clockTo (tcycle s + ((us - nowUs s) * 12288 + 9) / 10) s else s

/-- Milliseconds that the phase in progress has taken. -/
def phaseMs (s : State) : Nat := (nowUs s - s.up.phaseUs) / 1000

/-- The phase ends, and the next one begins (R443). -/
def nextPhase (s : State) : State :=
  updUp (logAt uLighthouse (mkRec 0x0F01 0 wholeModule none noTide [(1, s.up.phase), (1, 0), (4, phaseMs s)]) s)
    (fun u => { u with phase := u.phase + 1, phaseUs := nowUs s })

/-- R443: a fatal exit. -/
def fatalExit (s : State) : State :=
  updUp (logAt uLighthouse (mkRec 0x0F02 3 wholeModule none noTide [(1, s.up.phase)]) s)
    (fun u => { u with fatal := true, fatalPhase := u.phase, endUs := some (nowUs s) })

/-- Units excluded in this bring-up. [DEDUCED: log 140] -/
def noteBad (us : List Nat) (s : State) : State :=
  updUp s (fun u => { u with bad := u.bad ++ us.filter (fun x => !u.bad.contains x) })

/-- Units of a class among findings. -/
def badOf (f : PhaseFinds) (cls : Nat) : List Nat :=
  ((f.bad.map (·.toNat)).filter (fun u => decide (unitClass u = cls) && isUnit u)).map unitBits

/-- A bridge that fails a phase is down (R231): by training, or by Lighthouse order. -/
def failBridge (cause : BitVec 3) (b : Nat) (s : State) : State :=
  noteBad [uBridge b] (updBridge s b (fun r => if r.shiState = 5 then r else { r with shiState := 5, cause := cause }))

/-- SB8 and SB24 are both down. -/
def noHostBridge (s : State) : Bool := decide ((getBridge s 8).shiState = 5) && decide ((getBridge s 24).shiState = 5)

/-- A region that fails a phase is FENCED, and after phase 7 offline. [DEDUCED: log 140] -/
def failRegion (n : Nat) (s : State) : State :=
  noteBad [uRegion n] (if s.up.phase ≤ 7 then fenceLive (uRegion n) s else if regionOffline s n then s else takeOffline n 0 s)

/-- The core is powered and its region has passed the phases so far. -/
def tested (s : State) (k : Nat) : Bool :=
  (getRegion s (keyRegion k)).powered && decide ((getHealth s (uRegion (keyRegion k))).live = 0)

/-! ### Phase 6 (R447–R450) -/

/-- The tester of a core on its west (0) or north (1) side. -/
def testerOf (s : State) (k side : Nat) : Option Nat := (neighbour k (if side = 0 then 3 else 0)).filter (tested s)

/-- The verdicts reported on a core: true for PASS. -/
def verdictsOn (s : State) (f : PhaseFinds) (k : Nat) : List Bool :=
  [0, 1].filterMap (fun side =>
    match testerOf s k side with
    | none => none
    | some _ =>
      if f.silent.any (fun x => decide (x.1.key = k ∧ x.2.val = side)) then none
      else some (!f.fails.any (fun x => decide (x.1.key = k ∧ x.2.val = side))))

/-- R449: what the verdicts decide: IN_SERVICE, FENCED, or a tie-break scan. -/
def decideCore (s : State) (f : PhaseFinds) (k : Nat) : Option Bool :=
  match verdictsOn s f k with
  | [true, true] => some true
  | [false, false] => some false
  | _ => none

/-- A core fails phase 6. -/
def failCore (k : Nat) (s : State) : State := noteBad [uCore k] (fenceLive (uCore k) s)

/-- The four steps of the neighbour test. -/
def neighbourTest (f : PhaseFinds) (s : State) : State :=
  let ks := (List.range 512).flatMap (fun n => (regionCores n).filter (tested s))
  let s1 := forAll (ks.filter (fun k => decide (decideCore s f k = some false))) failCore s
  updUp s1 (fun u =>
    { u with
      tested := true
      fails := f.fails.filterMap (fun x => (testerOf s x.1.key x.2.val).map (fun t => (x.1.key, t)))
      scans := ks.filter (fun k => (decideCore s f k).isNone) })

/-- The testers that a scan of a core overrules: those whose verdict differs from it (R450). [DEDUCED: log 139] -/
def overruled (s : State) (k : Nat) (pass : Bool) : List Nat :=
  ([0, 1].filterMap (testerOf s k)).filter (fun t => decide (s.up.fails.contains (k, t) = pass))

/-- TIE_BREAK_SCAN (R450) in phase 6. Each overruled tester is scanned too. [DEDUCED: log 139] -/
def execTieBreakScan (c : CoreRef) (pass : Bool) (run : Fin 8 × Fin 2) (s : State) : Out := clocked s <|
  let k := c.key
  .next (if s.up.phase ≠ 6 ∨ !s.up.tested ∨ !s.up.scans.contains k then s
    else
      let late := (overruled s k pass).filter (fun t => !s.up.scans.contains t && decide ((getHealth s (uCore t)).live = 0))
      let s1 := updUp s (fun u => { u with scans := u.scans.filter (fun x => x ≠ k) ++ late })
      let s2 := if pass ∧ (overruled s k pass).isEmpty then s1
        else logRegion (keyRegion k) 0x0F03 2 (uCore k) noTide
          [(4, (coreIdOf s k).toNat + 2 ^ 18 * ownModule s), (1, run.1.val), (1, run.2.val), (1, if pass then 1 else 0)] s1
      if pass then s2 else failCore k s2)

/-! ### Phase 7 (R451–R454) -/

/-- Routers whose every link has failed, with their cores (R452). -/
def deadRouters (f : PhaseFinds) : List Nat :=
  let links := (f.bad.map (·.toNat)).filter (fun u => decide (unitClass u = 2))
  let near := links.flatMap (fun u =>
    let k := unitBits u % 0x80000
    k :: (neighbour k (linkDir u)).toList)
  (near.filter (fun k => (List.range 4).all (fun d => (neighbour k d).isNone || links.contains (uHop k d)))).eraseDups

/-- Every router, with its core, and every link that fails the loopback, FENCED (R452). -/
def fenceMesh (f : PhaseFinds) (s : State) : State :=
  let rs := (badOf f 1 ++ deadRouters f).eraseDups
  let us := rs.map uRouter ++ rs.map uCore ++ (badOf f 2).map (fun b => 0x20000000 + b)
  noteBad us (forAll us fenceLive s)

/-- R496: a TRIAL bank is confirmed when Lighthouse has completed R477 within 60 s of its boot. -/
def confirmTrial (s : State) : State :=
  let l := s.lh
  let b := if l.runB then l.bankB else l.bankA
  if !b.trial ∨ l.bootUs + 60000000 < nowUs s then s
  else
    let b1 : Bank := { b with trial := false }
    updLh s (fun l =>
      { l with
        bankA := if l.runB then l.bankA else b1
        bankB := if l.runB then b1 else l.bankB
        trialFails := 0
        rollback := if l.rollback.toNat < b.image.svn.toNat then b.image.svn.setWidth 64 else l.rollback })

/-- The map of phase 7 at epoch 1: retired units, and the units excluded so far, RETIRED when the bring-up before this one excluded
them too (R451). Harbours take theirs by message. -/
def firstMap (s : State) : State :=
  let bad := s.up.bad
  let retired := s.lh.retired ++ (bad.filter s.lh.lastBad.contains).filter (fun u => !s.lh.retired.contains u)
  let entries : List (Nat × BitVec 3) :=
    retired.map (fun u => (u, 4)) ++ (bad.filter (fun u => !retired.contains u)).map (fun u => (u, 2))
  let s1 := updLh (confirmTrial s) (fun l =>
    { l with
      epoch := 1
      stage := 3
      map := entries.foldl (fun t e => tupd LhUnit.init t e.1 (fun x => { x with map := e.2, epoch := 1 })) []
      retired := retired.take 65536
      lastBad := bad })
  forAll entries (fun e t =>
    if offWafer e.1 then sendCtl (.hmUpdate e.1 e.2 1) t
    else updHealth t e.1 (fun h => { h with map := e.2, epoch := 1 })) s1

/-- R453: rows with one excluded core slide; a row with two leaves its region FENCED. -/
def settleRows (n : Nat) (s : State) : State :=
  if twoExcluded s n then fenceLive (uRegion n) s
  else forAll (List.range 32) (fun row t => match slideTarget t n row with
    | some g => if g = 16 then t else bump (uRegion n) rSlides (slideRow n row g false [] t)
    | none => t) s

/-- R454: the tables of the mesh from the map: the hops of dead routers and links, offline regions, and service routers. -/
def meshTables (s : State) : State :=
  let excludedUnits := (s.health.map (·.1)).filter (fun u => !usable s u)
  let s1 := forAll (excludedUnits.filter (fun u => decide (unitClass u = 1))) (fun u t =>
    let k := unitBits u
    forAll (List.range 4) (fun d v => match neighbour k d with
      | some k' => markHop k' (opposite d) 2 v
      | none => v) t) s
  let s2 := forAll (excludedUnits.filter (fun u => decide (unitClass u = 2))) (fun u t =>
    let k := unitBits u % 0x80000
    match neighbour k (linkDir u) with
    | some k' => markHop k' (opposite (linkDir u)) 2 (markHop k (linkDir u) 2 t)
    | none => t) s1
  let off := (List.range 512).filter (regionOffline s)
  let south := (List.range 512).filter (fun n => !usable s (uRouter (serviceKey n false)))
  let bitsOf (ns : List Nat) : BitVec 512 := ns.foldl (fun (w : BitVec 512) n => w ||| (1#512 <<< n)) 0
  let s3 := forAll off ringRegion s2
  let s4 := forAll (List.range 32) (fun b t => updBridge t b (fun r => { r with svcMap := bitsOf south })) s3
  forAll (List.range 512) (fun n t => updRegion t n (fun r => { r with offMap := bitsOf off, svcMap := bitsOf south })) s4

/-- Phase 7 (R451–R454). [DEDUCED: log 142] -/
def buildMap (f : PhaseFinds) (s : State) : State :=
  let s1 := firstMap (forAll (badOf f 3) failRegion (fenceMesh f s))
  meshTables (forAll (List.range 512) settleRows s1)

/-! ### Phases 8 to 10 (R455–R458) -/

/-- Regions in service. -/
def liveRegions (s : State) : List Nat := (List.range 512).filter (fun n => usable s (uRegion n) && !regionOffline s n)

/-- Phase 9: what fails its known-answer run (R456, R457). -/
def knownAnswers (f : PhaseFinds) (s : State) : State :=
  let s1 := forAll (badOf f 0) (fun k t => noteBad [uCore k] (fenceCore k t)) s
  let s2 := forAll ((badOf f 0).map keyRegion).eraseDups (fun n t =>
    if twoExcluded t n then failRegion n t else settleRows n t) s1
  let s3 := forAll (badOf f 3) failRegion s2
  let s4 := forAll (badOf f 4) (failBridge 4) s3
  forAll (badOf f 6) (fun h t => noteBad [uHost h] (fenceLive (uHost h) t)) s4

/-- A host port that passes: its bridge is up and it is not FENCED. -/
def hostPasses (s : State) (h : Nat) : Bool :=
  decide ((getBridge s (hostBridge (h = 1))).shiState ≠ 5) && usable s (uHost h)

/-! ### The master of the test chain (R525–R527, R540) -/

/-- R526: the external TAP drives the chain. -/
def extDrives (s : State) : Bool := s.dbg.extEn && s.up.ready && !s.dbg.lhHold

/-- DEBUG_SESSION (R540). [DEDUCED: log 160] -/
def debugSession (action source region : Nat) (s : State) : State :=
  logAt uLighthouse (mkRec 0x1201 0 wholeModule none noTide [(1, action), (1, source), (2, region)]) s

/-- The bridges that are not down. -/
def upBridges (s : State) : BitVec 32 :=
  (List.range 32).foldl (fun w b => if (getBridge s b).shiState = 5 then w else w ||| (1#32 <<< b)) 0#32

/-- R525: Lighthouse bypasses every bridge that is down. [DEDUCED: log 159] -/
def settleChain (s : State) : State := { s with dbg := { s.dbg with chain := upBridges s } }

/-- The bridges in the chain: while the external TAP drives it, as a bypass was last settled. -/
def chainNow (s : State) : BitVec 32 := if extDrives s then s.dbg.chain else upBridges s

/-- R527, R528: every TAP of the chain is in Test-Logic-Reset: IDCODE is selected, and EXTEST drives no pin.
[DEDUCED: log 159] -/
def tapReset (s : State) : State :=
  settleChain { s with dbg := { s.dbg with ir := [], dr := tkeep (fun k => decide (k = 33)) s.dbg.dr, driven := [] } }

/-- A change of the chain's master, from the state `old`: the external TAP is connected, or the TAPs are reset and it is connected to
the stub (R526, R527). [DEDUCED: log 160] -/
def settleSession (old : State) (preempt : Bool) (s : State) : State :=
  if extDrives old && !extDrives s then
    debugSession (if preempt then 2 else 1) (if preempt then 0 else 1) 0xFFFF
      (tapReset { s with dbg := { s.dbg with preempted := s.dbg.preempted || preempt, stubIr := 1 } })
  else if !extDrives old && extDrives s then debugSession 0 1 0xFFFF (settleChain s)
  else s

/-- Phase 10: the power-on scrub of every region in service, and READY (R458). [DEDUCED: log 100] -/
def makeReady (f : PhaseFinds) (s : State) : State :=
  settleSession s false <|
  let bad := badOf f 0
  let s1 := forAll (liveRegions s) (fun n t =>
    endScrub n (bad.filter (fun k => decide (keyRegion k = n))) (updRegion t n (fun r => { r with scrubSeed := f.seed }))) s
  let s2 := logAt uLighthouse (mkRec 0x0F01 0 wholeModule none noTide [(1, 10), (1, 0), (4, phaseMs s1)]) s1
  let s3 := updUp s2 (fun u => { u with ready := true, readyTid := s2.tid, endUs := some (nowUs s2) })
  updLh { s3 with dbg := { s3.dbg with lhHold := false } } (fun l => { l with lastBad := s3.up.bad })

/-- The end of the phase in progress: its exits, and the next phase (R443). [DEDUCED: log 138, 179] -/
def endPhase (f : PhaseFinds) (s : State) : State :=
  match s.up.phase with
  | 1 => if s.lh.stage = 4 ∨ f.fatal then fatalExit s else nextPhase s
  | 2 => nextPhase s
  | 3 =>
    if f.fatal then fatalExit s
    else nextPhase { updPower s (fun p => { p with root := true, stopped := false }) with tid := 0, phase := 0 }
  | 4 =>
    let s1 := forAll ((List.range 32).filter (fun b => decide ((getBridge s b).shiState ≠ 4) || (badOf f 4).contains b)) (failBridge 1) s
    if noHostBridge s1 then fatalExit s1 else nextPhase s1
  | 5 =>
    let s1 := forAll (badOf f 4) (failBridge 4) (forAll (badOf f 3) failRegion (updUp s (fun u => { u with silent := badOf f 3 })))
    if noHostBridge s1 then fatalExit s1 else nextPhase s1
  | 6 => nextPhase s
  | 7 => nextPhase (buildMap f s)
  | 8 =>
    let s1 := forAll (badOf f 3) failRegion s
    nextPhase (setGroup 63 (liveRegions s1) s1)
  | 9 =>
    let s1 := knownAnswers f s
    if hostPasses s1 0 ∨ hostPasses s1 1 then nextPhase s1 else fatalExit s1
  | _ => makeReady f s

/-- Bring-up is under way: the supply has not locked out, and Lighthouse drives it. -/
def comingUp (s : State) : Bool :=
  !s.up.ready && !s.up.fatal && (!s.power.stopped) && (lhUp s || (decide (s.up.phase = 1) && decide (s.lh.stage = 4)))

/-- BRINGUP_PHASE (R443–R458): the phase in progress ends with what it finds.
[DEDUCED: log 138, 179; DESIGN CHOICE: log 195] -/
def execBringupPhase (f : PhaseFinds) (s : State) : Out :=
  .next (if !comingUp s then s
    else if s.up.phase = 2 ∧ !s.power.bus then
      let s1 := phaseTime (min f.ms 70) s
      if f.fatal ∨ (beyondLockout s1).isSome then fatalExit s1 else updPower s1 (fun p => { p with bus := true })
    else if s.up.phase = 2 ∧ s.up.waves < 16 then s
    else if s.up.phase = 6 ∧ !s.up.tested then neighbourTest f s
    else if s.up.phase = 6 ∧ !s.up.scans.isEmpty then s
    else endPhase f (phaseTime (min f.ms (phaseMax s.up.phase)) s))

/-- Waves of phase 2 that have not ramped leave their regions unpowered and FENCED. -/
def lateWaves (s : State) : State := forAll ((List.range 512).filter (fun n => decide (32 * s.up.waves ≤ n))) failRegion s

/-- PHASE_TIMEOUT (R443): the phase in progress reaches its maximum time; what has not finished takes its exit. -/
def execPhaseTimeout (f : PhaseFinds) (s : State) : Out :=
  let s1 := phaseTime (phaseMax s.up.phase) s
  .next (if !s.up.ready && !s.up.fatal && !s.power.stopped then
    match s.up.phase with
    | 1 => fatalExit s1
    | 2 => if s1.power.bus then nextPhase (lateWaves s1) else fatalExit s1
    | 3 => fatalExit s1
    | 6 =>
      let s2 := if s1.up.tested then s1 else neighbourTest f s1
      nextPhase (forAll s2.up.scans failCore (updUp s2 (fun u => { u with scans := [] })))
    | _ => endPhase f s1
    else s)

end Sys2Proof.Machine
end

