-- ==== Sys2Proof/Machine/Lighthouse.lean ====
section
/-! DEFINITION. Machine/Lighthouse.lean: the management network, telemetry, recovery, the event log, sensors, the mailbox,
firmware and the boot of Lighthouse (R439, R469–R487, R491–R497). -/

namespace Sys2Proof.Machine

open Sys2Proof

/-! ### Nodes of the management network (R439, R471–R474) -/

/-- The key of a node. -/
def nodeKey : Node → Nat
  | .region n => n.val
  | .bridge b => 512 + b.val
  | .lighthouse => 1022

def getNode (s : State) (k : Nat) : SwNode := tget SwNode.init s.nodes k
def updNode (s : State) (k : Nat) (f : SwNode → SwNode) : State :=
  { s with nodes := tset SwNode.init s.nodes k (f (getNode s k)) }

/-- Time goes on to `us`. -/
def untilUs (us : Nat) (s : State) : State :=
  if nowUs s < us then clockTo (tcycle s + ((us - nowUs s) * 12288 + 9) / 10) s else s

/-- The node that holds the live view of a unit, or serves it; Harbour units have none. -/
def unitNode (u : Nat) : Option Nat :=
  match unitClass u with
  | 4 => some (512 + unitBits u % 32)
  | 5 => some (512 + 2 * (unitBits u % 16))
  | 6 => some (512 + hostBridge (unitBits u = 1))
  | c => if c ≤ 3 then some (u % 512) else none

/-- The sender has something for the receiver that no ACK has answered: updates of Lighthouse, or reports and records of a
node. -/
def unacked (s : State) (src dst : Nat) : Bool :=
  if src = 1022 then s.ctl.any (fun c => match c with
    | .hmUpdate u _ _ => decide (unitNode u = some dst)
    | _ => false)
  else if dst = 1022 then
    s.ctl.any (fun c => match c with
      | .live u _ _ => decide (unitNode u = some src)
      | _ => false)
    || !(getLogq s (if src < 512 then uRegion src else uBridge (src - 512))).recs.isEmpty
  else false

/-- FRAME_RESEND (R472): every 1 ms until the ACK. -/
def execFrameResend (src dst : Node) (s : State) : Out :=
  .next (if unacked s (nodeKey src) (nodeKey dst) && (lhUp s || decide (src ≠ .lighthouse)) then
    bump uModule 6 (untilUs (nowUs s + 1000) s) else s)

/-- A silent node: reached through IJTAG after 10 ms, and taken out after 100 ms more (R439, R474). [DEDUCED: log 150] -/
def escalate (k u : Nat) (out : State → State) (s : State) : State :=
  match (getNode s k).ijtag with
  | none =>
    let s1 := untilUs ((getNode s k).lastAck + 10000) s
    logAt uLighthouse (mkRec 0x0E07 1 u none noTide [(1, 0)]) (updNode s1 k (fun x => { x with ijtag := some (nowUs s1) }))
  | some t =>
    let s1 := untilUs (t + 100000) s
    out (logAt uLighthouse (mkRec 0x0E07 1 u none noTide [(1, 1)]) (updNode s1 k (fun x => { x with ijtag := none })))

/-- MGMT_ESCALATION (R439): the region is fenced in the health map, and offline. [DEDUCED: log 150] -/
def execMgmtEscalation (region : Fin 512) (s : State) : Out :=
  let n := region.val
  let u := uRegion n
  let fence (t : State) : State :=
    let t0 := if 2 ≤ (getUnit t u).map.toNat then t else lhSet u 2 t
    let t1 : State := { t0 with ctl := t0.ctl.filter (fun c => match c with
      | .hmUpdate u' _ _ => decide (u' ≠ u)
      | _ => true) }
    let t2 := updHealth t1 u (fun h => { h with map := (getUnit t0 u).map, epoch := (getUnit t0 u).epoch })
    if regionOffline t n then t2 else closeRegion n 2 t2
  .next (if lhRuns s then escalate n u fence s else s)

/-- MONITOR_ESCALATION (R474): the bridge is taken down. -/
def execMonitorEscalation (b : Fin 32) (s : State) : Out :=
  .next (if lhRuns s then escalate (512 + b.val) (uBridge b.val) (orderBridgeDown b.val) s else s)

/-! ### Telemetry (R473, R488) -/

/-- The sensors that a node reports. -/
def nodeSensors : Node → List Nat
  | .region n => (List.range 5).map (fun i => sensorId (i + 1) n.val)
  | .bridge b => (List.range 4).map (fun i => sensorId 6 (4 * b.val + i))
  | .lighthouse => []

/-- The values of sensors and their failure bits, as Lighthouse takes them in. -/
def takeReport (key : Nat) (ids : List Nat) (s : State) : State :=
  let r : Telemetry :=
    { vals := ids.map (fun id => (sensed s id).getD 0)
      failed := ids.map (fun id => (getSensor s id).failed)
      us := nowUs s }
  updLh s (fun l => { l with telem := tset Telemetry.init l.telem key r })

/-- TELEMETRY (R473). -/
def execTelemetry (src : Node) (s : State) : Out :=
  .next (if lhUp s ∧ src ≠ .lighthouse then takeReport (nodeKey src) (nodeSensors src) s else s)

/-- HB_SENSORS (R488). -/
def execHbSensors (quad : Fin 4) (s : State) : Out :=
  .next (if lhRuns s then
    takeReport (1024 + quad.val) ((List.range 32).map (fun c => sensorId 9 (32 * quad.val + c))) s else s)

/-- TELEMETRY_TIMEOUT (R473): 64 ms without telemetry. -/
def execTelemetryTimeout (src : Node) (s : State) : Out :=
  let k := nodeKey src
  let s1 := untilUs ((tget Telemetry.init s.lh.telem k).us + 64000) s
  .next (if lhUp s ∧ src ≠ .lighthouse then
    updLh s1 (fun l => { l with telem := tupd Telemetry.init l.telem k (fun t => { t with silent := true }) }) else s)

/-- Where Lighthouse has a sensor's value from: a report and the place in it; none for its own sensors. -/
def reportOf (id : Nat) : Option (Nat × Nat) :=
  let i := id % 4096
  let k := id / 4096
  if 1 ≤ k ∧ k ≤ 5 then some (i, k - 1)
  else if k = 6 then some (512 + i / 4, i % 4)
  else if k = 9 then some (1024 + i / 32, i % 32)
  else none

/-- A sensor as Lighthouse reports it: whether it is FAILED, and its filtered or replaced value. -/
def lhSensor (s : State) (id : Nat) : Bool × Option Word :=
  match reportOf id with
  | none => ((getSensor s id).failed, sensed s id)
  | some (key, i) =>
    let t := tget Telemetry.init s.lh.telem key
    (t.silent || t.failed.getD i false, t.vals[i]?)

/-! ### Sensors (R484, R487, R516, R521) -/

/-- Thresholds of a sensor: critical, low, and whether the value lies beyond it (table of R521). -/
def thresholds (s : State) (id : Nat) : List (Bool × Bool × Bool) :=
  let i := id % 4096
  let up (w c : Int) : List (Bool × Bool × Bool) := [(false, false, atLeast s id w), (true, false, atLeast s id c)]
  let band (lo hi lo' hi' : Int) : List (Bool × Bool × Bool) :=
    [(false, false, above s id hi), (true, false, above s id hi'), (false, true, (sensed s id).isSome && !atLeast s id lo),
      (true, true, (sensed s id).isSome && !atLeast s id lo')]
  let rail (r : Nat) : List (Bool × Bool × Bool) :=
    let low := (sensed s id).any (fun v => fvLt (fvMul (f32 v) (fvOfInt 1000)) (fvOfInt (setpoint i r)))
    [(false, false, offSetpoint s i r 3 && !low), (true, false, offSetpoint s i r 5 && !low), (false, true, offSetpoint s i r 3 && low),
      (true, true, offSetpoint s i r 5 && low)]
  match id / 4096 with
  | 1 => up 900 950
  | 2 => rail 0
  | 3 => rail 1
  | 4 => up 700 800
  | 5 => up 140 160
  | 6 => up 950 1000
  | 7 => if i = 0 then up 400 450 else up 500 550
  | 8 => if i = 0 then band 420 580 400 600 else if i = 2 then band 116 124 114 126 else []
  | _ => up 850 950

/-- Threshold events of a sensor whose value has changed, for the receiver that SetEventReceiver named (R487, R521). -/
def sendEvents (id : Nat) (before after : List (Bool × Bool × Bool)) (s : State) : State :=
  match s.lh.receiver with
  | none => s
  | some r => updLh s (fun l =>
      { l with
        out := l.out ++ (before.zip after).filterMap (fun x =>
          if x.1.2.2 = x.2.2.2 then none else some (.event r id x.2.1 x.2.2.1 x.2.2.2)) })

/-- SENSOR_SAMPLE (R484). A bridge sensor that reaches 100 °C is a warning (R516). -/
def execSensorSample (id : BitVec 16) (v : BitVec 32) (s : State) : Out :=
  let i := id.toNat
  .next (if !isSensor i then s
    else
      let s1 := takeSample i v s
      let warm := decide (i / 4096 = 6) && !atLeast s i 1000 && atLeast s1 i 1000
      let s2 := if warm && lhUp s1 then logThrottle uLighthouse (uBridge (i % 4096 / 4)) 4 0 (sensedWord s1 i) s1 else s1
      if lhRuns s2 then sendEvents i (thresholds s i) (thresholds s1 i) s2 else s2)

/-- Messages of a VF are discarded, and the mailbox carries no PLDM (R486, R491). -/
def pldmOk (via : Via) : Bool :=
  match via with
  | .mailbox => false
  | .vdm _ f => decide (f = 0)
  | _ => true

/-- GET_SENSOR_READING (R487). [DESIGN CHOICE: log 191] -/
def execGetSensorReading (via : Via) (id : BitVec 16) (s : State) : Out :=
  let r := lhSensor s id.toNat
  .next (if lhRuns s && pldmOk via && isSensor id.toNat then
    updLh s (fun l => { l with out := l.out ++ [.reading via id.toNat r.1 r.2] }) else s)

/-- SET_EVENT_RECEIVER (R487). -/
def execSetEventReceiver (via : Via) (eid : BitVec 8) (s : State) : Out :=
  .next (if lhRuns s && pldmOk via then updLh s (fun l => { l with receiver := some eid }) else s)

/-! ### The event log (R478–R480, R488) -/

/-- Lighthouse writes a record into the ring, and one of SEV 2 or 3 into the journal (R478). [DEDUCED: log 151] -/
def writeLog (r : LogRec) (s : State) : State :=
  updLh s (fun l =>
    let e : LogEntry := { body := r, seq := l.seq, time := nowUs s - l.bootUs, boot := l.boot }
    { l with
      seq := l.seq + 1
      log := (l.log ++ [e]).drop (l.log.length - 1048575)
      journal := if 2 ≤ r.sev.toNat then (l.journal ++ [e]).drop (l.journal.length - 65535) else l.journal })

/-- The next record of a unit's queue reaches the log. -/
def takeRecord (u : Nat) (s : State) : State :=
  match (getLogq s u).recs with
  | [] => s
  | r :: rest =>
    if !lhRuns s then s
    else writeLog r { s with logq := tupd LogQueue.init s.logq u (fun q => { q with recs := rest }) }

/-- EVENT_RECORD (R478, R479). -/
def execEventRecord (unit : BitVec 32) (s : State) : Out :=
  .next (if 7 ≤ unitClass unit.toNat ∧ unitClass unit.toNat ≤ 9 then s else takeRecord unit.toNat s)

/-- HB_EVENT (R488). -/
def execHbEvent (quad : Fin 4) (s : State) : Out := .next (takeRecord (uHarbour quad.val) s)

/-- EVENT_LOST (R479, R497): the count of discarded records, once its queue has room. -/
def execEventLost (unit : BitVec 32) (s : State) : Out :=
  let u := unit.toNat
  let q := getLogq s u
  .next (if q.lost = 0 ∨ 64 ≤ q.recs.length then s
    else bumpBy uModule 7 q.lost (logAt u (mkRec 0x1005 1 u none noTide [(4, q.lost)])
      { s with logq := tupd LogQueue.init s.logq u (fun q => { q with lost := 0 }) }))

/-- A log record from its bytes; Lighthouse fills SEQ, TIME, BOOT and CHECK (R478, R479). [DEDUCED: log 148] -/
def recordOf (b : List Byte) : LogRec :=
  { typ := BitVec.ofNat 16 (field b 0 2), sev := BitVec.ofNat 2 (field b 2 1), fn := BitVec.ofNat 8 (field b 3 1),
    unit := BitVec.ofNat 32 (field b 0x10 4), tide := BitVec.ofNat 32 (field b 0x14 4), data := (b.drop 0x18).take 36 }

/-- PEER_NOTICE (R488): a record of a peer joins the log. [DEDUCED: log 148] -/
def execPeerNotice (cage : Fin 16) (bytes : List (BitVec 8)) (s : State) : Out :=
  if bytes.length ≠ 64 then illFormed
  else .next (if lhRuns s ∧ (getPort s cage.val).partner ≠ 2 then writeLog (recordOf bytes) s else s)

/-! ### Persistence and recovery (R475, R477) -/

/-- HEALTH_PERSIST (R475). [DEDUCED: log 151] -/
def execHealthPersist (s : State) : Out :=
  .next (if lhRuns s then updLh s (fun l => { l with savedMap := l.map, savedRetired := l.retired }) else s)

/-- The greatest epoch that the holders of some units have accepted (R477). -/
def greatestEpoch (s : State) (p : Nat → Bool) : Nat :=
  (s.health.filter (fun h => p h.1)).foldl (fun m h => max m h.2.epoch.toNat) (if 7 < s.up.phase then 1 else 0)

/-- EPOCH_QUERY (R477). -/
def execEpochQuery (node : Node) (s : State) : Out :=
  let k := nodeKey node
  let e := greatestEpoch s (fun u => decide (unitNode u = some k))
  .next (if s.lh.stage = 2 ∧ node ≠ .lighthouse then
    updNode (updLh s (fun l => { l with epochSeen := BitVec.ofNat 32 (max l.epochSeen.toNat e) })) k (fun x =>
      { x with
        lastAck := nowUs s
        ijtag := none })
    else s)

/-- LH_RECOVERY (R477): the map of the persistent area, the epoch from the holders, and their reports of every unit that is not
IN_SERVICE, which Lighthouse records as they arrive. [DEDUCED: log 142] -/
def execLhRecovery (s : State) : Out :=
  let e := greatestEpoch s (fun _ => true)
  let s1 := updLh (confirmTrial s) (fun l =>
    { l with
      stage := 3
      map := l.savedMap
      retired := l.savedRetired
      epoch := BitVec.ofNat 32 (max e l.epochSeen.toNat + 1) })
  .next (if s.lh.stage = 2 then
    settleOrders { s1 with ctl := s1.ctl ++ (s1.health.filter (fun h => decide (h.2.live ≠ 0))).map (fun h => .live h.1 h.2.live (epochOf s h.1)) }
    else s)

/-! ### Boot, restart and firmware (R469, R470, R489, R493–R497) -/

/-- R493: the image of a bank verifies. -/
def bankVerifies (s : State) (b : Bank) : Bool :=
  !b.invalid && b.image.signed && b.image.target && !s.lh.revoked.getLsbD b.image.key.val && decide (b.image.svn.toNat ≤ 64)
    && decide (s.lh.rollback.toNat ≤ b.image.svn.toNat)

/-- Bank B (true) or A of Lighthouse. -/
def bankOf (s : State) (b : Bool) : Bank := if b then s.lh.bankB else s.lh.bankA
def setBank (b : Bool) (v : Bank) (s : State) : State :=
  updLh s (fun l =>
    { l with
      bankA := if b then l.bankA else v
      bankB := if b then v else l.bankB })

/-- Lighthouse restarts from its boot ROM: what it held in its memory but the log is lost, and a running update ends (R470, R489,
R494). [DEDUCED: log 147] -/
def restartLh (s : State) : State :=
  let s1 := bump uModule 5 (updLh s (fun l =>
    { l with
      stage := 1
      epoch := 0
      map := []
      retired := []
      orders := []
      out := []
      receiver := none
      updating := false
      epochSeen := 0
      telem := []
      starved := []
      overdue := []
      mbx := { l.mbx with taken := false } }))
  let s2 := updPower s1 (fun p =>
    { p with
      supply := false
      cool := 0
      coolQuiet := 0
      cap := 0
      capQuiet := 0 })
  { s2 with sensors := tkeep (fun id => decide (id / 4096 ≠ 7 ∧ id / 4096 ≠ 8)) s2.sensors }

/-- The bank that the boot ROM takes: PREFERRED if it verifies, the other one otherwise, or after a failed trial (R496). -/
def bootBank (s : State) : Option Bool :=
  let p := s.lh.prefB
  let first := if s.lh.bootOther then !p else p
  if bankVerifies s (bankOf s first) then some first
  else if bankVerifies s (bankOf s (!first)) then some (!first)
  else none

/-- LH_BOOT (R470, R486, R496): from the boot ROM, or as the input power comes back. [DEDUCED: log 147, 166] -/
def execLhBoot (straps : Fin 4) (s : State) : Out :=
  let s1 := updLh s (fun l =>
    { l with
      boot := l.boot + 1
      retired := l.savedRetired
      bootUs := nowUs s
      bootOther := false
      smbAddr := BitVec.ofNat 7 (0x64 + straps.val) })
  .next (if 2 ≤ s.lh.stage then s
    else match bootBank s with
      | none => updLh s1 (fun l => { l with stage := 4 })
      | some b =>
        let k := bankOf s b
        logAt uLighthouse (mkRec 0x1001 0 uLighthouse none noTide
          [(1, if b then 1 else 0), (1, if k.trial then 1 else 0), (2, 0), (4, k.image.version.toNat), (2, k.image.svn.toNat)])
          (updLh s1 (fun l => { l with stage := 2, runB := b })))

/-- A failed trial of the running bank: the ROM boots the other one; after three the bank is invalid and not PREFERRED (R496). -/
def failTrial (reason : Nat) (s : State) : State :=
  let b := s.lh.runB
  let k := bankOf s b
  let n := s.lh.trialFails + 1
  let s1 := logAt uLighthouse (mkRec 0x1003 2 uLighthouse none noTide
    [(1, if b then 1 else 0), (1, (Config.causeByte 0x1003 reason).toNat), (2, 0), (4, k.image.version.toNat)]) s
  let s2 := if n < 3 then updLh s1 (fun l => { l with trialFails := n })
    else setBank b { k with invalid := true, trial := false } (updLh s1 (fun l => { l with trialFails := 0, prefB := !b }))
  updLh s2 (fun l => { l with bootOther := decide (n < 3) })

/-- The running bank is on trial and not confirmed. -/
def onTrial (s : State) : Bool := decide (2 ≤ s.lh.stage) && decide (s.lh.stage ≤ 3) && (bankOf s s.lh.runB).trial

/-- TRIAL_TIMEOUT (R496): 60 s after the boot. -/
def execTrialTimeout (s : State) : Out :=
  .next (if onTrial s then restartLh (failTrial 0 (untilUs (s.lh.bootUs + 60000000) s)) else s)

/-- LH_WATCHDOG (R469, R496). -/
def execLhWatchdog (s : State) : Out :=
  .next (if s.lh.stage = 0 then s else restartLh (if onTrial s then failTrial 1 s else s))

/-- REQUEST_UPDATE (R494): the inactive bank is written; one update at a time. [DEDUCED: log 149] -/
def execRequestUpdate (via : Via) (s : State) : Out :=
  let b := !s.lh.runB
  .next (if pldmOk via ∧ (lhRuns s ∨ s.lh.stage = 4) ∧ !s.lh.updating then
    setBank b { bankOf s b with invalid := true, trial := false } (updLh s (fun l => { l with updating := true })) else s)

/-- VERIFY_COMPLETE (R493, R494). [DEDUCED: log 149] -/
def execVerifyComplete (via : Via) (image : FwImage) (s : State) : Out :=
  let b := !s.lh.runB
  let good := bankVerifies s { image := image }
  .next (if pldmOk via ∧ (lhRuns s ∨ s.lh.stage = 4) ∧ s.lh.updating then
    logAt uLighthouse (mkRec 0x1002 (if good then 0 else 2) uLighthouse none noTide
      [(1, if good then 1 else 2), (1, (Config.causeByte 0x1002 (if good then 0 else 1)).toNat), (2, 0), (4, image.version.toNat)])
      (setBank b { image := image, invalid := !good } s)
    else s)

/-- ACTIVATE_FIRMWARE (R495). -/
def execActivateFirmware (via : Via) (selfContained : Bool) (s : State) : Out :=
  let b := !s.lh.runB
  .next (if pldmOk via ∧ (lhRuns s ∨ s.lh.stage = 4) ∧ s.lh.updating ∧ !(bankOf s b).invalid then
    let s1 := setBank b { bankOf s b with trial := true }
      (updLh s (fun l => { l with updating := false, prefB := b, trialFails := 0 }))
    if selfContained then restartLh s1 else s1
    else s)

/-! ### The mailbox (R491, R492) -/

/-- MBX_GO (R492): ignored while BUSY; a length out of range is answered at once. -/
def execMbxGo (s : State) : Out := clocked s <|
  let m := s.lh.mbx
  let code := (mget m.req 0).toNat
  let tag := ofBytes (readBytes m.req 2 2)
  .next (if m.busy then s
    else if m.len.toNat < 8 ∨ 28672 < m.len.toNat then mbxDone (rspBytes code tag stRange []) s
    else updLh s (fun l => { l with mbx := { l.mbx with busy := true, taken := false, goUs := nowUs s } }))

/-- MBX_TIMEOUT (R492): 100 ms after GO. -/
def execMbxTimeout (s : State) : Out := clocked s <|
  let m := s.lh.mbx
  let code := (mget m.req 0).toNat
  let tag := ofBytes (readBytes m.req 2 2)
  let h := uHost (if (getFn s 0).port then 1 else 0)
  .next (if !m.busy then s
    else mbxDone (rspBytes code tag stTimeout []) (bump uModule 9
      (logAt h (mkRec 0x1006 1 h (some 0) noTide [(1, code), (1, (Config.causeByte 0x1006 0).toNat)])
        (dropMailOrders (untilUs (m.goUs + 100000) s)))))

end Sys2Proof.Machine
end

