-- ==== Sys2Proof/Machine/Messages.lean ====
section
/-! DEFINITION. Machine/Messages.lean: the messages of the catalogue that Lighthouse answers (R486, R488–R490). -/

namespace Sys2Proof.Machine

open Sys2Proof

/-! ### Taking a message (R486, R488, R491) -/

/-- The bytes of a message; one from the mailbox lies in its request area. -/
def msgData (s : State) (m : LhMsg) : List Byte :=
  if m.via = .mailbox then readBytes s.lh.mbx.req 0 s.lh.mbx.len.toNat else m.bytes

/-- Lighthouse takes the message: it runs, the mailbox holds an untaken request, and the sender is the host or the rack's management
controller: messages of a VF are discarded, and Harbours and peers send none of these.
[DEDUCED: log 143; DESIGN CHOICE: log 191] -/
def msgTaken (s : State) (m : LhMsg) : Bool :=
  lhRuns s && (match m.via with
    | .mailbox => s.lh.mbx.busy && !s.lh.mbx.taken
    | .vdm _ f => decide (f = 0)
    | .smbus => true
    | .pair _ => false)

/-- Why a message is refused: FLAGS and STATUS are 0 in a request, its body has the length of its code, and then the body's own
findings. [DEDUCED: log 143] -/
def msgCodes (b : List Byte) (len : Nat) (own : List Nat) : List Nat :=
  (if field b 1 1 ≠ 0 ∨ field b 4 2 ≠ 0 then [stBad] else [])
    ++ (if field b 6 2 ≠ b.length - 8 ∨ b.length ≠ 8 + len then [stRange] else []) ++ own

/-- A message of a code: refused with a status and no body, or carried out with its tag and body. Only a message whose code it is is
the concern of a row. -/
def message (m : LhMsg) (code len : Nat) (mine : List Byte → Bool) (own : State → List Byte → List Nat)
    (act : Nat → List Byte → State → State) (s : State) : Out :=
  let b := msgData s m
  let body := b.drop 8
  let tag := field b 2 2
  .next (if !msgTaken s m ∨ b.length < 8 ∨ field b 0 1 ≠ code ∨ !mine body then s
    else
      let s1 := if m.via = .mailbox then updLh s (fun l => { l with mbx := { l.mbx with taken := true } }) else s
      match msgCodes b len (own s body) with
      | [] => act tag body s1
      | c :: cs => respond m.via (rspBytes code tag (pickStatus (c :: cs)) []) s1)

def range (bad : Bool) : List Nat := if bad then [stRange] else []
def reserved (bad : Bool) : List Nat := if bad then [stBad] else []

/-! ### Health (R488) -/

/-- The units of a class, in ascending unit-id order. -/
def unitsOf (cls : Nat) : List Nat :=
  ((List.range (if cls = 2 then 0x180000 else 0x80000)).map (fun i => 0x10000000 * cls + i)).filter isUnit

/-- An entry of GET_HEALTH: what Lighthouse holds of a unit. -/
def healthEntry (s : State) (u : Nat) : List Byte :=
  let x := getUnit s u
  leBytes 4 u ++ leBytes 1 x.map.toNat ++ leBytes 1 x.live.toNat ++ leBytes 1 (max x.map.toNat x.live.toNat) ++ [0]

/-- GET_HEALTH. [DEDUCED: log 145] -/
def execGetHealth (m : LhMsg) (s : State) : Out :=
  message m 1 8 (fun _ => true)
    (fun _ b => reserved (field b 1 1 ≠ 0) ++ range (9 < field b 0 1 ∨ field b 2 2 = 0 ∨ 4094 < field b 2 2))
    (fun tag b t => respond m.via (rspBytes 1 tag stOk (leBytes 4 t.lh.epoch.toNat
      ++ (((unitsOf (field b 0 1)).drop (field b 4 4)).take (field b 2 2)).flatMap (healthEntry t))) t) s

/-- Units changed since an epoch, in the order of their changes. -/
def changedSince (s : State) (e : Word) : List (Nat × Word) :=
  let xs := (s.lh.map.filter (fun x => decide (x.2.epoch ≠ e ∧ (x.2.epoch - e).toNat < 2 ^ 31))).map (fun x => (x.1, x.2.epoch))
  sortBy (fun a b => decide ((a.2 - e).toNat ≤ (b.2 - e).toNat)) xs

/-- HEALTH_SINCE: with MORE, EPOCH is that of the last entry. -/
def execHealthSince (m : LhMsg) (s : State) : Out :=
  message m 2 4 (fun _ => true) (fun _ _ => [])
    (fun tag b t =>
      let all := changedSince t (BitVec.ofNat 32 (field b 0 4))
      let xs := all.take 4094
      let more := decide (4094 < all.length)
      let epoch := if more then ((xs.getLast?).map (·.2)).getD t.lh.epoch else t.lh.epoch
      respond m.via (rspBytes 2 tag stOk (leBytes 4 epoch.toNat ++ leBytes 2 xs.length ++ leBytes 1 (if more then 1 else 0) ++ [0]
        ++ xs.flatMap (fun x => healthEntry t x.1))) t) s

/-! ### The log (R478, R489) -/

/-- A record of 64 B (R478). -/
def logBytes (e : LogEntry) : List Byte :=
  let b := padTo 60 (leBytes 2 e.body.typ.toNat ++ leBytes 1 e.body.sev.toNat ++ leBytes 1 e.body.fn.toNat ++ leBytes 4 e.seq.toNat
    ++ leBytes 6 e.time ++ leBytes 2 e.boot.toNat ++ leBytes 4 e.body.unit.toNat ++ leBytes 4 e.body.tide.toNat ++ e.body.data)
  b ++ leBytes 4 (crc32c b).toNat

/-- GET_LOG (R489). [DEDUCED: log 145] -/
def execGetLog (m : LhMsg) (s : State) : Out :=
  message m 3 8 (fun _ => true)
    (fun _ b => reserved (field b 7 1 ≠ 0) ++ range (field b 4 2 = 0 ∨ 511 < field b 4 2 ∨ 1 < field b 6 1))
    (fun tag b t =>
      let from' : Word := BitVec.ofNat 32 (field b 0 4)
      let xs := ((if field b 6 1 = 1 then t.lh.journal else t.lh.log).filter (fun e => decide ((e.seq - from').toNat < 2 ^ 31))).take (field b 4 2)
      let first := ((xs.head?).map (fun e => e.seq.toNat)).getD from'.toNat
      respond m.via (rspBytes 3 tag stOk (leBytes 4 first ++ leBytes 2 xs.length ++ [0, 0] ++ xs.flatMap logBytes)) t) s

/-! ### Orders (R490) -/

/-- An order joins the others, and those that can run do. -/
def addOrder (m : LhMsg) (tag action unit : Nat) (s : State) : State :=
  settleOrders (updLh s (fun l => { l with orders := l.orders ++ [{ via := m.via, tag := tag, action := action, unit := unit }] }))

/-- UNIT_ORDER with an action. -/
def unitOrder (m : LhMsg) (action : Nat) (s : State) : Out :=
  message m 4 5 (fun b => decide (field b 4 1 = action)) (fun _ b => range (!isUnit (field b 0 4)))
    (fun tag b t => addOrder m tag action (field b 0 4) t) s

def execUnitOrderFence (m : LhMsg) (s : State) : Out := unitOrder m 1 s
def execUnitOrderRelease (m : LhMsg) (s : State) : Out := unitOrder m 2 s
def execUnitOrderRetire (m : LhMsg) (s : State) : Out := unitOrder m 3 s

/-- UNIT_ORDER SUSPECT; the row also answers an ACTION outside its range. [DESIGN CHOICE: log 144] -/
def execUnitOrderSuspect (m : LhMsg) (s : State) : Out :=
  message m 4 5 (fun b => !decide (1 ≤ field b 4 1 ∧ field b 4 1 ≤ 3))
    (fun _ b => range (!isUnit (field b 0 4) || decide (field b 4 1 ≠ 4))) (fun tag b t => addOrder m tag 4 (field b 0 4) t) s

/-- PORT_ORDER with a KIND, on UNIT or, for a failover, on FN. -/
def portMessage (m : LhMsg) (kind off : Nat) (s : State) : Out :=
  message m 5 3 (fun b => decide (field b 0 1 = kind)) (fun _ _ => []) (fun tag b t => addOrder m tag (4 + kind) (field b off 1) t) s

def execPortOrderBridgeDown (m : LhMsg) (s : State) : Out := portMessage m 1 1 s
def execPortOrderXlDown (m : LhMsg) (s : State) : Out := portMessage m 2 1 s
def execPortOrderXlRetrain (m : LhMsg) (s : State) : Out := portMessage m 3 1 s

/-- PORT_ORDER failover; the row also answers a KIND outside its range. [DESIGN CHOICE: log 144] -/
def execPortOrderFailover (m : LhMsg) (s : State) : Out :=
  message m 5 3 (fun b => !decide (1 ≤ field b 0 1 ∧ field b 0 1 ≤ 3)) (fun _ b => range (field b 0 1 ≠ 4))
    (fun tag b t => addOrder m tag 8 (field b 2 1) t) s

/-! ### Sensors, firmware, relays (R488) -/

/-- GET_SENSORS. -/
def execGetSensors (m : LhMsg) (s : State) : Out :=
  message m 6 4 (fun _ => true) (fun _ b => range (field b 2 2 = 0 ∨ 1024 < field b 2 2))
    (fun tag b t =>
      let ids := (((List.range 0xA000).filter isSensor).filter (fun i => decide (field b 0 2 ≤ i))).take (field b 2 2)
      respond m.via (rspBytes 6 tag stOk (ids.flatMap (fun i =>
        let r := lhSensor t i
        leBytes 2 i ++ leBytes 1 (if r.1 then 1 else 0) ++ [0] ++ leBytes 4 (r.2.getD 0).toNat))) t) s

/-- STATE of a bank: trial, active, valid or invalid. [DEDUCED: log 146] -/
def bankState (s : State) (b : Bool) : Nat :=
  let k := bankOf s b
  if k.trial then 2 else if s.lh.runB = b then 3 else if bankVerifies s k then 1 else 0

/-- GET_FW. [DEDUCED: log 146] -/
def execGetFw (m : LhMsg) (s : State) : Out :=
  message m 7 0 (fun _ => true) (fun _ _ => [])
    (fun tag _ t => respond m.via (rspBytes 7 tag stOk ([false, true].flatMap (fun b =>
      leBytes 4 (bankOf t b).image.version.toNat ++ leBytes 2 (bankOf t b).image.svn.toNat ++ leBytes 1 (bankState t b) ++ [0])
      ++ leBytes 2 t.lh.rollback.toNat)) t) s

/-- HB_RELAY: the Harbour's response is the body of the answer. Without one nothing is answered. -/
def execHbRelay (m : LhMsg) (reply : Option (List (BitVec 8))) (s : State) : Out :=
  let n := (msgData s m).length - 8
  message m 8 (max n 10) (fun _ => true) (fun _ b => reserved (field b 1 1 ≠ 0) ++ range (3 < field b 0 1))
    (fun tag _ t => match reply with
      | some r => respond m.via (rspBytes 8 tag stOk r) t
      | none => t) s

/-- LH_RESTART (R489): answered, and then Lighthouse restarts; the row also answers a MODE outside its range. -/
def execLhRestart (m : LhMsg) (s : State) : Out :=
  message m 9 4 (fun b => decide (field b 0 1 ≠ 1)) (fun _ b => reserved (field b 1 3 ≠ 0) ++ range (1 < field b 0 1))
    (fun tag _ t =>
      let t1 := respond m.via (rspBytes 9 tag stOk []) t
      updLh (restartLh t1) (fun l => { l with out := t1.lh.out })) s

/-- R489: the restarted Lighthouse runs a full bring-up from phase 2. -/
def startBringUp (s : State) : State :=
  let s1 := updPower (loseWafer s) (fun p => { p with bus := false, root := false, stopped := false })
  updUp s1 (fun u => { u with startUs := nowUs s, phaseUs := nowUs s })

/-- LH_RESTART with MODE 1 (R489): only while a lockout or a clock stop holds the module. -/
def execLhRestartBringup (m : LhMsg) (s : State) : Out :=
  message m 9 4 (fun b => decide (field b 0 1 = 1)) (fun t b => reserved (field b 1 3 ≠ 0) ++ range (!t.power.stopped))
    (fun tag _ t =>
      let t1 := respond m.via (rspBytes 9 tag stOk []) t
      updLh (restartLh (startBringUp t1)) (fun l => { l with out := t1.lh.out })) s

end Sys2Proof.Machine
end

