-- ==== Sys2Proof/Machine/Registers.lean ====
section
/-! DEFINITION. Machine/Registers.lean: the six register spaces, the commands and frames that read and write them, and the
seawall and monitor frames (R383, R471, R472, R474, R488, R555–R565). -/

namespace Sys2Proof.Machine

open Sys2Proof

/-! ### Registers -/

/-- Fields packed from the lowest bit upward, each as its width and value. -/
def pack : List (Nat × Nat) → Nat
  | [] => 0
  | (w, v) :: t => v % 2 ^ w + 2 ^ w * pack t

/-- A register of a space: where it begins, whether it is 8 B wide, its value, whether only hardware writes it (R557), and what a
write makes of the state. The write is given the register's value with the bits of VALUE taken where MASK is 1, VALUE under MASK,
and MASK; it answers none when the register refuses it. -/
structure Reg where
  base : Nat
  wide : Bool := false
  hw : Bool := false
  value : DWord
  put : DWord → DWord → DWord → State → Option State := fun _ _ _ s => some s

/-- A 4 B register that is read only. -/
def roReg (base : Nat) (fs : List (Nat × Nat)) : Reg := { base := base, value := BitVec.ofNat 64 (pack fs) }

/-- A 4 B register that only hardware writes. -/
def hwReg (base : Nat) (fs : List (Nat × Nat)) : Reg := { roReg base fs with hw := true }

/-- CNT_FREEZE of a group (R157). -/
def freezeReg (s : State) (u : Nat) : Reg :=
  { base := 0x7F00
    value := if isFrozen s u then 1 else 0
    put := fun _ v m t => some (if m.getLsbD 0 then ctrFreeze u (v.getLsbD 0) t else t) }

/-- RGN_RELOC[i] (R430). -/
def relocReg (s : State) (off : Nat) : Reg :=
  let i := (off - 0x1000) / 4
  match tget none s.reloc i with
  | none => hwReg off []
  | some n => hwReg off [(9, n), (1, 1)]

/-! ### The spaces (R556, R560–R562) -/

/-- Region space. -/
def regionReg (s : State) (n off : Nat) : Option Reg :=
  let r := getRegion s n
  if off = 0 then some (hwReg 0 [(5, r.owner.toNat), (1, r.owned.toNat), (5, r.last.toNat), (1, r.lastValid.toNat)])
  else if off = 4 then
    some { base := 4, value := r.scrubSeed.setWidth 64,
           put := fun new _ _ t => some (updRegion t n (fun r => { r with scrubSeed := new.setWidth 32 })) }
  else if off = 8 then
    some { roReg 8 [(1, r.scrubBusy.toNat), (1, r.scrubPass.toNat), (1, r.scrubDone.toNat), (10, r.scrubCoresOk.toNat)] with
           put := fun _ v _ t => some (updRegion t n (fun r => { r with scrubDone := w1c r.scrubDone (v.getLsbD 2) false })) }
  else if off = 0xC then some (roReg 0xC [(32, r.scrubSig.toNat)])
  else if off = 0x10 then
    some { roReg 0x10 [(24, r.chwLimit.toNat), (1, r.chwEn.toNat)] with
           put := fun new _ _ t =>
             if new.toNat % 2 ^ 24 < 1024 then none
             else some (updRegion t n (fun r => { r with chwLimit := new.setWidth 24, chwEn := new.getLsbD 24 })) }
  else if off = 0x14 then
    some { roReg 0x14 [(1, r.chwFired.toNat)] with
           put := fun _ v _ t => some (updRegion t n (fun r => { r with chwFired := w1c r.chwFired (v.getLsbD 0) false })) }
  else if off = 0x18 then
    some { roReg 0x18 [(5, r.w1.toNat), (5, r.w2.toNat)] with
           put := fun new _ _ t =>
             if new.extractLsb' 0 5 = 0 ∨ new.extractLsb' 5 5 = 0 then none
             else some (updRegion t n (fun r => { r with w1 := new.extractLsb' 0 5, w2 := new.extractLsb' 5 5 })) }
  else if off = 0x1C then
    some (roReg 0x1C [(4, r.lvl.toNat), (4, r.tl.toNat), (4, r.gl.toNat), (5, (Config.vset n).toNat), (1, (powerGood s n).toNat)])
  else if 0x80 ≤ off ∧ off < 0x100 then
    let x := slideOf s n ((off - 0x80) / 4)
    some (hwReg off [(5, x.point.toNat), (1, x.temp.toNat)])
  else if 0x100 ≤ off ∧ off < 0x140 then
    let w := (off - 0x100) / 4
    some { base := off, value := (r.ownMap.extractLsb' (32 * w) 32).setWidth 64,
           put := fun new _ _ t => some (updRegion t n (fun r =>
             { r with
               ownMap := (r.ownMap &&& ~~~((0xFFFFFFFF#512) <<< (32 * w))) ||| ((new.setWidth 32).setWidth 512 <<< (32 * w)) })) }
  else if 0x200 ≤ off ∧ off < 0x240 then
    let o := (off - 0x200) / 4
    let x := getObj s n o
    some { roReg off [(3, x.kind.toNat), (16, x.init.toNat)] with
           put := fun new _ _ t =>
             if syncCfgOk t n o (new.extractLsb' 0 3) (new.extractLsb' 3 16) then
               some (syncCfgWrite t n o (new.extractLsb' 0 3) (new.extractLsb' 3 16))
             else none }
  else if 0x280 ≤ off ∧ off < 0x300 then
    let o := (off - 0x280) / 8
    let x := getObj s n o
    some { roReg (0x280 + 8 * o)
             [(1, x.held.toNat), (1, x.forfeit.toNat), (16, x.count.toNat), (11, (waitersOf s n o).length), (3, 0), (18, x.holder.toNat),
              (4, x.holderMod.toNat), (3, x.holderEng.toNat), (1, x.holderValid.toNat)] with
           wide := true }
  else if 0x1000 ≤ off ∧ off < 0x1800 then some (relocReg s off)
  else if off = 0x7F00 then some (freezeReg s (uRegion n))
  else none

/-- R80: the class rules of a CORE_SLOT value. -/
def slotOk (v : DWord) : Bool :=
  let kind := (v.extractLsb' 25 2).toNat
  let static := v.getLsbD 27
  let open' := decide (v.extractLsb' 32 12 = 0xFFF)
  decide (kind ≠ 3) && !(decide (kind = 2) && !static) && decide (static ≠ open')

/-- CORE_PSTATE as a number. -/
def pstateOf (k : Core) : Nat := pack [(7, k.psBase.toNat), (4, k.psSize.toNat), (1, k.sel.toNat), (1, k.mirrorEn.toNat)]

/-- Core space. -/
def coreReg (s : State) (key off : Nat) : Option Reg :=
  let k := getCore s key
  if off = 0 then
    some { roReg 0 [(24, k.part.toNat)] with
           put := fun new _ _ t =>
             let c := getCore t key
             if c.engine.isSome || !partOk (new.toNat % 2 ^ 24) || !pstateOk (new.toNat % 2 ^ 24) (pstateOf c) then none
             else some (updCore t key (fun c => { c with part := new.setWidth 24 })) }
  else if off = 4 then
    some { roReg 4 [(13, pstateOf k)] with
           put := fun new _ _ t =>
             let c := getCore t key
             if c.engine.isSome || !pstateOk c.part.toNat (new.toNat % 2 ^ 11) then none
             else some (updCore t key (fun c =>
               { c with
                 psBase := new.extractLsb' 0 7
                 psSize := new.extractLsb' 7 4
                 mirrorEn := new.getLsbD 12 })) }
  else if 8 ≤ off ∧ off < 0x10 then
    some { hwReg 8 [(32, k.mirrorTide.toNat), (1, k.mirrorValid.toNat)] with wide := true }
  else if 0x10 ≤ off ∧ off < 0x18 then
    some { roReg 0x10 [(8, k.fault.code.toNat), (12, k.fault.pc.toNat), (1, k.fault.valid.toNat), (11, 0), (32, k.fault.tide.toNat)] with
           wide := true
           put := fun _ v _ t => some (updCore t key (fun c =>
             { c with fault := { c.fault with valid := w1c c.fault.valid (v.getLsbD 20) false } })) }
  else if off = 0x18 then
    some { roReg 0x18 [(8, k.staticQ.toNat), (1, (discards s key).toNat)] with
           put := fun new _ _ t =>
             if (getCore t key).engine.isSome then none else some (updCore t key (fun c => { c with staticQ := new.setWidth 8 })) }
  else if 0x100 ≤ off ∧ off < 0x200 then
    let i := (off - 0x100) / 8
    let x := getSlot k i
    some { roReg (0x100 + 8 * i)
             [(18, x.dst.toNat), (4, x.module.toNat), (3, x.queue.toNat), (2, x.kind.toNat), (1, x.static.toNat), (1, x.broken.toNat),
              (3, 0), (12, x.channel.toNat)] with
           wide := true
           put := fun new _ _ t =>
             if (getCore t key).engine.isSome || !slotOk new then none
             else some (updCore t key (setSlot i (fun x =>
               { x with
                 dst := new.extractLsb' 0 18
                 module := new.extractLsb' 18 4
                 queue := new.extractLsb' 22 3
                 kind := new.extractLsb' 25 2
                 static := new.getLsbD 27
                 channel := new.extractLsb' 32 12 }))) }
  else if off = 0x7F00 then some (freezeReg s (uCore key))
  else none

/-- Router space (R560). -/
def routerReg (s : State) (key off : Nat) : Option Reg :=
  if off = 0 then some (hwReg 0 [(32, (rtrRoute s key).toNat)])
  else if 0x100 ≤ off ∧ off < 0x200 then
    let g := (off - 0x100) / 4
    some { roReg off [(5, (tget 0 (getRouter s key).mcast g).toNat)] with
           put := fun new _ _ t =>
             if g = 63 ∨ t.load.any (fun l => l.group = g) then none
             else some (updRouter t key (fun r => { r with mcast := tset 0 r.mcast g (new.setWidth 5) })) }
  else none

/-- Bridge space. -/
def bridgeReg (s : State) (b off : Nat) : Option Reg :=
  let r := getBridge s b
  if off = 0 then some (roReg 0 [(3, r.shiState.toNat), (4, r.grpOut.toNat), (3, r.cause.toNat), (2, r.failGrp.toNat)])
  else if off = 4 then
    some { roReg 4 [(12, r.tailTimeout.toNat), (6, r.tailBurst.toNat)] with
           put := fun new _ _ t =>
             let burst := (new.extractLsb' 12 6).toNat
             if (new.extractLsb' 0 12).toNat < 8 ∨ burst < 4 ∨ 32 < burst then none
             else some (updBridge t b (fun r => { r with tailTimeout := new.extractLsb' 0 12, tailBurst := new.extractLsb' 12 6 })) }
  else if off = 8 ∧ b % 2 = 0 then
    some { roReg 8 [(10, r.wmHigh.toNat), (10, r.wmLow.toNat), (1, r.wmHold.toNat)] with
           put := fun new _ _ t =>
             let high := (new.extractLsb' 0 10).toNat
             let low := (new.extractLsb' 10 10).toNat
             if high < 64 ∨ 960 < high ∨ high < low + 64 then none
             else some (updBridge t b (fun r => { r with wmHigh := new.extractLsb' 0 10, wmLow := new.extractLsb' 10 10 })) }
  else if 0x1000 ≤ off ∧ off < 0x1800 then some (relocReg s off)
  else if off = 0x7F00 then some (freezeReg s (uBridge b))
  else none

/-- Harbour space: the registers of the Harbour, or of a channel. -/
def harbourReg (s : State) (unit off : Nat) : Option Reg :=
  let q := unit / 32 % 4
  let ch := unit % 32
  let key := chanKey q ch
  let c := getChan s key
  if unit / 128 = 1 then
    if off = 0 then some (roReg 0 [(8, Config.idStepMinor.toNat / 256), (8, 1), (16, 0x5B01)])
    else if 0x1000 ≤ off ∧ off < 0x1800 then
      match tget none (getHarbour s q).rgnEng ((off - 0x1000) / 4) with
      | none => some (hwReg off [])
      | some e => some (hwReg off [(3, e.val), (1, 1)])
    else if off = 0x7F00 then some (freezeReg s (uHarbour q))
    else none
  else if off = 0 then
    some { roReg 0 [(1, c.mode.toNat)] with
           put := fun _ v m t =>
             if !m.getLsbD 1 then some t
             else if modeRefused t key then none
             else some (switchMode key (v.getLsbD 1) t) }
  else if off = 4 then
    some (roReg 4 [(1, 0), (1, c.zeroing.toNat), (5, c.owner.toNat), (1, c.owned.toNat), (3, eff s (uChannel q ch)), (2, c.band.toNat),
      (5, c.last.toNat), (1, c.lastValid.toNat)])
  else if off = 8 then
    some { roReg 8 [(15, c.limit.toNat)] with
           put := fun new _ _ t =>
             let v := (new.extractLsb' 0 15).toNat
             if v < 768 ∨ 24576 < v then none else some (updChan t key (fun c => { c with limit := new.extractLsb' 0 15 })) }
  else none

/-- RETRAINS: those of the last 24 h. -/
def recentRetrains (s : State) (q : Port) : Nat := (q.retrainUs.filter (fun u => decide (nowUs s < u + 86400000000))).length

/-- Xeulend port space. -/
def portReg (s : State) (p off : Nat) : Option Reg :=
  let q := getPort s p
  if off = 0 then
    some (roReg 0 [(3, q.pstate.toNat), (2, q.partner.toNat), (4, q.partnerPort.toNat), (3, q.cause.toNat), (3, recentRetrains s q),
      (10, q.alignDelay.toNat)])
  else none

/-! ### Units (R383, R556) -/

/-- The physical position that a router UNIT or a physical core UNIT names. -/
def unitKey (unit : Nat) : Nat := coreKey (unit % 512) (unit / 512 % 32) (unit / 16384 % 32)

/-- The core of a core UNIT: logical, or physical with bit 24. -/
def coreOfUnit (s : State) (unit : Nat) : Nat := if unit / 0x1000000 = 1 then unitKey unit else carrier s unit

/-- UNIT is well formed for its space: every unused bit is 0. -/
def unitOk (space unit : Nat) : Bool :=
  match space with
  | 0 => decide (unit < 512)
  | 1 => decide (unit < 0x40000) || (decide (unit / 0x80000 = 32) && decide (unit / 16384 % 32 ≤ 16))
  | 2 => decide (unit < 0x80000 ∧ unit / 16384 ≤ 16)
  | 3 => decide (unit < 32)
  | 4 => decide (unit < 256) && !(decide (unit / 128 = 1) && decide (unit % 32 ≠ 0))
  | 5 => decide (unit < 16)
  | _ => false

/-- The register at an offset of a unit. -/
def regAt (s : State) (space unit off : Nat) : Option Reg :=
  match space with
  | 0 => regionReg s unit off
  | 1 => coreReg s (coreOfUnit s unit) off
  | 2 => routerReg s (unitKey unit) off
  | 3 => bridgeReg s unit off
  | 4 => harbourReg s unit off
  | _ => portReg s unit off

/-- R556: a write in physical form reaches only a core that carries no logical column. -/
def physRefused (s : State) (space unit : Nat) : Bool :=
  decide (space = 1) && decide (unit / 0x1000000 = 1) && (logicalId s (unitKey unit)).isSome

/-- A region controller answers: its region has power and is not offline. [DEDUCED: log 8] -/
def regionAnswers (s : State) (n : Nat) : Bool := (getRegion s n).powered && !regionOffline s n

/-- The unit answers requests of the Configuration Engine (R383). [DEDUCED: log 8] -/
def unitAnswers (s : State) (space unit : Nat) : Bool :=
  match space with
  | 0 => regionAnswers s unit
  | 1 => regionAnswers s (if unit / 0x1000000 = 1 then unit % 512 else unit / 512)
  | 2 => regionAnswers s (unit % 512)
  | 3 => !bridgeDown s unit
  | 4 => (harbourPort s (unit / 32 % 4) (unit % 32)).isSome && (getHarbour s (unit / 32 % 4)).powered
  | _ => !bridgeDown s (2 * unit)

/-! ### The counter window (R561, R563) -/

/-- Counter unit and number that a window number names, if it holds a counter. [DEDUCED: log 155] -/
def windowCounter (s : State) (space unit n : Nat) : Option (Nat × Nat) :=
  match space with
  | 0 =>
    if n < 18 then some (uRegion unit, n)
    else if 0x40 ≤ n ∧ n < 0x47 then some (uRegion unit, rLandFail + (n - 0x40)) else none
  | 1 => if coreCounter n then some (uCore (coreOfUnit s unit), n) else none
  | 3 =>
    if (n < 36 ∧ ¬(unit % 2 = 1 ∧ 24 ≤ n ∧ n ≤ 26)) ∨ n = bEgrFail ∨ n = bRelayFail then some (uBridge unit, n) else none
  | 4 => if unit / 128 = 0 ∧ n < 8 then some (uChannel (unit / 32 % 4) (unit % 32), n) else none
  | 5 => if n < 9 then some (uPort unit, n) else none
  | _ => none

/-- A write of the masked bits of CNT_LO or CNT_HI; a word with no bit in MASK is not written. [DEDUCED: log 154] -/
def windowWrite (path u n : Nat) (high : Bool) (v m : Word) (s : State) : State :=
  if m = 0 then s
  else if high then
    ctrHiWrite path u n (((((tget 0 s.cnt.staged (snapKey u path)).setWidth 32 &&& ~~~m) ||| (v &&& m)) &&& 0xFFFF#32)
      ||| (v &&& m &&& 0x30000#32)) 0 s
  else ctrLoWrite path u n (((getCtr s u n).val.setWidth 32 &&& ~~~m) ||| (v &&& m)) 0 s

/-- CNT_LO and CNT_HI of a counter as they stand, for the read-back of a write. -/
def windowNow (u n : Nat) (s : State) : DWord :=
  let v := ctrRead s u n
  let c := getCtr s u n
  BitVec.ofNat 64 (pack [(48, v.toNat), (1, c.ovf.toNat), (1, c.wcol.toNat)])

/-- An access in the counter window: its status, the value read or read back, and the state. [DEDUCED: log 154] -/
def windowAccess (path u n : Nat) (high wide write : Bool) (value mask : DWord) (s : State) : Nat × DWord × State :=
  if write then
    let s1 :=
      if wide then windowWrite path u n false (value.setWidth 32) (mask.setWidth 32)
        (windowWrite path u n true (value.extractLsb' 32 32) (mask.extractLsb' 32 32) s)
      else windowWrite path u n high (value.setWidth 32) (mask.setWidth 32) s
    let now := windowNow u n s1
    (stOk, if wide then now else if high then (now.extractLsb' 32 32).setWidth 64 else (now.setWidth 32).setWidth 64, s1)
  else if wide then
    let r := ctrLoRead path u n s
    (stOk, (ctrHi path u n r.2 ++ r.1 : BitVec 64), r.2)
  else if high then (stOk, (ctrHi path u n s).setWidth 64, s)
  else
    let r := ctrLoRead path u n s
    (stOk, r.1.setWidth 64, r.2)

/-! ### Access (R383, R544, R545, R557, R558) -/

/-- The registers that an access covers. [DEDUCED: log 152] -/
def covered (s : State) (space unit off : Nat) (wide : Bool) : List Reg :=
  let r0 := (regAt s space unit off).toList
  if wide then r0 ++ ((regAt s space unit (off + 4)).filter (fun r => r0.all (fun x => decide (x.base ≠ r.base)))).toList else r0

/-- Bits of an access as they lie in a register. -/
def toReg (off : Nat) (wide : Bool) (r : Reg) (v : DWord) : DWord :=
  if wide then (if r.wide then v else (v >>> (8 * (r.base - off))) &&& 0xFFFFFFFF#64)
  else (v &&& 0xFFFFFFFF#64) <<< (8 * (off - r.base))

/-- A register's value as it lies in an access. -/
def fromReg (off : Nat) (wide : Bool) (r : Reg) : DWord :=
  if wide then r.value <<< (8 * (r.base - off)) else (r.value >>> (8 * (off - r.base))) &&& 0xFFFFFFFF#64

/-- The value that an access reads. -/
def regsValue (s : State) (space unit off : Nat) (wide : Bool) : DWord :=
  (covered s space unit off wide).foldl (fun v r => v ||| fromReg off wide r) 0

/-- A write of one register, and whether it was refused (R545, R558). [DEDUCED: log 153] -/
def putReg (off : Nat) (wide : Bool) (value mask : DWord) (x : Bool × State) (r : Reg) : Bool × State :=
  let m := toReg off wide r mask
  let v := toReg off wide r value &&& m
  match r.put ((r.value &&& ~~~m) ||| v) v m x.2 with
  | none => (true, x.2)
  | some t => (x.1, t)

/-- A register request at its unit, on a path: 0 Configuration Engine, 1 Lighthouse. The answer is its status, the value read or
read back, and the state. [DEDUCED: log 152, 153] -/
def regAccess (path space unit off : Nat) (wide write : Bool) (value mask : DWord) (s : State) : Nat × DWord × State :=
  let size := if wide then 8 else 4
  if !unitOk space unit || decide (off % size ≠ 0) || (write && physRefused s space unit) then (stRange, 0, s)
  else if 0x8000 ≤ off then
    match windowCounter s space unit ((off - 0x8000) / 8) with
    | none => (stRange, 0, s)
    | some (u, n) => windowAccess path u n (decide (off % 8 = 4)) wide write value mask s
  else
    let rs := covered s space unit off wide
    if rs.isEmpty then (stRange, 0, s)
    else if !write then (stOk, regsValue s space unit off wide, s)
    else if rs.any (·.hw) then (stRange, regsValue s space unit off wide, s)
    else
      let x := rs.foldl (putReg off wide value mask) (false, s)
      (if x.1 then stRange else stOk, regsValue x.2 space unit off wide, x.2)

/-! ### REG_READ and REG_WRITE (R383, R558) -/

/-- The request of a REG_READ or REG_WRITE: SPACE, SIZE, UNIT, OFFSET. -/
def regCodesOk (x : Job) : Bool := decide (cmdNat x 4 1 ≤ 5 ∧ cmdNat x 5 1 ≤ 1) && unitOk (cmdNat x 4 1) (cmdNat x 8 4)

/-- A register command: it completes with its answer, or waits for a unit that does not answer. -/
def regCommand (j op : Nat) (s : State) : State :=
  startJob 12 j op (fun x t =>
    if !regCodesOk x then endJob 12 j stRange (leBytes 8 0) t
    else if !unitAnswers t (cmdNat x 4 1) (cmdNat x 8 4) then t
    else
      let r := regAccess 0 (cmdNat x 4 1) (cmdNat x 8 4) (cmdNat x 12 4) (decide (cmdNat x 5 1 = 1)) (decide (op = 0x33))
        (BitVec.ofNat 64 (cmdNat x 0x10 8)) (BitVec.ofNat 64 (cmdNat x 0x18 8)) t
      endJob 12 j r.1 (leBytes 8 r.2.1.toNat) r.2.2) s

/-- REG_READ. -/
def execRegRead (j : Nat) (s : State) : Out := clocked s <| .next (regCommand j 0x32 s)

/-- REG_WRITE. -/
def execRegWrite (j : Nat) (s : State) : Out := clocked s <| .next (regCommand j 0x33 s)

/-- REG_TIMEOUT (R383): the unit has not answered within 100 µs. -/
def execRegTimeout (j : Nat) (s : State) : Out := clocked s <|
  .next (match getJob s 12 j with
    | none => s
    | some x =>
      if (opByte x.cmd = 0x32 ∨ opByte x.cmd = 0x33) ∧ x.started ∧ x.prog = .wait then
        endJob 12 j stTimeout (leBytes 8 0) (untilUs (x.since + 100) s)
      else s)

/-! ### Frames and HB_REG (R471, R472, R474, R488) -/

/-- The node takes frames from its ring or link; one without power passes them on (R471). -/
def nodeTakes (s : State) : Node → Bool
  | .lighthouse => lhUp s
  | .region n => clocksRun s && (getRegion s n.val).powered
  | .bridge _ => clocksRun s

/-- The unit of a REG frame lies at the node. -/
def nodeHas (k space unit : Nat) : Bool :=
  if k < 512 then
    (decide (space = 0) && decide (unit = k)) || (decide (space = 2) && decide (unit % 512 = k))
      || (decide (space = 1) && decide ((if unit / 0x1000000 = 1 then unit % 512 else unit / 512) = k))
  else (decide (space = 3) && decide (512 + unit = k)) || (decide (space = 5) && decide (512 + 2 * unit = k))

/-- What the body of a frame does at its receiver (R471). [DEDUCED: log 156, 157] -/
def takeBody (k : Nat) (b : FrameBody) (s : State) : State :=
  match b with
  | .other _ => s
  | .reg write space unit off wide value mask =>
    if k = 1022 then s
    else
      let r := if nodeHas k space.val unit.toNat then regAccess 1 space.val unit.toNat off.toNat wide write value mask s
        else (stRange, 0, s)
      updNode r.2.2 k (fun x => { x with answer := some (BitVec.ofNat 16 r.1, r.2.1) })
  | .scrub seed =>
    if 512 ≤ k ∨ (getRegion s k).engine.isSome ∨ (getRegion s k).scrubBusy ∨ s.dbg.coreSib.getLsbD k then s
    else updRegion s k (fun r => { r with scrubSeed := seed, scrubBusy := true })
  | .slideBack row => if k < 512 then slideBack k row.val [] s else s
  | .test row col => if k < 512 then dueAtOnce (coreKey k row.val col.val) s else s

/-- SEAWALL_FRAME (R472, R474): a good frame is taken once and answered with ACK, the second copy too; TELEMETRY (0x04) is never
acknowledged (R473), and an ACK
(0x08) is not answered. One end of every frame is Lighthouse. [DEDUCED: log 156] -/
def execSeawallFrame (f : SwFrame) (s : State) : Out :=
  let src := nodeKey f.src
  let dst := nodeKey f.dst
  let one := (src, f.seq.toNat)
  let old := (getNode s dst).seen
  .next (if !f.good || !nodeTakes s f.dst || (src == 1022) == (dst == 1022) then s
    else match f.body with
      | .other 0x04 => s
      | .other 0x08 => s
      | b =>
        let s1 := updNode s dst (fun x =>
          { x with
            lastAck := nowUs s
            ijtag := none })
        if old.contains one then s1
        else takeBody dst b (updNode s1 dst (fun x =>
          { x with
            seen := one :: x.seen.filter (fun y => decide (y.1 ≠ src) || decide ((f.seq.toNat + 65536 - y.2 % 65536) % 65536 < 32768)) })))

/-- HB_REG (R488): Lighthouse reads or writes a register of a Harbour over its management pair. -/
def execHbReg (write : Bool) (unit off : BitVec 32) (wide : Bool) (value mask : BitVec 64) (s : State) : Out :=
  let q := unit.toNat / 32 % 4
  let r := regAccess 1 4 unit.toNat off.toNat wide write value mask s
  .next (if !lhRuns s || !(getHarbour s q).powered then s
    else updNode r.2.2 (1024 + q) (fun x => { x with answer := some (BitVec.ofNat 16 r.1, r.2.1) }))

end Sys2Proof.Machine
end

