-- ==== Sys2Proof/Machine/Debug.lean ====
section
/-! DEFINITION. Machine/Debug.lean: the test access chain, the IJTAG network, boundary scan, sounding pins and the filtered pins
(R470, R524–R540, R569–R574). -/

namespace Sys2Proof.Machine

open Sys2Proof

def updDbg (s : State) (f : Debug → Debug) : State := { s with dbg := f s.dbg }

/-! ### The master (R526, R527) -/

/-- DBG_CTL_WRITE (R527): EXT_EN connects or disconnects the external TAP; PREEMPTED is W1C. -/
def execDbgCtlWrite (v : BitVec 32) (s : State) : Out := clocked s <|
  .next (if !barOpen s 0 then s
    else settleSession s false (updDbg s (fun d =>
      { d with
        extEn := v.getLsbD 0
        preempted := w1c d.preempted (v.getLsbD 3) false })))

/-- LH_PREEMPT (R526, R527): Lighthouse takes the chain, or releases it once it has finished. -/
def execLhPreempt (release : Bool) (s : State) : Out :=
  .next (if lhUp s then settleSession s true (updDbg s (fun d => { d with lhHold := !release })) else s)

/-! ### TAP instructions (R528, R529, R536) -/

/-- The instruction register of a TAP: bridges 0 to 31, the wafer 32. -/
def irOf (s : State) (k : Nat) : BitVec 8 := tget 2 s.dbg.ir k

/-- IDCODE of a part: MINOR, the part, the manufacturer and 1 (R529). -/
def idcodeOf (part : Nat) : Word := BitVec.ofNat 32 (pack [(1, 1), (11, 0x2C5), (16, part), (4, Config.idStepMinor.toNat / 16)])

/-- The master scans the chain: the external TAP with TRST_N high while it drives it, else Lighthouse while it holds it. -/
def mayScan (ext : Bool) (s : State) : Bool := if ext then extDrives s && !s.dbg.trst else s.dbg.lhHold && lhUp s

/-- The TAP is in the chain. -/
def inChain (s : State) (k : Nat) : Bool := decide (k = 32) || (chainNow s).getLsbD k

/-- A TAP takes an instruction; its data register captures a word; only EXTEST drives pins. -/
def setTap (k : Nat) (code : BitVec 8) (capture : Word) (drive : Option (BitVec 32)) (s : State) : State :=
  updDbg s (fun d =>
    { d with
      ir := tset 2 d.ir k code
      dr := tset 0 d.dr k capture
      driven := tset none d.driven k drive })

/-- The stub TAP takes IDCODE, or any other instruction as BYPASS (R526). -/
def stubTap (id : Bool) (s : State) : State :=
  if s.dbg.trst then s
  else updDbg s (fun d =>
    { d with
      stubIr := if id then 1 else 3
      dr := tset 0 d.dr 33 (if id then idcodeOf 0xC512 else 0) })

/-- An instruction scanned into a TAP, by the external TAP or by Lighthouse; the scan ends in Run-Test/Idle (R525). -/
def scanIr (ext : Bool) (k : Nat) (id : Bool) (act : State → State) (s : State) : State :=
  if ext && !extDrives s then stubTap id s
  else if mayScan ext s && inChain s k then settleChain (act s)
  else s

def bypassTap (k : Nat) (s : State) : State := setTap k 0xFF 0 none s

/-- Cells of a bridge's boundary register (R536). -/
def cells (b : Nat) : Nat := (if b % 2 = 0 then 4 else 0) + (if b = 8 ∨ b = 24 then 2 else 0) + (if b = 0 then 8 else 0)

def cellMask (b : Nat) : BitVec 32 := BitVec.ofNat 32 (2 ^ cells b - 1)

/-- EXTEST (R536): only while the bridge is down or after a fatal exit; otherwise, and at the wafer, BYPASS. -/
def execExtest (ext : Bool) (tap : Fin 33) (s : State) : Out :=
  let k := tap.val
  let reg := tget 0 s.dbg.boundary k
  .next (scanIr ext k false
    (if decide (k < 32) && (bridgeDown s k || s.up.fatal) then setTap k 0x00 reg (some reg) else bypassTap k) s)

/-- SAMPLE_PRELOAD (R536): the pins are captured, and the boundary register takes the data scanned in. -/
def execSamplePreload (ext : Bool) (tap : Fin 33) (pins data : BitVec 32) (s : State) : Out :=
  let k := tap.val
  .next (scanIr ext k false
    (if k < 32 then fun t => setTap k 0x01 (pins &&& cellMask k) none
        (updDbg t (fun d => { d with boundary := tset 0 d.boundary k (data &&& cellMask k) }))
      else bypassTap k) s)

/-- IDCODE (R529). -/
def execIdcode (ext : Bool) (tap : Fin 33) (s : State) : Out :=
  let k := tap.val
  .next (scanIr ext k true (setTap k 0x02 (idcodeOf (if k = 32 then 0xA512 else 0xB512)) none) s)

/-- IJSEL (R528, R530): the wafer TAP alone accepts it. -/
def execIjsel (ext : Bool) (tap : Fin 33) (s : State) : Out :=
  let k := tap.val
  .next (scanIr ext k false (if k = 32 then setTap k 0x10 0 none else bypassTap k) s)

/-- BYPASS, and every code that is no instruction (R528). -/
def execBypass (ext : Bool) (tap : Fin 33) (s : State) : Out := .next (scanIr ext tap.val false (bypassTap tap.val) s)

/-! ### The IJTAG network (R530–R534) -/

/-- The master scans the network. -/
def netOpen (ext : Bool) (s : State) : Bool := mayScan ext s && decide (irOf s 32 = 0x10)

/-- R531: the region's segment-insertion bit takes a 1. -/
def segOpens (s : State) (n : Nat) : Bool := (getRegion s n).powered && !s.up.silent.contains n

def setBit (w : BitVec 512) (n : Nat) : BitVec 512 := w ||| (1#512 <<< n)
def clearBit (w : BitVec 512) (n : Nat) : BitVec 512 := w &&& ~~~(1#512 <<< n)

/-- UNIT of a REGACC operation, if LOCAL fits its space. [DEDUCED: log 181] -/
def localUnit (n : Nat) (space : Fin 4) (row col : BitVec 5) : Option Nat :=
  match space.val with
  | 0 => if row = 0 ∧ col = 0 then some n else none
  | 1 => if col.toNat < 16 then some (512 * n + 16 * row.toNat + col.toNat) else none
  | 2 => if col.toNat < 17 then some (coreKey n row.toNat col.toNat) else none
  | _ => none

/-- The access of a REGACC operation is 8 B wide when the register is: DATA holds the whole register. [DEDUCED: log 158] -/
def wideAt (s : State) (space unit off : Nat) : Bool :=
  decide (off % 8 = 0) && (decide (0x8000 ≤ off) || (regAt s space unit off).any (·.wide))

/-- A REGACC operation (R532): the region's segment and control sub-segment are open, the operation runs at Update-DR, and STATUS
and DATA are what the next Capture-DR finds. [DEDUCED: log 158] -/
def regacc (ext write : Bool) (n : Nat) (space : Fin 4) (row col : BitVec 5) (off : BitVec 16) (data : DWord) (s : State) : State :=
  if !netOpen ext s || !segOpens s n then s
  else
    let s1 := updDbg s (fun d =>
      { d with
        seg := setBit d.seg n
        ctlSib := setBit d.ctlSib n })
    let barred := ext && write && ((getRegion s n).owned || decide (eff s (uRegion n) = 3))
    let r : Nat × DWord × State := match localUnit n space row col with
      | none => (stRange, 0, s1)
      | some u =>
        if barred then (stRange, 0, s1)
        else regAccess 1 space.val u off.toNat (wideAt s space.val u off.toNat) write data (BitVec.allOnes 64) s1
    updDbg r.2.2 (fun d => { d with acc := tset (0, 0) d.acc n (if r.1 = stOk then 0 else 1, r.2.1) })

/-- REGACC_READ. -/
def execRegaccRead (ext : Bool) (region : Fin 512) (space : Fin 4) (row col : BitVec 5) (off : BitVec 16) (s : State) : Out :=
  .next (regacc ext false region.val space row col off 0 s)

/-- REGACC_WRITE. -/
def execRegaccWrite (ext : Bool) (region : Fin 512) (space : Fin 4) (row col : BitVec 5) (off : BitVec 16) (data : BitVec 64)
    (s : State) : Out :=
  .next (regacc ext true region.val space row col off data s)

/-- R533: a region is clean. -/
def regionClean (s : State) (n : Nat) : Bool :=
  let r := getRegion s n
  r.clean && !r.owned && decide (eff s (uRegion n) ≠ 3) && r.engine.isNone && !r.held && !r.scrubBusy

/-- CORE_SIB_OPEN (R533): the cores stop, with their clocks held to the scan. -/
def execCoreSibOpen (ext : Bool) (region : Fin 512) (s : State) : Out :=
  let n := region.val
  .next (if !netOpen ext s || !segOpens s n || !regionClean s n || s.dbg.coreSib.getLsbD n then s
    else
      let s1 := forAll (regionCores n) (fun k t => updCore t k (fun c => { c with run := .stopped })) (abandonTest n s)
      debugSession 3 (if ext then 1 else 0) n (updDbg s1 (fun d =>
        { d with
          seg := setBit d.seg n
          coreSib := setBit d.coreSib n })))

/-- CORE_SIB_CLOSE (R143, R534): every core gets a core reset, and the region is no longer clean. -/
def execCoreSibClose (ext : Bool) (region : Fin 512) (s : State) : Out :=
  let n := region.val
  .next (if !netOpen ext s || !s.dbg.coreSib.getLsbD n then s
    else
      let s1 := forAll (regionCores n) (fun k t => forfeitCore k (updCore (countIngest k t) k coreReset)) s
      let s2 := updRegion s1 n (fun r =>
        { r with
          clean := false
          scanned := true })
      debugSession 4 (if ext then 1 else 0) n (updDbg s2 (fun d => { d with coreSib := clearBit d.coreSib n })))

/-! ### Sounding pins (R537, R538) -/

def sndSource (v : Word) : Nat := (v.extractLsb' 0 2).toNat
def sndUnit (v : Word) : Nat := (v.extractLsb' 2 9).toNat
def sndSignal (v : Word) : Nat := (v.extractLsb' 11 6).toNat

/-- R537: the selection names a signal of its source and a unit that has it. [DEDUCED: log 161] -/
def sndOk (v : Word) : Bool :=
  let sig := sndSignal v
  let u := sndUnit v
  match sndSource v with
  | 0 => true
  | 1 => decide (sig ≤ 5) && (!(decide (1 ≤ sig ∧ sig ≤ 3)) || decide (u ≤ 7))
  | 2 =>
    decide (0x10 ≤ sig ∧ sig ≤ 0x18 ∧ u < 32) && (!(decide (sig = 0x12 ∨ sig = 0x13)) || decide (u % 2 = 0))
      && (!(decide (0x17 ≤ sig)) || decide (u = 8 ∨ u = 24))
  | _ => decide (0x20 ≤ sig ∧ sig ≤ 0x28)

/-- R538: other pins that select region signals. -/
def regionPins (s : State) (k : Nat) : Nat :=
  ((List.range 8).filter (fun i => decide (i ≠ k) && decide (sndSource (tget 0 s.dbg.snd i) = 3))).length

/-- SND_SEL_WRITE (R537, R538, R540). Its record's SOURCE is neither Lighthouse nor the external TAP (log 18).
[DESIGN CHOICE: log 18] -/
def execSndSelWrite (k : Fin 8) (v : BitVec 32) (s : State) : Out := clocked s <|
  .next (if !barOpen s 0 ∨ !sndOk v ∨ (sndSource v = 3 ∧ 2 ≤ regionPins s k.val) then s
    else debugSession 5 (Config.causeByte 0x1201 5).toNat (if sndSource v = 3 then sndUnit v else 0xFFFF)
      (updDbg s (fun d => { d with snd := tset 0 d.snd k.val (v &&& 0x3FFFF#32) })))

/-! ### Filtered pins and the input supply (R470, R569, R571, R573, R574) -/

/-- TRST_N (R571): its deglitched level; low, it puts the TAPs that the connector reaches in Test-Logic-Reset.
[DEDUCED: log 162] -/
def execTrstN (low : Bool) (s : State) : Out :=
  let s1 := updDbg s (fun d => { d with trst := low })
  .next (if !low then s1 else if extDrives s then tapReset s1 else updDbg s1 (fun d => { d with stubIr := 1 }))

/-- PERST_N of a host port (R574): asserted, it takes the link out of L0. [DEDUCED: log 163] -/
def execPerstN (port : Fin 2) (low : Bool) (s : State) : Out := clocked s <|
  let s1 := updHport s port.val (fun h => { h with perst := low })
  .next (if low ∧ (getHport s port.val).l0 then linkChange port.val false s1 else s1)

/-- SMB_CLOCK_LOW_TIMEOUT (R573): a transaction leaves nothing behind when it is abandoned. [DEDUCED: log 164] -/
def execSmbClockLowTimeout (s : State) : Out := .next (if lhUp s then bump uModule 12 s else s)

/-- MCTP_GAP_TIMEOUT (R573): the packets of the message in part are discarded. [DEDUCED: log 164] -/
def execMctpGapTimeout (via : Via) (s : State) : Out := .next (if lhUp s ∧ via ≠ .mailbox then bump uModule 12 s else s)

/-- INPUT_POWER_REMOVAL (R470, R478, R569): everything that the carrier supplies is lost; what stays is Lighthouse's flash and fuses,
host memory, the Harbours, and the commands that wait. [DEDUCED: log 165] -/
def execInputPowerRemoval (s : State) : Out :=
  let harbour (u : Nat) : Bool := decide (7 ≤ unitClass u ∧ unitClass u ≤ 9)
  let s1 := loseWafer s
  let lh : Lighthouse :=
    { stage := 0
      savedMap := s.lh.savedMap
      savedRetired := s.lh.savedRetired
      lastBad := s.lh.lastBad
      journal := s.lh.journal
      boot := s.lh.boot
      bankA := s.lh.bankA
      bankB := s.lh.bankB
      prefB := s.lh.prefB
      trialFails := s.lh.trialFails
      bootOther := s.lh.bootOther
      revoked := s.lh.revoked
      rollback := s.lh.rollback }
  let cnt : Counters :=
    { live := tkeep (fun k => harbour (k / 65536)) s.cnt.live
      frozen := tkeep harbour s.cnt.frozen
      shadow := tkeep (fun k => harbour (k / 65536)) s.cnt.shadow
      snap := tkeep (fun k => harbour (k / 4)) s.cnt.snap
      staged := tkeep (fun k => harbour (k / 4)) s.cnt.staged }
  .next { s1 with
    cnt := cnt
    health := tkeep harbour s.health
    logq := tkeep harbour s.logq
    nodes := []
    sensors := []
    lh := lh
    power := {}
    up := {}
    dbg := {} }

end Sys2Proof.Machine
end

