-- ==== Sys2Proof/Machine/Bar.lean ====
section
/-! DEFINITION. Machine/Bar.lean: host writes to the set-up registers that have no row of their own, and host-memory reads that time
out (R327, R330, R331, R335, R343, R403, R491, R492, R519, R544–R554). -/

namespace Sys2Proof.Machine

open Sys2Proof

/-! ### BAR0 (R331, R544–R554) -/

/-- One half of an 8 B register written, the other as it stands (R544). -/
def setHalf (high : Bool) (old : DWord) (v : Word) : DWord :=
  if high then (v ++ old.setWidth 32 : BitVec 64) else (old.extractLsb' 32 32 ++ v : BitVec 64)

/-- ENG_AUDIT of an engine, by its owner (R403, R549). -/
def writeAudit (fn e : Nat) (v : Word) (s : State) : State :=
  let g := getEngine s e
  if 8 ≤ e ∨ !g.owned ∨ g.owner.toNat ≠ fn ∨ v.extractLsb' 0 16 = 0 then s
  else updEngine s e (fun g => { g with auditPeriod := v.extractLsb' 0 16, auditEn := v.getLsbD 16 })

/-- A ring set-up register of a pair, at an offset in its 32 B: refused while EN or BUSY is 1 (R335). RING_CTL is written here only
with EN = 0 while it is 0; its other writes are RING_ENABLE and RING_DISABLE. [DEDUCED: log 168] -/
def writePair (fn k off : Nat) (v : Word) (s : State) : State :=
  let p := getPair s (pairKey fn k)
  let high := decide (off % 8 = 4)
  if pairCount fn ≤ k ∨ pairEn p ∨ pairBusy p then s
  else updPair s (pairKey fn k) (fun p =>
    if off < 8 then { p with sr := setHalf high p.sr v &&& 0xFFFFFFFFFFFFF000#64 }
    else if off < 0x10 then { p with cr := setHalf high p.cr v &&& 0xFFFFFFFFFFFFF7FF#64 }
    else if off < 0x18 then { p with db := setHalf high p.db v &&& 0xFFFFFFFFFFFFFFC0#64 }
    else if off = 0x18 ∧ !v.getLsbD 0 then { p with ctl := v &&& 0x003FFFFF#32 }
    else p)

/-- VEC_MOD of a vector (R345, R548). -/
def writeVecMod (fn i : Nat) (v : Word) (s : State) : State :=
  let count := v.extractLsb' 0 9
  let time := v.extractLsb' 9 11
  if i = 0 ∨ vecCount fn ≤ i ∨ 256 < count.toNat ∨ 1024 < time.toNat then s
  else updVec s (2048 * fn + i) (fun x => { x with count := count, time := time })

/-- A word of a vector's MSI-X table entry, as PCIe defines it: address, data, and the mask in bit 0 of the last word.
[DEDUCED: log 171] -/
def writeMsix (fn i word : Nat) (v : Word) (s : State) : State :=
  if vecCount fn ≤ i then s
  else updVec s (2048 * fn + i) (fun x =>
    match word with
    | 0 => { x with addr := setHalf false x.addr (v &&& 0xFFFFFFFC#32) }
    | 1 => { x with addr := setHalf true x.addr v }
    | 2 => { x with data := v }
    | _ => if v.getLsbD 0 then { x with masked := true } else unmaskVec x)

/-- R273: DOM_CTL and DOM_FUNC_MAP may be written: no stream is open, and no image is bound. -/
def domWritable (s : State) : Bool := noStreams s && (List.range 8).all (fun e => (getEngine s e).image.isNone)

/-- A partner as its port's registers name it. -/
def partnerIdent (q : Port) : Ident :=
  { kind := if q.partner = 1 then 1 else if q.partner = 2 then 2 else 0
    part := 0
    major := 0
    serial := q.serial
    port := q.partnerPort
    domain := q.identId
    module := q.identModule
    size := q.identSize
    priority := q.identPriority }

/-- DOM_CTL (R273, R274): the domain forms anew, and every module at a port is judged again. [DEDUCED: log 167] -/
def writeDomCtl (v : Word) (s : State) : State :=
  if !domWritable s then s
  else
    let dom : Domain :=
      { id := v.extractLsb' 0 16
        module := v.extractLsb' 16 4
        size := v.extractLsb' 20 4
        priority := v.extractLsb' 24 4
        en := v.getLsbD 28
        dstate := if v.getLsbD 28 then 1 else 0
        funcMap := s.dom.funcMap }
    let s1 : State := { s with dom := dom }
    let s2 := forAll (s1.ports.map (·.1)) (fun p t => updPort t p (fun q => { q with domainOk := false, advert := none, child := false })) s1
    forAll (s2.ports.map (·.1)) (fun p t =>
      if (getPort t p).pstate = 5 ∧ (getPort t p).partner = 1 then judgePeer p (partnerIdent (getPort t p)) t else t) s2

/-- PWR_CTL (R513, R519): a cap outside 8 to 23 kW is refused. -/
def writePwrCtl (v : Word) (s : State) : State :=
  let cap := v.extractLsb' 0 5
  if cap.toNat < 8 ∨ 23 < cap.toNat then s else updPower s (fun p => { p with capKw := cap, capEn := v.getLsbD 5 })

/-- The mailbox block (R491, R492): its length and request area are closed while BUSY; DONE is W1C. -/
def writeMailbox (off : Nat) (v : Word) (s : State) : State :=
  let m := s.lh.mbx
  let m1 : Mailbox :=
    if off = 4 ∧ !m.busy then { m with len := v.setWidth 15 }
    else if off = 8 then { m with done := w1c m.done (v.getLsbD 1) false }
    else if 0x1000 ≤ off ∧ off < 0x8000 ∧ !m.busy then { m with req := writeBytes m.req (off - 0x1000) (leBytes 4 v.toNat) }
    else m
  { s with lh := { s.lh with mbx := m1 } }

/-- A 4 B write to BAR0 of a function. An offset that is not listed, a read-only register, and a register whose write has a row of
its own take nothing here (R331, R543). [DEDUCED: log 168] -/
def barWord (fn off : Nat) (v : Word) (s : State) : State :=
  if fn ≠ 0 ∧ 0x20000 ≤ off then s
  else if 0x40000 ≤ off then (if off < 0x50000 then writeMailbox (off - 0x40000) v s else s)
  else if !barOpen s fn then s
  else if off = 0xC then updFn s fn (fun g => { g with event := g.event &&& ~~~(v.setWidth 8) })
  else if off = 0x10 then updFn s fn (fun g => { g with eventEn := v.setWidth 8 })
  else if 0x400 ≤ off ∧ off < 0x400 + 64 * 13 then (if off % 64 = 8 then writeAudit fn ((off - 0x400) / 64) v s else s)
  else if 0x1000 ≤ off ∧ off < 0x3000 then writePair fn ((off - 0x1000) / 32) (off % 32) v s
  else if 0x4000 ≤ off ∧ off < 0x6000 then writeVecMod fn ((off - 0x4000) / 4) v s
  else if 0x8000 ≤ off ∧ off < 0x10000 then writeMsix fn ((off - 0x8000) / 16) (off % 16 / 4) v s
  else if off = 0x20110 then writePwrCtl v s
  else if off = 0x20200 then writeDomCtl v s
  else if 0x21000 ≤ off ∧ off < 0x21800 then
    (if domWritable s then
      { s with dom := { s.dom with funcMap := tset 0 s.dom.funcMap ((off - 0x21000) / 4) (v.setWidth 6) } }
     else s)
  else s

/-- A write to BAR0, aligned to its 4 B or 8 B; an 8 B write reaches both words (R331, R544). [DESIGN CHOICE: log 192] -/
def barWrite (fn off : Nat) (wide : Bool) (v : DWord) (s : State) : State :=
  if wide then (if off % 8 = 0 then barWord fn (off + 4) (v.extractLsb' 32 32) (barWord fn off (v.setWidth 32) s) else s)
  else if off % 4 = 0 then barWord fn off (v.setWidth 32) s
  else s

/-- VF Enable and NumVFs of a host port (R327, R346): NumVFs stands while VF Enable is 1.
[DEDUCED: log 169; DESIGN CHOICE: log 192] -/
def writeSrIov (port : Nat) (enable : Bool) (num : Nat) (s : State) : State :=
  if !enable then clearVfs port s
  else if (getHport s port).vfEn ∨ 31 < num then s
  else settleStandby (updHport s port (fun h => { h with vfEn := true, vfs := BitVec.ofNat 5 num }))

/-- REGISTER_WRITE. -/
def execRegisterWrite (w : HostReg) (s : State) : Out := clocked s <|
  .next (match w with
    | .bar fn off wide v => barWrite fn.val off.toNat wide v s
    | .srIov port enable num => writeSrIov port.val enable num.toNat s)

/-! ### Reads that time out (R327, R343, R363, R370) -/

/-- The command whose host read has timed out completes TIMEOUT. [DEDUCED: log 170] -/
def timeoutCmd (e : Fin 13) (j : Nat) (s : State) : State :=
  match getJob s e.val j with
  | none => s
  | some x =>
    let se : Fin 8 := Fin.ofNat 8 e.val
    match opByte x.cmd with
    | 0x01 => listCmd e.val j (some stTimeout) s
    | 0x10 => if e.val < 8 then loadCmd e.val j (some stTimeout) s else s
    | 0x13 => if e.val < 8 then openCmd se j (some stTimeout) s else s
    | 0x15 => if e.val < 8 then frameCmd e.val j 0x15 (some stTimeout) s else s
    | 0x20 => copyCmd e.val j (some stTimeout) s
    | 0x21 => pinCmd e.val j (some stTimeout) s
    | _ => s

/-- HOST_READ_TIMEOUT (R327, R343): a read of a doorbell record or of entries halts its pair with CAUSE 5.
[DEDUCED: log 170] -/
def execHostReadTimeout (read : HostRead) (s : State) : Out := clocked s <|
  .next (match read with
    | .doorbell fn pair =>
      let key := pairKey fn.val pair.toNat
      let s1 := updPair s key (fun p => { p with reading := false })
      if !(getPair s key).reading then s
      else if pairRuns s fn.val pair.toNat then haltPair fn.val pair.toNat 5 s1
      else s1
    | .entries fn pair =>
      let p := getPair s (pairKey fn.val pair.toNat)
      if pairRuns s fn.val pair.toNat ∧ hasNew p ∧ fetchCount p ≠ 0 then haltPair fn.val pair.toNat 5 s else s
    | .command e j => timeoutCmd e j s)

end Sys2Proof.Machine
end

