-- ==== Sys2Proof/Machine/LoadStore.lean ====
section
/-! DEFINITION. Machine/LoadStore.lean: the scratchpad loads and stores (R24, R53, R60, R61). -/

namespace Sys2Proof.Machine

open Sys2Proof

/-- The exceptions of an M-format access of `size` bytes: `ill` beside the reserved mode, alignment and the windows. -/
def mExc (k : Core) (f : FmtM) (size : Nat) (store ill : Bool) : List Exc :=
  chk (f.pm = 3 || ill) .illegal ++ chk (decide (mAddr k f size % size ≠ 0)) .align
    ++ chk (spadBad k store (mAddr k f size) size) .spadAccess

/-- A scalar load: `ext` makes the register's value from the number loaded. -/
def loadS (c : CoreRef) (f : FmtM) (size : Nat) (ext : Nat → Word) (s : State) : Out :=
  let k := getCore s c.key
  issueCore c.key [f.d] (mExc k f size false (f.pr ≠ 0))
    (fun k' => mUpdate f size (sSet f.d (ext (ofBytes (spadLoad k (mAddr k f size) size))) k')) s

/-- A scalar store of the low bytes of sd. -/
def storeS (c : CoreRef) (f : FmtM) (size : Nat) (s : State) : Out :=
  let k := getCore s c.key
  issueCore c.key [f.d] (mExc k f size true (f.pr ≠ 0))
    (fun k' => mUpdate f size (spadStore (mAddr k f size) (leBytes size (sGet k f.d).toNat) k')) s

/-- A vector load of 32 elements of `n` bytes, zero-extended into the enabled lanes (R53, R61). -/
def loadV (c : CoreRef) (f : FmtM) (n : Nat) (s : State) : Out :=
  let k := getCore s c.key
  let bs := spadLoad k (mAddr k f (32 * n)) (32 * n)
  issueCore c.key [] (mExc k f (32 * n) false (hiBits 4 f.d))
    (fun k' => mUpdate f (32 * n) (vWrite f.d.toNat f.pr (fun i => BitVec.ofNat 32 (field bs (n * i) n)) k')) s

/-- A vector store of the low `n` bytes of the enabled lanes; a lane that is off writes no byte (R53, R61). -/
def storeV (c : CoreRef) (f : FmtM) (n : Nat) (s : State) : Out :=
  let k := getCore s c.key
  let a := spadAddr k (mAddr k f (32 * n)) (32 * n)
  issueCore c.key [] (mExc k f (32 * n) true (hiBits 4 f.d))
    (fun k' => mUpdate f (32 * n) ((List.range 32).foldl
      (fun k'' i => if laneOn k f.pr i then
          { k'' with spad := writeBytes k''.spad (a + n * i) (leBytes n (vGet k f.d.toNat i).toNat) } else k'') k')) s

/-- LW (R61). -/
def execLw (c : CoreRef) (f : FmtM) (s : State) : Out := loadS c f 4 (fun v => BitVec.ofNat 32 v) s

/-- LH (R61). -/
def execLh (c : CoreRef) (f : FmtM) (s : State) : Out := loadS c f 2 (fun v => (BitVec.ofNat 16 v).signExtend 32) s

/-- LHU (R61). -/
def execLhu (c : CoreRef) (f : FmtM) (s : State) : Out := loadS c f 2 (fun v => BitVec.ofNat 32 v) s

/-- LB (R61). -/
def execLb (c : CoreRef) (f : FmtM) (s : State) : Out := loadS c f 1 (fun v => (BitVec.ofNat 8 v).signExtend 32) s

/-- LBU (R61). -/
def execLbu (c : CoreRef) (f : FmtM) (s : State) : Out := loadS c f 1 (fun v => BitVec.ofNat 32 v) s

/-- SW (R61). -/
def execSw (c : CoreRef) (f : FmtM) (s : State) : Out := storeS c f 4 s

/-- SH (R61). -/
def execSh (c : CoreRef) (f : FmtM) (s : State) : Out := storeS c f 2 s

/-- SB (R61). -/
def execSb (c : CoreRef) (f : FmtM) (s : State) : Out := storeS c f 1 s

/-- VLD (R61). -/
def execVld (c : CoreRef) (f : FmtM) (s : State) : Out := loadV c f 4 s

/-- VST (R61). -/
def execVst (c : CoreRef) (f : FmtM) (s : State) : Out := storeV c f 4 s

/-- VLDH (R61). -/
def execVldh (c : CoreRef) (f : FmtM) (s : State) : Out := loadV c f 2 s

/-- VLDB (R61). -/
def execVldb (c : CoreRef) (f : FmtM) (s : State) : Out := loadV c f 1 s

/-- VSTH (R61). -/
def execVsth (c : CoreRef) (f : FmtM) (s : State) : Out := storeV c f 2 s

/-- VSTB (R61). -/
def execVstb (c : CoreRef) (f : FmtM) (s : State) : Out := storeV c f 1 s

end Sys2Proof.Machine
end

