-- ==== Sys2Proof/WellFormed.lean ====
section
/-! DEFINITION. WellFormed.lean: which words are illegal (R49, R50), and which commands are well formed. -/

namespace Sys2Proof

/-- A field of an instruction word. -/
def wf (w : BitVec 32) (hi lo : Nat) : Nat := (w.toNat >>> lo) % 2 ^ (hi + 1 - lo)

/-- R50 for an R-format word: `fn` listed, and the fields that its operation does not name are 0. `d`, `a`, `b` bound the
register fields, `p` says that pr is named. -/
def okR (w : BitVec 32) (d a b : Nat) (p : Bool) : Bool :=
  decide (wf w 25 21 < d) && decide (wf w 20 16 < a) && decide (wf w 15 11 < b) && (p || decide (wf w 10 8 = 0))

/-- The words of major opcode SALU to TEST in the R format that R50 admits. -/
def legalR (w : BitVec 32) : Bool :=
  let fn := wf w 7 0
  match wf w 31 26 with
  | 0x01 => decide (fn ≤ 0x0E) && okR w 32 32 32 false
  | 0x09 => if fn ≤ 4 then okR w 32 32 32 false else decide (fn ≤ 6) && okR w 32 32 1 false
  | 0x1C => if fn = 0 then okR w 8 32 1 false else if fn = 1 then okR w 32 8 1 false
    else decide (fn = 2) && okR w 8 8 32 false
  | 0x30 => decide (fn ≤ 0x0C) && okR w 16 16 16 true
  | 0x31 => if fn ≤ 5 then okR w 16 16 16 true else decide (0x10 ≤ fn ∧ fn ≤ 0x13) && okR w 16 16 1 true
  | 0x32 =>
    if fn ≤ 5 then okR w 8 16 16 true
    else if fn = 8 then okR w 16 16 16 true
    else if fn = 9 then okR w 16 32 1 true
    else if fn = 0x0A then okR w 32 16 32 false
    else if 0x10 ≤ fn ∧ fn ≤ 0x12 then okR w 32 16 1 true
    else decide (0x40 ≤ fn ∧ fn < 0x80) && okR w 16 16 2 true && decide (fn / 8 % 8 ≠ 7) && decide (fn % 8 ≠ 7)
  | 0x35 =>
    if fn = 0 then okR w 4 1 1 false
    else if fn = 1 then okR w 16 4 8 true
    else if fn = 2 then okR w 4 16 8 true
    else if fn = 3 then okR w 4 8 32 false && decide (wf w 13 11 ≠ 7)
    else decide (fn = 4) && okR w 4 8 1 false
  | 0x3A => decide (fn ≤ 6) && okR w 32 32 32 false
  | 0x3B => if fn = 0 then okR w 32 32 1 false else if fn = 1 then okR w 32 1 1 false
    else decide (fn = 2) && okR w 1 32 32 false
  | 0x3C => if fn = 0 then okR w 1 1 1 false else decide (fn ≤ 4) && okR w 32 1 1 false
  | 0x3D =>
    if fn = 1 then okR w 1 32 32 false
    else if fn = 2 then okR w 1 8 32 false
    else if fn = 4 ∨ fn = 5 then okR w 32 1 1 false
    else decide (fn = 0 ∨ fn = 3 ∨ fn = 6 ∨ fn = 7) && okR w 1 32 1 false
  | _ => false

/-- R50 for a C-format word. -/
def legalC (w : BitVec 32) : Bool :=
  let k := wf w 21 17
  let x := wf w 16 14
  let n := wf w 13 10
  let d := wf w 9 5
  let e := wf w 4 0
  match wf w 31 26, wf w 25 22 with
  | 0x38, 0 => decide (d = 0 ∧ e = 0)
  | 0x38, 1 => decide (k < 8 ∧ e = 0)
  | 0x38, 2 => decide (k < 8 ∧ x = 0 ∧ n = 0 ∧ e = 0)
  | 0x38, 3 => decide (x = 0 ∧ n = 0 ∧ e = 0)
  | 0x38, 4 => decide (x = 0 ∧ n = 0 ∧ d = 0 ∧ e = 0)
  | 0x39, 0 => decide (n = 0 ∧ e < 4)
  | 0x39, 1 => decide (k < 8 ∧ n = 0 ∧ e = 0)
  | 0x39, 2 => decide (k < 8 ∧ x = 0 ∧ n = 0 ∧ e = 0)
  | 0x39, 3 => decide (k < 8 ∧ x = 0 ∧ n = 0 ∧ e = 0)
  | 0x39, 4 => decide (k = 0 ∧ n = 0 ∧ e = 0)
  | _, _ => false

/-- R50: the word has an operation and no reserved field of it is set. The operands are not looked at. -/
def legalWord (w : BitVec 32) : Bool :=
  let op := wf w 31 26
  let a := wf w 20 16
  if op = 0x02 ∨ op = 0x03 ∨ op = 0x04 ∨ op = 0x05 ∨ op = 0x06 ∨ op = 0x17 then true
  else if op = 0x07 ∨ op = 0x16 then decide (a = 0)
  else if op = 0x08 then decide (wf w 13 5 = 0 ∧ wf w 15 14 ≠ 3)
  else if 0x10 ≤ op ∧ op ≤ 0x15 then true
  else if op = 0x18 then decide (wf w 11 0 ≠ 0) && (decide (wf w 24 24 = 1) || decide (wf w 23 17 = 0))
  else if op = 0x1D ∨ op = 0x1E then decide (wf w 25 21 < 8 ∧ a = 0)
  else if 0x20 ≤ op ∧ op ≤ 0x27 then decide (wf w 17 16 ≠ 3 ∧ wf w 15 13 = 0)
  else if 0x28 ≤ op ∧ op ≤ 0x2D then decide (wf w 17 16 ≠ 3 ∧ wf w 25 21 < 16)
  else if op = 0x34 then decide (wf w 9 0 = 0 ∧ wf w 23 21 ≠ 7)
  else if op = 0x38 ∨ op = 0x39 then legalC w
  else legalR w

/-- R50: the word raises ILLEGAL by its encoding. [DEDUCED: log 183] -/
def illegalWord (w : BitVec 32) : Bool := !legalWord w

/-- The commands whose operands a sender can give: ILLEGAL carries a word that R50 calls illegal, and PEER_NOTICE a log record, which
has 64 bytes (R478). Every other row's operand types admit only what the row can carry. [DEDUCED: log 183] -/
def Instr.wellFormed : Instr → Bool
  | .illegal _ w => illegalWord w
  | .peerNotice _ bytes => decide (bytes.length = 64)
  | _ => true

end Sys2Proof
end

