-- ==== Sys2Proof/Machine/Scalar.lean ====
section
/-! DEFINITION. Machine/Scalar.lean: the scalar, branch and loop, and address groups of the core instruction set. -/

namespace Sys2Proof.Machine

open Sys2Proof

/-- A scalar R-format instruction: sd from sa and sb (scalar table). -/
def aluR (c : CoreRef) (f : FmtR) (op : Word → Word → Word) (s : State) : Out :=
  let k := getCore s c.key
  issueCore c.key [f.d, f.a, f.b] (chk (f.pr ≠ 0) .illegal) (sSet f.d (op (sGet k f.a) (sGet k f.b))) s

/-- A scalar R-format instruction of one operand, whose b field is reserved. -/
def aluR1 (c : CoreRef) (f : FmtR) (op : Word → Word) (s : State) : Out :=
  let k := getCore s c.key
  issueCore c.key [f.d, f.a] (chk (f.pr ≠ 0 || f.b ≠ 0) .illegal) (sSet f.d (op (sGet k f.a))) s

/-- A scalar I-format instruction: sd from sa. `bad` is what its immediate must not hold. -/
def aluI (c : CoreRef) (f : FmtI) (bad : Bool) (op : Word → Word) (s : State) : Out :=
  let k := getCore s c.key
  issueCore c.key [f.d, f.a] (chk bad .illegal) (sSet f.d (op (sGet k f.a))) s

/-- 1 or 0 as a word. -/
def flag (b : Bool) : Word := if b then 1 else 0

/-- The high 32 bits of a 64-bit product. -/
def mulHigh (a b : Int) : Word := BitVec.ofInt 32 (a * b / 2 ^ 32)

/-- ADD (R49, scalar table). -/
def execAdd (c : CoreRef) (f : FmtR) (s : State) : Out := aluR c f (fun a b => a + b) s

/-- SUB (R49, scalar table). -/
def execSub (c : CoreRef) (f : FmtR) (s : State) : Out := aluR c f (fun a b => a - b) s

/-- AND (R49, scalar table). -/
def execAnd (c : CoreRef) (f : FmtR) (s : State) : Out := aluR c f (fun a b => a &&& b) s

/-- OR (R49, scalar table). -/
def execOr (c : CoreRef) (f : FmtR) (s : State) : Out := aluR c f (fun a b => a ||| b) s

/-- XOR (R49, scalar table). -/
def execXor (c : CoreRef) (f : FmtR) (s : State) : Out := aluR c f (fun a b => a ^^^ b) s

/-- SLL (R49, scalar table). -/
def execSll (c : CoreRef) (f : FmtR) (s : State) : Out := aluR c f (fun a b => a <<< (b.toNat % 32)) s

/-- SRL (R49, scalar table). -/
def execSrl (c : CoreRef) (f : FmtR) (s : State) : Out := aluR c f (fun a b => a >>> (b.toNat % 32)) s

/-- SRA (R49, scalar table). -/
def execSra (c : CoreRef) (f : FmtR) (s : State) : Out := aluR c f (fun a b => a.sshiftRight (b.toNat % 32)) s

/-- SLT (R49, scalar table). -/
def execSlt (c : CoreRef) (f : FmtR) (s : State) : Out := aluR c f (fun a b => flag (a.slt b)) s

/-- SLTU (R49, scalar table). -/
def execSltu (c : CoreRef) (f : FmtR) (s : State) : Out := aluR c f (fun a b => flag (a.ult b)) s

/-- MUL (R49, scalar table). -/
def execMul (c : CoreRef) (f : FmtR) (s : State) : Out := aluR c f (fun a b => a * b) s

/-- MULH (R49, scalar table). -/
def execMulh (c : CoreRef) (f : FmtR) (s : State) : Out := aluR c f (fun a b => mulHigh a.toInt b.toInt) s

/-- MULHU (R49, scalar table). -/
def execMulhu (c : CoreRef) (f : FmtR) (s : State) : Out := aluR c f (fun a b => mulHigh a.toNat b.toNat) s

/-- MIN (R49, scalar table). -/
def execMin (c : CoreRef) (f : FmtR) (s : State) : Out := aluR c f (fun a b => if b.slt a then b else a) s

/-- MAX (R49, scalar table). -/
def execMax (c : CoreRef) (f : FmtR) (s : State) : Out := aluR c f (fun a b => if a.slt b then b else a) s

/-- ADDI (R49, scalar table). -/
def execAddi (c : CoreRef) (f : FmtI) (s : State) : Out := aluI c f false (fun a => a + immS f) s

/-- SLTI (R49, scalar table). -/
def execSlti (c : CoreRef) (f : FmtI) (s : State) : Out := aluI c f false (fun a => flag (a.slt (immS f))) s

/-- ANDI (R49, scalar table). -/
def execAndi (c : CoreRef) (f : FmtI) (s : State) : Out := aluI c f false (fun a => a &&& immZ f) s

/-- ORI (R49, scalar table). -/
def execOri (c : CoreRef) (f : FmtI) (s : State) : Out := aluI c f false (fun a => a ||| immZ f) s

/-- XORI (R49, scalar table). -/
def execXori (c : CoreRef) (f : FmtI) (s : State) : Out := aluI c f false (fun a => a ^^^ immZ f) s

/-- LUI (R49, scalar table). -/
def execLui (c : CoreRef) (f : FmtI) (s : State) : Out := aluI c f (f.a ≠ 0) (fun _ => immZ f <<< 16) s

/-- The shift amount imm[4:0] of SHIFTI, and its reserved bits imm[13:5]; imm[15:14] are fixed by the mnemonic. -/
def shAmount (f : FmtI) : Nat := f.imm.toNat % 32
def shReserved (f : FmtI) (kind : Nat) : Bool :=
  decide (f.imm.toNat / 32 % 512 ≠ 0) || decide (f.imm.toNat / 16384 ≠ kind)

/-- SLLI: SHIFTI with imm[15:14] = 0 (R49). -/
def execSlli (c : CoreRef) (f : FmtI) (s : State) : Out := aluI c f (shReserved f 0) (fun a => a <<< shAmount f) s

/-- SRLI: SHIFTI with imm[15:14] = 1 (R49). -/
def execSrli (c : CoreRef) (f : FmtI) (s : State) : Out := aluI c f (shReserved f 1) (fun a => a >>> shAmount f) s

/-- SRAI: SHIFTI with imm[15:14] = 2 (R49). -/
def execSrai (c : CoreRef) (f : FmtI) (s : State) : Out := aluI c f (shReserved f 2) (fun a => a.sshiftRight (shAmount f)) s

/-- FADD (R47). -/
def execFadd (c : CoreRef) (f : FmtR) (s : State) : Out := aluR c f fadd32 s

/-- FSUB (R47). -/
def execFsub (c : CoreRef) (f : FmtR) (s : State) : Out := aluR c f fsub32 s

/-- FMUL (R47). -/
def execFmul (c : CoreRef) (f : FmtR) (s : State) : Out := aluR c f fmul32 s

/-- FMIN (R47). -/
def execFmin (c : CoreRef) (f : FmtR) (s : State) : Out := aluR c f fmin32 s

/-- FMAX (R47). -/
def execFmax (c : CoreRef) (f : FmtR) (s : State) : Out := aluR c f fmax32 s

/-- FCVTWS (R48). -/
def execFcvtws (c : CoreRef) (f : FmtR) (s : State) : Out := aluR1 c f fcvtws32 s

/-- FCVTSW (R48). -/
def execFcvtsw (c : CoreRef) (f : FmtR) (s : State) : Out := aluR1 c f fcvtsw32 s

/-- ILLEGAL (R50): the word stands at the program counter and is illegal. -/
def execIllegal (c : CoreRef) (w : BitVec 32) (s : State) : Out :=
  if illegalWord w then issue c.key [] [.illegal] id s else illFormed

/-! ### Branches and loops -/

/-- A jump target is a full 32-bit value, compared against 0 to 4,095 (R56). -/
def badTarget (t : Word) : Bool := decide (4095 < t.toNat)

/-- A conditional branch (R56). -/
def branch (c : CoreRef) (f : FmtB) (cond : Word → Word → Bool) (s : State) : Out :=
  let k := getCore s c.key
  let t : Word := k.pc.setWidth 32 + f.off.signExtend 32
  if cond (sGet k f.a) (sGet k f.b) then
    issue c.key [f.a, f.b] (chk (badTarget t) .pcRange) (fun s' => updCore s' c.key (jumpTo t.toNat)) s
  else issueCore c.key [f.a, f.b] [] id s

/-- BEQ (R56). -/
def execBeq (c : CoreRef) (f : FmtB) (s : State) : Out := branch c f (fun a b => a = b) s

/-- BNE (R56). -/
def execBne (c : CoreRef) (f : FmtB) (s : State) : Out := branch c f (fun a b => a ≠ b) s

/-- BLT (R56). -/
def execBlt (c : CoreRef) (f : FmtB) (s : State) : Out := branch c f (fun a b => a.slt b) s

/-- BGE (R56). -/
def execBge (c : CoreRef) (f : FmtB) (s : State) : Out := branch c f (fun a b => !(a.slt b)) s

/-- BLTU (R56). -/
def execBltu (c : CoreRef) (f : FmtB) (s : State) : Out := branch c f (fun a b => a.ult b) s

/-- BGEU (R56). -/
def execBgeu (c : CoreRef) (f : FmtB) (s : State) : Out := branch c f (fun a b => !(a.ult b)) s

/-- A jump: the return index into sd, then the target (R56). -/
def jump (c : CoreRef) (f : FmtI) (uses : List (BitVec 5)) (bad : Bool) (t : Word) (s : State) : Out :=
  let k := getCore s c.key
  issue c.key uses (chk bad .illegal ++ chk (badTarget t) .pcRange)
    (fun s' => updCore s' c.key (fun k' => jumpTo t.toNat (sSet f.d (k.pc.setWidth 32 + 1) k'))) s

/-- JAL (R56). -/
def execJal (c : CoreRef) (f : FmtI) (s : State) : Out :=
  jump c f [f.d] (f.a ≠ 0) ((getCore s c.key).pc.setWidth 32 + immS f) s

/-- JALR (R56). -/
def execJalr (c : CoreRef) (f : FmtI) (s : State) : Out :=
  jump c f [f.d, f.a] false (sGet (getCore s c.key) f.a + immS f) s

/-- The count of a LOOP: immediate, or the s register named in the low bits of the field (R58). -/
def loopCount (k : Core) (f : FmtL) : Word :=
  if f.ci = 1 then f.cnt.setWidth 32 else sGet k (f.cnt.setWidth 5)

/-- The cases in which LOOP raises LOOP (R58). -/
def loopBad (k : Core) (f : FmtL) : Bool :=
  (if f.lv = 0 then k.loop0.isSome || k.loop1.isSome else k.loop1.isSome)
    || decide (4095 < k.pc.toNat + f.len.toNat)
    || (f.lv = 1 && k.loop0.any (fun l => decide (l.stop < k.pc.toNat + f.len.toNat)))

/-- LOOP (R58): it starts the loop; a count of 0 goes on after the body. [DEDUCED: log 33] -/
def execLoop (c : CoreRef) (f : FmtL) (s : State) : Out :=
  let k := getCore s c.key
  let stop := k.pc.toNat + f.len.toNat
  let ill := chk (f.len = 0 || (f.ci = 0 && decide (32 ≤ f.cnt.toNat))) .illegal
  let uses := if f.ci = 1 then [] else [f.cnt.setWidth 5]
  if loopCount k f = 0 then
    issue c.key uses (ill ++ chk (loopBad k f) .loop ++ chk (decide (4095 < (afterWord k stop).2)) .pcRange)
      (fun s' => updCore s' c.key (fun k' =>
        { (afterWord k' stop).1 with pc := BitVec.ofNat 12 (afterWord k' stop).2 })) s
  else
    let l : Loop := { count := loopCount k f, start := k.pc.toNat + 1, stop := stop }
    issue c.key uses (ill ++ chk (loopBad k f) .loop ++ chk (k.pc = 4095) .pcRange)
      (fun s' => updCore s' c.key (fun k' =>
        let k2 := if f.lv = 0 then { k' with loop0 := some l } else { k' with loop1 := some l }
        { k2 with pc := k'.pc + 1 })) s

/-! ### Address generation -/

/-- AMOV: ad from sa. -/
def execAmov (c : CoreRef) (f : FmtR) (s : State) : Out :=
  issueCore c.key [f.a] (chk (hiBits 3 f.d || f.b ≠ 0 || f.pr ≠ 0) .illegal)
    (aSet f.d.toNat (sGet (getCore s c.key) f.a)) s

/-- SMOVA: sd from a(xa). -/
def execSmova (c : CoreRef) (f : FmtR) (s : State) : Out :=
  issueCore c.key [f.d] (chk (hiBits 3 f.a || f.b ≠ 0 || f.pr ≠ 0) .illegal)
    (sSet f.d (aGet (getCore s c.key) f.a.toNat)) s

/-- AADD: ad from a(xa) + sb. -/
def execAadd (c : CoreRef) (f : FmtR) (s : State) : Out :=
  let k := getCore s c.key
  issueCore c.key [f.b] (chk (hiBits 3 f.d || hiBits 3 f.a || f.pr ≠ 0) .illegal)
    (aSet f.d.toNat (aGet k f.a.toNat + sGet k f.b)) s

/-- ASETI: ad from imm × 8. -/
def execAseti (c : CoreRef) (f : FmtI) (s : State) : Out :=
  issueCore c.key [] (chk (hiBits 3 f.d || f.a ≠ 0) .illegal) (aSet f.d.toNat (immZ f * 8)) s

/-- AADDI: ad plus the sign-extended immediate, in bytes. -/
def execAaddi (c : CoreRef) (f : FmtI) (s : State) : Out :=
  issueCore c.key [] (chk (hiBits 3 f.d || f.a ≠ 0) .illegal)
    (aSet f.d.toNat (aGet (getCore s c.key) f.d.toNat + immS f)) s

end Sys2Proof.Machine
end

