-- ==== Sys2Proof/Machine/Tensor.lean ====
section
/-! DEFINITION. Machine/Tensor.lean: the tensor group (R64–R66). -/

namespace Sys2Proof.Machine

open Sys2Proof

/-- The operand types of a TMAC (ty); INT8 has none here. -/
def tmacTypes (ty : Nat) : DType × DType :=
  match ty with
  | 0 => (.e4m3, .e4m3)
  | 1 => (.e5m2, .e5m2)
  | 2 => (.e4m3, .e5m2)
  | 3 => (.e5m2, .e4m3)
  | 4 => (.bf16, .bf16)
  | 5 => (.fp16, .fp16)
  | _ => (.int8, .int8)

/-- K = 16 × (kc + 1). -/
def tmacK (f : FmtT) : Nat := 16 * (f.kc.toNat + 1)

/-- Cycles for which the tensor unit is occupied (R65). -/
def tmacCycles (f : FmtT) : Nat := if f.ty = 4 ∨ f.ty = 5 then 2 * tmacK f else tmacK f

/-- One element: sums in the order k = 0, 1, 2 and onwards (R64). `a` and `b` give the element bits at index k. -/
def tmacElem (ty : Nat) (acc : Word) (a b : Nat → Nat) (n : Nat) : Word :=
  (List.range n).foldl (fun t k =>
    if ty = 6 then t + BitVec.ofInt 32 ((BitVec.ofNat 8 (a k)).toInt * (BitVec.ofNat 8 (b k)).toInt)
    else macStep t (fpDecode (((tmacTypes ty).1.fmt).getD e4m3) (a k)) (fpDecode (((tmacTypes ty).2.fmt).getD e4m3) (b k)))
    acc

/-- Every element of a tile set from `g`. -/
def tileWrite (t : Nat) (g : Nat → Nat → Word) (k : Core) : Core :=
  (List.range 256).foldl (fun k' n => tileSet t (n / 16) (n % 16) (g (n / 16) (n % 16)) k') k

/-- TMAC (R64, R65). [DEDUCED: log 38] -/
def execTmac (c : CoreRef) (f : FmtT) (s : State) : Out :=
  let k := getCore s c.key
  let e := (tmacTypes f.ty.toNat).1.size
  let n := 16 * tmacK f * e
  let a := (aGet k f.xa.toNat).toNat
  let b := (aGet k f.xb.toNat).toNat
  let A := spadLoad k a n
  let B := spadLoad k b n
  issueSeq c.key []
    (chk (f.rsv ≠ 0 || f.ty = 7) .illegal ++ chk (decide (a % e ≠ 0 ∨ b % e ≠ 0)) .align
      ++ chk (spadBad k false a n || spadBad k false b n) .spadAccess)
    (fun s' => updCore (bumpBy (uCore c.key) cTmacBusy (tmacCycles f) s') c.key
      (tileWrite f.td.toNat (fun i j =>
        tmacElem f.ty.toNat (if f.z = 1 then 0 else tileGet k f.td.toNat i j)
          (fun x => field A ((i * tmacK f + x) * e) e) (fun x => field B ((j * tmacK f + x) * e) e) (tmacK f)))) s

/-- TZERO (tile table). -/
def execTzero (c : CoreRef) (f : FmtR) (s : State) : Out :=
  issueCore c.key [] (chk (hiBits 2 f.d || f.a ≠ 0 || f.b ≠ 0 || f.pr ≠ 0) .illegal)
    (tileWrite f.d.toNat (fun _ _ => 0)) s

/-- TROW: lanes 0–15 from row 2b, lanes 16–31 from row 2b + 1, predicated (R53). -/
def execTrow (c : CoreRef) (f : FmtR) (s : State) : Out :=
  let k := getCore s c.key
  issueCore c.key [] (chk (hiBits 4 f.d || hiBits 2 f.a || hiBits 3 f.b) .illegal)
    (vWrite f.d.toNat f.pr (fun i => tileGet k f.a.toNat (2 * f.b.toNat + i / 16) (i % 16))) s

/-- TPUT: rows 2b and 2b + 1 from the lanes, predicated (R53). -/
def execTput (c : CoreRef) (f : FmtR) (s : State) : Out :=
  let k := getCore s c.key
  issueCore c.key [] (chk (hiBits 2 f.d || hiBits 4 f.a || hiBits 3 f.b) .illegal)
    (fun k' => (List.range 32).foldl (fun k'' i =>
      if laneOn k f.pr i then tileSet f.d.toNat (2 * f.b.toNat + i / 16) (i % 16) (vGet k f.a.toNat i) k'' else k'') k') s

/-- How TST converts one element (R66): 32-bit destinations copy the bits; CROSS exchanges how the element is read. -/
def tstConvert (dst : DType) (sat cross : Bool) (x : Word) : Nat :=
  match dst with
  | .fp32 => x.toNat
  | .int32 => x.toNat
  | .int8 => if cross then convert .fp32 .int8 sat x.toNat else convert .int32 .int8 sat x.toNat
  | d => if cross then convert .int32 d sat x.toNat else convert .fp32 d sat x.toNat

/-- TST (R66): the tile stored row-major, converted. -/
def execTst (c : CoreRef) (f : FmtR) (s : State) : Out :=
  let k := getCore s c.key
  let ty := dtype (f.b.setWidth 3)
  let dst := ty.getD .fp32
  let n := 256 * dst.size
  let a := (aGet k f.a.toNat).toNat
  let bs := (List.range 256).flatMap (fun i =>
    leBytes dst.size (tstConvert dst (f.b.getLsbD 3) (f.b.getLsbD 4) (tileGet k f.d.toNat (i / 16) (i % 16))))
  issueCore c.key []
    (chk (hiBits 2 f.d || hiBits 3 f.a || f.pr ≠ 0 || ty.isNone) .illegal ++ chk (decide (a % n ≠ 0)) .align
      ++ chk (spadBad k true a n) .spadAccess)
    (spadStore a bs) s

/-- TLD (R66): the tile loaded row-major from 1 KiB. -/
def execTld (c : CoreRef) (f : FmtR) (s : State) : Out :=
  let k := getCore s c.key
  let a := (aGet k f.a.toNat).toNat
  let bs := spadLoad k a 1024
  issueCore c.key []
    (chk (hiBits 2 f.d || hiBits 3 f.a || f.b ≠ 0 || f.pr ≠ 0) .illegal ++ chk (decide (a % 1024 ≠ 0)) .align
      ++ chk (spadBad k false a 1024) .spadAccess)
    (tileWrite f.d.toNat (fun i j => BitVec.ofNat 32 (field bs (4 * (16 * i + j)) 4))) s

end Sys2Proof.Machine
end

