-- ==== Sys2Proof/Machine/Vector.lean ====
section
/-! DEFINITION. Machine/Vector.lean: the vector group (R53, R62, R63, R577). -/

namespace Sys2Proof.Machine

open Sys2Proof

/-- A lane-wise instruction of two vector sources. -/
def vBin (c : CoreRef) (f : FmtR) (op : Word → Word → Word) (s : State) : Out :=
  let k := getCore s c.key
  issueCore c.key [] (chk (hiBits 4 f.d || hiBits 4 f.a || hiBits 4 f.b) .illegal)
    (vWrite f.d.toNat f.pr (fun i => op (vGet k f.a.toNat i) (vGet k f.b.toNat i))) s

/-- A lane-wise instruction of one vector source; b is reserved. -/
def vUn (c : CoreRef) (f : FmtR) (op : Word → Word) (s : State) : Out :=
  let k := getCore s c.key
  issueCore c.key [] (chk (hiBits 4 f.d || hiBits 4 f.a || f.b ≠ 0) .illegal)
    (vWrite f.d.toNat f.pr (fun i => op (vGet k f.a.toNat i))) s

/-- A lane-wise comparison into a predicate register. -/
def vCmp (c : CoreRef) (f : FmtR) (op : Word → Word → Bool) (s : State) : Out :=
  let k := getCore s c.key
  issueCore c.key [] (chk (hiBits 3 f.d || hiBits 4 f.a || hiBits 4 f.b) .illegal)
    (pWrite f.d.toNat f.pr (fun i => op (vGet k f.a.toNat i) (vGet k f.b.toNat i))) s

/-- The fixed tree of R62: lane i with lane i + n/2, and so on down to one value. -/
def laneTree (op : Word → Word → Word) : Nat → (Nat → Word) → Word
  | 0, x => x 0
  | n + 1, x => laneTree op n (fun i => op (x i) (x (i + 2 ^ n)))

/-- A reduction of the enabled lanes into sd; a lane that is off contributes `off` (R62). -/
def vReduce (c : CoreRef) (f : FmtR) (off : Word) (op : Word → Word → Word) (s : State) : Out :=
  let k := getCore s c.key
  issueCore c.key [f.d] (chk (hiBits 4 f.a || f.b ≠ 0) .illegal)
    (sSet f.d (laneTree op 5 (fun i => if laneOn k f.pr i then vGet k f.a.toNat i else off))) s

/-- VADD (vector table, R53). -/
def execVadd (c : CoreRef) (f : FmtR) (s : State) : Out := vBin c f (fun a b => a + b) s

/-- VSUB (vector table, R53). -/
def execVsub (c : CoreRef) (f : FmtR) (s : State) : Out := vBin c f (fun a b => a - b) s

/-- VMUL (vector table, R53). -/
def execVmul (c : CoreRef) (f : FmtR) (s : State) : Out := vBin c f (fun a b => a * b) s

/-- VAND (vector table, R53). -/
def execVand (c : CoreRef) (f : FmtR) (s : State) : Out := vBin c f (fun a b => a &&& b) s

/-- VOR (vector table, R53). -/
def execVor (c : CoreRef) (f : FmtR) (s : State) : Out := vBin c f (fun a b => a ||| b) s

/-- VXOR (vector table, R53). -/
def execVxor (c : CoreRef) (f : FmtR) (s : State) : Out := vBin c f (fun a b => a ^^^ b) s

/-- VSLL (vector table, R53). -/
def execVsll (c : CoreRef) (f : FmtR) (s : State) : Out := vBin c f (fun a b => a <<< (b.toNat % 32)) s

/-- VSRL (vector table, R53). -/
def execVsrl (c : CoreRef) (f : FmtR) (s : State) : Out := vBin c f (fun a b => a >>> (b.toNat % 32)) s

/-- VSRA (vector table, R53). -/
def execVsra (c : CoreRef) (f : FmtR) (s : State) : Out := vBin c f (fun a b => a.sshiftRight (b.toNat % 32)) s

/-- VMIN (vector table, R53). -/
def execVmin (c : CoreRef) (f : FmtR) (s : State) : Out := vBin c f (fun a b => if b.slt a then b else a) s

/-- VMAX (vector table, R53). -/
def execVmax (c : CoreRef) (f : FmtR) (s : State) : Out := vBin c f (fun a b => if a.slt b then b else a) s

/-- VMINU (vector table, R53). -/
def execVminu (c : CoreRef) (f : FmtR) (s : State) : Out := vBin c f (fun a b => if b.ult a then b else a) s

/-- VMAXU (vector table, R53). -/
def execVmaxu (c : CoreRef) (f : FmtR) (s : State) : Out := vBin c f (fun a b => if a.ult b then b else a) s

/-- VFADD (vector table, R53). -/
def execVfadd (c : CoreRef) (f : FmtR) (s : State) : Out := vBin c f (fadd32) s

/-- VFSUB (vector table, R53). -/
def execVfsub (c : CoreRef) (f : FmtR) (s : State) : Out := vBin c f (fsub32) s

/-- VFMUL (vector table, R53). -/
def execVfmul (c : CoreRef) (f : FmtR) (s : State) : Out := vBin c f (fmul32) s

/-- VFMIN (vector table, R53). -/
def execVfmin (c : CoreRef) (f : FmtR) (s : State) : Out := vBin c f (fmin32) s

/-- VFMAX (vector table, R53). -/
def execVfmax (c : CoreRef) (f : FmtR) (s : State) : Out := vBin c f (fmax32) s

/-- VFMA: vd + va × vb with one rounding (R47). -/
def execVfma (c : CoreRef) (f : FmtR) (s : State) : Out :=
  let k := getCore s c.key
  issueCore c.key [] (chk (hiBits 4 f.d || hiBits 4 f.a || hiBits 4 f.b) .illegal)
    (vWrite f.d.toNat f.pr
      (fun i => ffma32 (vGet k f.d.toNat i) (vGet k f.a.toNat i) (vGet k f.b.toNat i))) s

/-- VEXP2 (R63). -/
def execVexp2 (c : CoreRef) (f : FmtR) (s : State) : Out := vUn c f vexp2 s

/-- VLOG2 (R63). -/
def execVlog2 (c : CoreRef) (f : FmtR) (s : State) : Out := vUn c f vlog2 s

/-- VRCP (R63). -/
def execVrcp (c : CoreRef) (f : FmtR) (s : State) : Out := vUn c f vrcp s

/-- VRSQRT (R63). -/
def execVrsqrt (c : CoreRef) (f : FmtR) (s : State) : Out := vUn c f vrsqrt s

/-- VCMPEQ (vector table). -/
def execVcmpeq (c : CoreRef) (f : FmtR) (s : State) : Out := vCmp c f (fun a b => a = b) s

/-- VCMPLT (vector table). -/
def execVcmplt (c : CoreRef) (f : FmtR) (s : State) : Out := vCmp c f (fun a b => a.slt b) s

/-- VCMPLE (vector table). -/
def execVcmple (c : CoreRef) (f : FmtR) (s : State) : Out := vCmp c f (fun a b => !(b.slt a)) s

/-- VFCMPEQ (vector table). -/
def execVfcmpeq (c : CoreRef) (f : FmtR) (s : State) : Out := vCmp c f (fun a b => fvEq (f32 a) (f32 b)) s

/-- VFCMPLT (vector table). -/
def execVfcmplt (c : CoreRef) (f : FmtR) (s : State) : Out := vCmp c f (fun a b => fvLt (f32 a) (f32 b)) s

/-- VFCMPLE (vector table). -/
def execVfcmple (c : CoreRef) (f : FmtR) (s : State) : Out := vCmp c f (fun a b => fvLt (f32 a) (f32 b) || fvEq (f32 a) (f32 b)) s

/-- VSEL: every lane written, from va or vb by the predicate. -/
def execVsel (c : CoreRef) (f : FmtR) (s : State) : Out :=
  let k := getCore s c.key
  issueCore c.key [] (chk (hiBits 4 f.d || hiBits 4 f.a || hiBits 4 f.b) .illegal)
    (vWrite f.d.toNat 0 (fun i => if laneOn k f.pr i then vGet k f.a.toNat i else vGet k f.b.toNat i)) s

/-- VBCAST: sa into each enabled lane. -/
def execVbcast (c : CoreRef) (f : FmtR) (s : State) : Out :=
  let k := getCore s c.key
  issueCore c.key [f.a] (chk (hiBits 4 f.d || f.b ≠ 0) .illegal) (vWrite f.d.toNat f.pr (fun _ => sGet k f.a)) s

/-- VEXT: lane sb[4:0] of va into sd; pr is reserved (R53). -/
def execVext (c : CoreRef) (f : FmtR) (s : State) : Out :=
  let k := getCore s c.key
  issueCore c.key [f.d, f.b] (chk (hiBits 4 f.a || f.pr ≠ 0) .illegal)
    (sSet f.d (vGet k f.a.toNat ((sGet k f.b).toNat % 32))) s

/-- VSUM (R62). -/
def execVsum (c : CoreRef) (f : FmtR) (s : State) : Out := vReduce c f 0 fadd32 s

/-- VMAXR (R62): a lane that is off contributes minus infinity. -/
def execVmaxr (c : CoreRef) (f : FmtR) (s : State) : Out := vReduce c f 0xFF800000#32 fmax32 s

/-- VSUMI (R62). -/
def execVsumi (c : CoreRef) (f : FmtR) (s : State) : Out := vReduce c f 0 (fun a b => a + b) s

/-- VCVT (R48, R577): narrow results are zero-extended. b[11] is SAT, b[15:12] are reserved. -/
def execVcvt (c : CoreRef) (f : FmtR) (src dst : BitVec 3) (s : State) : Out :=
  let k := getCore s c.key
  let ill := hiBits 4 f.d || hiBits 4 f.a || hiBits 1 f.b || (dtype src).isNone || (dtype dst).isNone
  issueCore c.key [] (chk ill .illegal)
    (vWrite f.d.toNat f.pr (fun i => BitVec.ofNat 32
      (convert ((dtype src).getD .fp32) ((dtype dst).getD .fp32) (f.b.getLsbD 0) (vGet k f.a.toNat i).toNat))) s

end Sys2Proof.Machine
end

