-- ==== Sys2Proof/Machine/Dispatch.lean ====
section
/-! DEFINITION. Machine/Dispatch.lean: one arm per constructor of `Instr`, each one call of its meaning. -/

namespace Sys2Proof.Machine

open Sys2Proof

def exec (i : Instr) (s : State) : Host.Outcome State Fault Refusal :=
  match i with
  | .illegal c w => Sys2Proof.Machine.execIllegal c w s
  | .add c f => Sys2Proof.Machine.execAdd c f s
  | .sub c f => Sys2Proof.Machine.execSub c f s
  | .and c f => Sys2Proof.Machine.execAnd c f s
  | .or c f => Sys2Proof.Machine.execOr c f s
  | .xor c f => Sys2Proof.Machine.execXor c f s
  | .sll c f => Sys2Proof.Machine.execSll c f s
  | .srl c f => Sys2Proof.Machine.execSrl c f s
  | .sra c f => Sys2Proof.Machine.execSra c f s
  | .slt c f => Sys2Proof.Machine.execSlt c f s
  | .sltu c f => Sys2Proof.Machine.execSltu c f s
  | .mul c f => Sys2Proof.Machine.execMul c f s
  | .mulh c f => Sys2Proof.Machine.execMulh c f s
  | .mulhu c f => Sys2Proof.Machine.execMulhu c f s
  | .min c f => Sys2Proof.Machine.execMin c f s
  | .max c f => Sys2Proof.Machine.execMax c f s
  | .addi c f => Sys2Proof.Machine.execAddi c f s
  | .slti c f => Sys2Proof.Machine.execSlti c f s
  | .andi c f => Sys2Proof.Machine.execAndi c f s
  | .ori c f => Sys2Proof.Machine.execOri c f s
  | .xori c f => Sys2Proof.Machine.execXori c f s
  | .lui c f => Sys2Proof.Machine.execLui c f s
  | .slli c f => Sys2Proof.Machine.execSlli c f s
  | .srli c f => Sys2Proof.Machine.execSrli c f s
  | .srai c f => Sys2Proof.Machine.execSrai c f s
  | .fadd c f => Sys2Proof.Machine.execFadd c f s
  | .fsub c f => Sys2Proof.Machine.execFsub c f s
  | .fmul c f => Sys2Proof.Machine.execFmul c f s
  | .fmin c f => Sys2Proof.Machine.execFmin c f s
  | .fmax c f => Sys2Proof.Machine.execFmax c f s
  | .fcvtws c f => Sys2Proof.Machine.execFcvtws c f s
  | .fcvtsw c f => Sys2Proof.Machine.execFcvtsw c f s
  | .beq c f => Sys2Proof.Machine.execBeq c f s
  | .bne c f => Sys2Proof.Machine.execBne c f s
  | .blt c f => Sys2Proof.Machine.execBlt c f s
  | .bge c f => Sys2Proof.Machine.execBge c f s
  | .bltu c f => Sys2Proof.Machine.execBltu c f s
  | .bgeu c f => Sys2Proof.Machine.execBgeu c f s
  | .jal c f => Sys2Proof.Machine.execJal c f s
  | .jalr c f => Sys2Proof.Machine.execJalr c f s
  | .loop c f => Sys2Proof.Machine.execLoop c f s
  | .amov c f => Sys2Proof.Machine.execAmov c f s
  | .smova c f => Sys2Proof.Machine.execSmova c f s
  | .aadd c f => Sys2Proof.Machine.execAadd c f s
  | .aseti c f => Sys2Proof.Machine.execAseti c f s
  | .aaddi c f => Sys2Proof.Machine.execAaddi c f s
  | .lw c f => Sys2Proof.Machine.execLw c f s
  | .lh c f => Sys2Proof.Machine.execLh c f s
  | .lhu c f => Sys2Proof.Machine.execLhu c f s
  | .lb c f => Sys2Proof.Machine.execLb c f s
  | .lbu c f => Sys2Proof.Machine.execLbu c f s
  | .sw c f => Sys2Proof.Machine.execSw c f s
  | .sh c f => Sys2Proof.Machine.execSh c f s
  | .sb c f => Sys2Proof.Machine.execSb c f s
  | .vld c f => Sys2Proof.Machine.execVld c f s
  | .vst c f => Sys2Proof.Machine.execVst c f s
  | .vldh c f => Sys2Proof.Machine.execVldh c f s
  | .vldb c f => Sys2Proof.Machine.execVldb c f s
  | .vsth c f => Sys2Proof.Machine.execVsth c f s
  | .vstb c f => Sys2Proof.Machine.execVstb c f s
  | .vadd c f => Sys2Proof.Machine.execVadd c f s
  | .vsub c f => Sys2Proof.Machine.execVsub c f s
  | .vmul c f => Sys2Proof.Machine.execVmul c f s
  | .vand c f => Sys2Proof.Machine.execVand c f s
  | .vor c f => Sys2Proof.Machine.execVor c f s
  | .vxor c f => Sys2Proof.Machine.execVxor c f s
  | .vsll c f => Sys2Proof.Machine.execVsll c f s
  | .vsrl c f => Sys2Proof.Machine.execVsrl c f s
  | .vsra c f => Sys2Proof.Machine.execVsra c f s
  | .vmin c f => Sys2Proof.Machine.execVmin c f s
  | .vmax c f => Sys2Proof.Machine.execVmax c f s
  | .vminu c f => Sys2Proof.Machine.execVminu c f s
  | .vmaxu c f => Sys2Proof.Machine.execVmaxu c f s
  | .vfadd c f => Sys2Proof.Machine.execVfadd c f s
  | .vfsub c f => Sys2Proof.Machine.execVfsub c f s
  | .vfmul c f => Sys2Proof.Machine.execVfmul c f s
  | .vfma c f => Sys2Proof.Machine.execVfma c f s
  | .vfmin c f => Sys2Proof.Machine.execVfmin c f s
  | .vfmax c f => Sys2Proof.Machine.execVfmax c f s
  | .vexp2 c f => Sys2Proof.Machine.execVexp2 c f s
  | .vlog2 c f => Sys2Proof.Machine.execVlog2 c f s
  | .vrcp c f => Sys2Proof.Machine.execVrcp c f s
  | .vrsqrt c f => Sys2Proof.Machine.execVrsqrt c f s
  | .vcmpeq c f => Sys2Proof.Machine.execVcmpeq c f s
  | .vcmplt c f => Sys2Proof.Machine.execVcmplt c f s
  | .vcmple c f => Sys2Proof.Machine.execVcmple c f s
  | .vfcmpeq c f => Sys2Proof.Machine.execVfcmpeq c f s
  | .vfcmplt c f => Sys2Proof.Machine.execVfcmplt c f s
  | .vfcmple c f => Sys2Proof.Machine.execVfcmple c f s
  | .vsel c f => Sys2Proof.Machine.execVsel c f s
  | .vbcast c f => Sys2Proof.Machine.execVbcast c f s
  | .vext c f => Sys2Proof.Machine.execVext c f s
  | .vsum c f => Sys2Proof.Machine.execVsum c f s
  | .vmaxr c f => Sys2Proof.Machine.execVmaxr c f s
  | .vsumi c f => Sys2Proof.Machine.execVsumi c f s
  | .vcvt c f src dst => Sys2Proof.Machine.execVcvt c f src dst s
  | .tmac c f => Sys2Proof.Machine.execTmac c f s
  | .tzero c f => Sys2Proof.Machine.execTzero c f s
  | .trow c f => Sys2Proof.Machine.execTrow c f s
  | .tput c f => Sys2Proof.Machine.execTput c f s
  | .tst c f => Sys2Proof.Machine.execTst c f s
  | .tld c f => Sys2Proof.Machine.execTld c f s
  | .csend c f => Sys2Proof.Machine.execCsend c f s
  | .crecv c f => Sys2Proof.Machine.execCrecv c f s
  | .crecvCopy c => Sys2Proof.Machine.execCrecvCopy c s
  | .cpoll c f => Sys2Proof.Machine.execCpoll c f s
  | .copen c f => Sys2Proof.Machine.execCopen c f s
  | .cclose c f => Sys2Proof.Machine.execCclose c f s
  | .bsend c f => Sys2Proof.Machine.execBsend c f s
  | .bland c f => Sys2Proof.Machine.execBland c f s
  | .bwait c f => Sys2Proof.Machine.execBwait c f s
  | .btry c f => Sys2Proof.Machine.execBtry c f s
  | .bchk c f => Sys2Proof.Machine.execBchk c f s
  | .sacq c f => Sys2Proof.Machine.execSacq c f s
  | .stry c f => Sys2Proof.Machine.execStry c f s
  | .srel c f => Sys2Proof.Machine.execSrel c f s
  | .sbar c f => Sys2Proof.Machine.execSbar c f s
  | .sset c f => Sys2Proof.Machine.execSset c f s
  | .sclr c f => Sys2Proof.Machine.execSclr c f s
  | .swait c f => Sys2Proof.Machine.execSwait c f s
  | .crdl c f => Sys2Proof.Machine.execCrdl c f s
  | .crdh c f => Sys2Proof.Machine.execCrdh c f s
  | .cinc c f => Sys2Proof.Machine.execCinc c f s
  | .tend c f => Sys2Proof.Machine.execTend c f s
  | .tnum c f => Sys2Proof.Machine.execTnum c f s
  | .tlast c f => Sys2Proof.Machine.execTlast c f s
  | .tleft c f => Sys2Proof.Machine.execTleft c f s
  | .tstat c f => Sys2Proof.Machine.execTstat c f s
  | .xsel c f => Sys2Proof.Machine.execXsel c f s
  | .xput c f => Sys2Proof.Machine.execXput c f s
  | .xdata c f => Sys2Proof.Machine.execXdata c f s
  | .xgo c f => Sys2Proof.Machine.execXgo c f s
  | .xwait c f => Sys2Proof.Machine.execXwait c f s
  | .xwaitTimeout c => Sys2Proof.Machine.execXwaitTimeout c s
  | .xsig c f => Sys2Proof.Machine.execXsig c f s
  | .xverd c f => Sys2Proof.Machine.execXverd c f s
  | .xpub c f => Sys2Proof.Machine.execXpub c f s
  | .sequencerMismatch c => Sys2Proof.Machine.execSequencerMismatch c s
  | .istoreParity c => Sys2Proof.Machine.execIstoreParity c s
  | .packetRoute r out => Sys2Proof.Machine.execPacketRoute r out s
  | .multicastForward r credit => Sys2Proof.Machine.execMulticastForward r credit s
  | .messageAdmission c => Sys2Proof.Machine.execMessageAdmission c s
  | .blockEjection c => Sys2Proof.Machine.execBlockEjection c s
  | .blockLanding c n => Sys2Proof.Machine.execBlockLanding c n s
  | .stallWatchdogFire c port => Sys2Proof.Machine.execStallWatchdogFire c port s
  | .aliveBeat r => Sys2Proof.Machine.execAliveBeat r s
  | .linkWatchdogFire r dir cut => Sys2Proof.Machine.execLinkWatchdogFire r dir cut s
  | .farRouterQuery r dir alive => Sys2Proof.Machine.execFarRouterQuery r dir alive s
  | .routerDownNotice region => Sys2Proof.Machine.execRouterDownNotice region s
  | .poisonTailArrival c => Sys2Proof.Machine.execPoisonTailArrival c s
  | .statusScan region dead => Sys2Proof.Machine.execStatusScan region dead s
  | .tableRebuild region => Sys2Proof.Machine.execTableRebuild region s
  | .syncRequest region => Sys2Proof.Machine.execSyncRequest region s
  | .syncAnswer c => Sys2Proof.Machine.execSyncAnswer c s
  | .syncFullReissue c => Sys2Proof.Machine.execSyncFullReissue c s
  | .forfeitNotice region => Sys2Proof.Machine.execForfeitNotice region s
  | .grantReturn region => Sys2Proof.Machine.execGrantReturn region s
  | .regionOffline region cause => Sys2Proof.Machine.execRegionOffline region cause s
  | .cntLoRead path unit n inc => Sys2Proof.Machine.execCntLoRead path unit n inc s
  | .cntLoWrite path unit n v inc => Sys2Proof.Machine.execCntLoWrite path unit n v inc s
  | .cntHiWrite path unit n v inc => Sys2Proof.Machine.execCntHiWrite path unit n v inc s
  | .cntFreeze unit v n inc => Sys2Proof.Machine.execCntFreeze unit v n inc s
  | .programFlit region => Sys2Proof.Machine.execProgramFlit region s
  | .regionConfirm region damaged => Sys2Proof.Machine.execRegionConfirm region damaged s
  | .confirmTimeout region => Sys2Proof.Machine.execConfirmTimeout region s
  | .tideStart e => Sys2Proof.Machine.execTideStart e s
  | .tdone region => Sys2Proof.Machine.execTdone region s
  | .tdoneReceive e => Sys2Proof.Machine.execTdoneReceive e s
  | .deadline e => Sys2Proof.Machine.execDeadline e s
  | .guardOpen e => Sys2Proof.Machine.execGuardOpen e s
  | .withhold region => Sys2Proof.Machine.execWithhold region s
  | .commit region => Sys2Proof.Machine.execCommit region s
  | .tideClean region => Sys2Proof.Machine.execTideClean region s
  | .nocmd region => Sys2Proof.Machine.execNocmd region s
  | .mirrorBlockArrival c => Sys2Proof.Machine.execMirrorBlockArrival c s
  | .checkpointCopy e => Sys2Proof.Machine.execCheckpointCopy e s
  | .checkpointDone e => Sys2Proof.Machine.execCheckpointDone e s
  | .restore c bad => Sys2Proof.Machine.execRestore c bad s
  | .alignDrive => Sys2Proof.Machine.execAlignDrive s
  | .alignPulse tr => Sys2Proof.Machine.execAlignPulse tr s
  | .alignMiss => Sys2Proof.Machine.execAlignMiss s
  | .shiFrameReceive b g dir f => Sys2Proof.Machine.execShiFrameReceive b g dir f s
  | .shiAckTimeout b g dir => Sys2Proof.Machine.execShiAckTimeout b g dir s
  | .shiTraining b ok => Sys2Proof.Machine.execShiTraining b ok s
  | .shiTrainTimeout b => Sys2Proof.Machine.execShiTrainTimeout b s
  | .bridgeDown b => Sys2Proof.Machine.execBridgeDown b s
  | .bridgeDownNotice region => Sys2Proof.Machine.execBridgeDownNotice region s
  | .groupOut b g => Sys2Proof.Machine.execGroupOut b g s
  | .inject b => Sys2Proof.Machine.execInject b s
  | .relay n output => Sys2Proof.Machine.execRelay n output s
  | .relayReceive b => Sys2Proof.Machine.execRelayReceive b s
  | .transferFlitArrival p => Sys2Proof.Machine.execTransferFlitArrival p s
  | .tailBurstMove b g => Sys2Proof.Machine.execTailBurstMove b g s
  | .tailTimerMove b g => Sys2Proof.Machine.execTailTimerMove b g s
  | .egressBlockPlace b => Sys2Proof.Machine.execEgressBlockPlace b s
  | .deliver n => Sys2Proof.Machine.execDeliver n s
  | .xlUnitReceive p dir u => Sys2Proof.Machine.execXlUnitReceive p dir u s
  | .xlAckTimeout p dir => Sys2Proof.Machine.execXlAckTimeout p dir s
  | .xlTraining p => Sys2Proof.Machine.execXlTraining p s
  | .xlTrainTimeout p => Sys2Proof.Machine.execXlTrainTimeout p s
  | .ident p x t => Sys2Proof.Machine.execIdent p x t s
  | .xlRetrain p => Sys2Proof.Machine.execXlRetrain p s
  | .xlDown p => Sys2Proof.Machine.execXlDown p s
  | .holdNIn p low => Sys2Proof.Machine.execHoldNIn p low s
  | .advert p priority module dist => Sys2Proof.Machine.execAdvert p priority module dist s
  | .domRoute routes present kids => Sys2Proof.Machine.execDomRoute routes present kids s
  | .timeSet t => Sys2Proof.Machine.execTimeSet t s
  | .write quad ch => Sys2Proof.Machine.execWrite quad ch s
  | .writeRec quad ch => Sys2Proof.Machine.execWriteRec quad ch s
  | .read quad ch errs => Sys2Proof.Machine.execRead quad ch errs s
  | .readRec quad ch errs => Sys2Proof.Machine.execReadRec quad ch errs s
  | .xack e => Sys2Proof.Machine.execXack e s
  | .xackTimeout e => Sys2Proof.Machine.execXackTimeout e s
  | .append quad ch => Sys2Proof.Machine.execAppend quad ch s
  | .hcommit quad ch errs => Sys2Proof.Machine.execHcommit quad ch errs s
  | .hdiscard quad ch => Sys2Proof.Machine.execHdiscard quad ch s
  | .hack e => Sys2Proof.Machine.execHack e s
  | .hackTimeout e => Sys2Proof.Machine.execHackTimeout e s
  | .hhole e => Sys2Proof.Machine.execHhole e s
  | .summarize quad ch errs => Sys2Proof.Machine.execSummarize quad ch errs s
  | .scorePages quad ch errs => Sys2Proof.Machine.execScorePages quad ch errs s
  | .scoreTokens quad ch errs => Sys2Proof.Machine.execScoreTokens quad ch errs s
  | .topk quad ch => Sys2Proof.Machine.execTopk quad ch s
  | .gather quad ch errs => Sys2Proof.Machine.execGather quad ch errs s
  | .accum quad ch errs => Sys2Proof.Machine.execAccum quad ch errs s
  | .copyLocal quad ch errs => Sys2Proof.Machine.execCopyLocal quad ch errs s
  | .nmuTimeout quad ch => Sys2Proof.Machine.execNmuTimeout quad ch s
  | .hbChModeReq quad ch req => Sys2Proof.Machine.execHbChModeReq quad ch req s
  | .channelZeroing quad ch => Sys2Proof.Machine.execChannelZeroing quad ch s
  | .bandUpdate quad ch => Sys2Proof.Machine.execBandUpdate quad ch s
  | .budgetWindow quad ch => Sys2Proof.Machine.execBudgetWindow quad ch s
  | .patrolScrub quad ch errs => Sys2Proof.Machine.execPatrolScrub quad ch errs s
  | .bankFence quad ch bank reason => Sys2Proof.Machine.execBankFence quad ch bank reason s
  | .channelFail quad ch => Sys2Proof.Machine.execChannelFail quad ch s
  | .bridgeProxyAnswer p => Sys2Proof.Machine.execBridgeProxyAnswer p s
  | .doorbellPoll fn pair late => Sys2Proof.Machine.execDoorbellPoll fn pair late s
  | .doorbellRead fn pair err => Sys2Proof.Machine.execDoorbellRead fn pair err s
  | .entryFetch fn pair err => Sys2Proof.Machine.execEntryFetch fn pair err s
  | .entryArrival fn pair => Sys2Proof.Machine.execEntryArrival fn pair s
  | .completionWrite fn pair => Sys2Proof.Machine.execCompletionWrite fn pair s
  | .msixSend fn vector => Sys2Proof.Machine.execMsixSend fn vector s
  | .vectorTimeExpiry fn vector => Sys2Proof.Machine.execVectorTimeExpiry fn vector s
  | .eventVector fn => Sys2Proof.Machine.execEventVector fn s
  | .ringEnable fn pair ctl => Sys2Proof.Machine.execRingEnable fn pair ctl s
  | .ringDisable fn pair => Sys2Proof.Machine.execRingDisable fn pair s
  | .ringReport fn pair => Sys2Proof.Machine.execRingReport fn pair s
  | .pcieFlr fn => Sys2Proof.Machine.execPcieFlr fn s
  | .resetSoft fn => Sys2Proof.Machine.execResetSoft fn s
  | .fnResetDone fn => Sys2Proof.Machine.execFnResetDone fn s
  | .failover fn => Sys2Proof.Machine.execFailover fn s
  | .linkDownTimeout port => Sys2Proof.Machine.execLinkDownTimeout port s
  | .admEngOwnerWrite e v => Sys2Proof.Machine.execAdmEngOwnerWrite e v s
  | .admFnCfgWrite f v => Sys2Proof.Machine.execAdmFnCfgWrite f v s
  | .list e j err => Sys2Proof.Machine.execList e j err s
  | .fence e j => Sys2Proof.Machine.execFence e j s
  | .cntSnap e j => Sys2Proof.Machine.execCntSnap e j s
  | .engReset e j => Sys2Proof.Machine.execEngReset e j s
  | .imageLoad e j err => Sys2Proof.Machine.execImageLoad e j err s
  | .imageUnbind e j => Sys2Proof.Machine.execImageUnbind e j s
  | .tideBind e j => Sys2Proof.Machine.execTideBind e j s
  | .streamOpen e j err => Sys2Proof.Machine.execStreamOpen e j err s
  | .streamClose e j => Sys2Proof.Machine.execStreamClose e j s
  | .frameIn e j err => Sys2Proof.Machine.execFrameIn e j err s
  | .frameOut e j => Sys2Proof.Machine.execFrameOut e j s
  | .frameComplete n => Sys2Proof.Machine.execFrameComplete n s
  | .checkpoint e j => Sys2Proof.Machine.execCheckpoint e j s
  | .syncWait e j => Sys2Proof.Machine.execSyncWait e j s
  | .syncWaitTimeout e j => Sys2Proof.Machine.execSyncWaitTimeout e j s
  | .syncSignalSet e j => Sys2Proof.Machine.execSyncSignalSet e j s
  | .syncSignalClear e j => Sys2Proof.Machine.execSyncSignalClear e j s
  | .syncSignalRelease e j => Sys2Proof.Machine.execSyncSignalRelease e j s
  | .engineSyncAnswer e => Sys2Proof.Machine.execEngineSyncAnswer e s
  | .audit e j => Sys2Proof.Machine.execAudit e j s
  | .copy e j err => Sys2Proof.Machine.execCopy e j err s
  | .weightPin e j err => Sys2Proof.Machine.execWeightPin e j err s
  | .pinOrder region => Sys2Proof.Machine.execPinOrder region s
  | .pinBlockLand c => Sys2Proof.Machine.execPinBlockLand c s
  | .regionAssign j => Sys2Proof.Machine.execRegionAssign j s
  | .regionRelease j => Sys2Proof.Machine.execRegionRelease j s
  | .scrubDone region bad => Sys2Proof.Machine.execScrubDone region bad s
  | .hchAssign j => Sys2Proof.Machine.execHchAssign j s
  | .hchRelease j => Sys2Proof.Machine.execHchRelease j s
  | .regRead j => Sys2Proof.Machine.execRegRead j s
  | .regWrite j => Sys2Proof.Machine.execRegWrite j s
  | .regTimeout j => Sys2Proof.Machine.execRegTimeout j s
  | .ttaintReceive e => Sys2Proof.Machine.execTtaintReceive e s
  | .strIntPolSet fn v => Sys2Proof.Machine.execStrIntPolSet fn v s
  | .auditPass e => Sys2Proof.Machine.execAuditPass e s
  | .refetch e => Sys2Proof.Machine.execRefetch e s
  | .refetchTimeout e => Sys2Proof.Machine.execRefetchTimeout e s
  | .hmUpdate unit => Sys2Proof.Machine.execHmUpdate unit s
  | .liveReport unit => Sys2Proof.Machine.execLiveReport unit s
  | .selfCheck unit pass => Sys2Proof.Machine.execSelfCheck unit pass s
  | .rowSlide region row bad => Sys2Proof.Machine.execRowSlide region row bad s
  | .slideBack region row bad => Sys2Proof.Machine.execSlideBack region row bad s
  | .rowRebuild region row bad => Sys2Proof.Machine.execRowRebuild region row bad s
  | .relocation e confirmed bad => Sys2Proof.Machine.execRelocation e confirmed bad s
  | .relocTimeout e => Sys2Proof.Machine.execRelocTimeout e s
  | .mgmtEscalation region => Sys2Proof.Machine.execMgmtEscalation region s
  | .bringupPhase f => Sys2Proof.Machine.execBringupPhase f s
  | .phaseTimeout f => Sys2Proof.Machine.execPhaseTimeout f s
  | .tieBreakScan c pass run => Sys2Proof.Machine.execTieBreakScan c pass run s
  | .ftDue region => Sys2Proof.Machine.execFtDue region s
  | .testSlide region bad => Sys2Proof.Machine.execTestSlide region bad s
  | .ftVerdict c fail => Sys2Proof.Machine.execFtVerdict c fail s
  | .ftAbandon region bad => Sys2Proof.Machine.execFtAbandon region bad s
  | .spareTest region => Sys2Proof.Machine.execSpareTest region s
  | .testStarved region row => Sys2Proof.Machine.execTestStarved region row s
  | .ftGrant v => Sys2Proof.Machine.execFtGrant v s
  | .overdueSuspect region => Sys2Proof.Machine.execOverdueSuspect region s
  | .ftCtlWrite v => Sys2Proof.Machine.execFtCtlWrite v s
  | .seawallFrame f => Sys2Proof.Machine.execSeawallFrame f s
  | .frameResend src dst => Sys2Proof.Machine.execFrameResend src dst s
  | .telemetry src => Sys2Proof.Machine.execTelemetry src s
  | .telemetryTimeout src => Sys2Proof.Machine.execTelemetryTimeout src s
  | .monitorEscalation b => Sys2Proof.Machine.execMonitorEscalation b s
  | .healthPersist => Sys2Proof.Machine.execHealthPersist s
  | .lhRecovery => Sys2Proof.Machine.execLhRecovery s
  | .epochQuery node => Sys2Proof.Machine.execEpochQuery node s
  | .eventRecord unit => Sys2Proof.Machine.execEventRecord unit s
  | .eventLost unit => Sys2Proof.Machine.execEventLost unit s
  | .sensorSample id v => Sys2Proof.Machine.execSensorSample id v s
  | .getHealth m => Sys2Proof.Machine.execGetHealth m s
  | .healthSince m => Sys2Proof.Machine.execHealthSince m s
  | .getLog m => Sys2Proof.Machine.execGetLog m s
  | .unitOrderFence m => Sys2Proof.Machine.execUnitOrderFence m s
  | .unitOrderRelease m => Sys2Proof.Machine.execUnitOrderRelease m s
  | .unitOrderRetire m => Sys2Proof.Machine.execUnitOrderRetire m s
  | .unitOrderSuspect m => Sys2Proof.Machine.execUnitOrderSuspect m s
  | .portOrderBridgeDown m => Sys2Proof.Machine.execPortOrderBridgeDown m s
  | .portOrderXlDown m => Sys2Proof.Machine.execPortOrderXlDown m s
  | .portOrderXlRetrain m => Sys2Proof.Machine.execPortOrderXlRetrain m s
  | .portOrderFailover m => Sys2Proof.Machine.execPortOrderFailover m s
  | .getSensors m => Sys2Proof.Machine.execGetSensors m s
  | .getFw m => Sys2Proof.Machine.execGetFw m s
  | .hbRelay m reply => Sys2Proof.Machine.execHbRelay m reply s
  | .lhRestart m => Sys2Proof.Machine.execLhRestart m s
  | .lhRestartBringup m => Sys2Proof.Machine.execLhRestartBringup m s
  | .hbState unit => Sys2Proof.Machine.execHbState unit s
  | .hbHm unit => Sys2Proof.Machine.execHbHm unit s
  | .hbSensors quad => Sys2Proof.Machine.execHbSensors quad s
  | .hbEvent quad => Sys2Proof.Machine.execHbEvent quad s
  | .hbReg write unit off wide value mask => Sys2Proof.Machine.execHbReg write unit off wide value mask s
  | .peerNotice cage bytes => Sys2Proof.Machine.execPeerNotice cage bytes s
  | .getSensorReading via id => Sys2Proof.Machine.execGetSensorReading via id s
  | .setEventReceiver via eid => Sys2Proof.Machine.execSetEventReceiver via eid s
  | .mbxGo => Sys2Proof.Machine.execMbxGo s
  | .mbxTimeout => Sys2Proof.Machine.execMbxTimeout s
  | .requestUpdate via => Sys2Proof.Machine.execRequestUpdate via s
  | .verifyComplete via image => Sys2Proof.Machine.execVerifyComplete via image s
  | .activateFirmware via selfContained => Sys2Proof.Machine.execActivateFirmware via selfContained s
  | .lhBoot straps => Sys2Proof.Machine.execLhBoot straps s
  | .trialTimeout => Sys2Proof.Machine.execTrialTimeout s
  | .lhWatchdog => Sys2Proof.Machine.execLhWatchdog s
  | .supplyRange => Sys2Proof.Machine.execSupplyRange s
  | .lockout => Sys2Proof.Machine.execLockout s
  | .rampWave bad => Sys2Proof.Machine.execRampWave bad s
  | .rootLockLoss => Sys2Proof.Machine.execRootLockLoss s
  | .referenceStop => Sys2Proof.Machine.execReferenceStop s
  | .tlUpdate region => Sys2Proof.Machine.execTlUpdate region s
  | .gUpdate => Sys2Proof.Machine.execGUpdate s
  | .regionTrip region => Sys2Proof.Machine.execRegionTrip region s
  | .bridgeTrip b => Sys2Proof.Machine.execBridgeTrip b s
  | .regulatorFault region hot => Sys2Proof.Machine.execRegulatorFault region hot s
  | .neighbourPgFall region dir => Sys2Proof.Machine.execNeighbourPgFall region dir s
  | .dbgCtlWrite v => Sys2Proof.Machine.execDbgCtlWrite v s
  | .lhPreempt release => Sys2Proof.Machine.execLhPreempt release s
  | .extest ext tap => Sys2Proof.Machine.execExtest ext tap s
  | .samplePreload ext tap pins data => Sys2Proof.Machine.execSamplePreload ext tap pins data s
  | .idcode ext tap => Sys2Proof.Machine.execIdcode ext tap s
  | .ijsel ext tap => Sys2Proof.Machine.execIjsel ext tap s
  | .bypass ext tap => Sys2Proof.Machine.execBypass ext tap s
  | .regaccRead ext region space row col off => Sys2Proof.Machine.execRegaccRead ext region space row col off s
  | .regaccWrite ext region space row col off data => Sys2Proof.Machine.execRegaccWrite ext region space row col off data s
  | .coreSibOpen ext region => Sys2Proof.Machine.execCoreSibOpen ext region s
  | .coreSibClose ext region => Sys2Proof.Machine.execCoreSibClose ext region s
  | .sndSelWrite k v => Sys2Proof.Machine.execSndSelWrite k v s
  | .trstN low => Sys2Proof.Machine.execTrstN low s
  | .perstN port low => Sys2Proof.Machine.execPerstN port low s
  | .smbClockLowTimeout => Sys2Proof.Machine.execSmbClockLowTimeout s
  | .mctpGapTimeout via => Sys2Proof.Machine.execMctpGapTimeout via s
  | .registerWrite w => Sys2Proof.Machine.execRegisterWrite w s
  | .hostLinkL0Change port up => Sys2Proof.Machine.execHostLinkL0Change port up s
  | .vfEnableClear port => Sys2Proof.Machine.execVfEnableClear port s
  | .harbourPowerOn quad bad => Sys2Proof.Machine.execHarbourPowerOn quad bad s
  | .msixUnmask fn vector => Sys2Proof.Machine.execMsixUnmask fn vector s
  | .hostReadTimeout read => Sys2Proof.Machine.execHostReadTimeout read s
  | .inputPowerRemoval => Sys2Proof.Machine.execInputPowerRemoval s

end Sys2Proof.Machine
end

