-- ==== Sys2Proof/Machine/Step.lean ====
section
/-! DEFINITION. Machine/Step.lean: one step of the block: the command at the front of the queue, or an idle cycle. -/

namespace Sys2Proof.Machine

open Sys2Proof

/-- The command at the front of the queue takes effect on the rest of the state. On an empty queue one CCLK cycle passes (log 1).
[DESIGN CHOICE: log 1, 2, 3] -/
def step (s : State) : Host.Outcome State Fault Refusal :=
  match s.pending with
  | [] => .next (idleCycle s)
  | c :: rest => exec c { s with pending := rest }

/-- The state with the command that a word spells at the front of its queue; no word spells one. [DESIGN CHOICE: log 2] -/
def State.withFetchWord (s : State) (nbits w : Nat) : State :=
  match decodeTableWord nbits w with
  | none => s
  | some c => { s with pending := c :: s.pending }

end Sys2Proof.Machine
end

