-- ==== Sys2Proof/Machine/BarRead.lean ====
section
/-! DEFINITION. Machine/BarRead.lean: what a host read of BAR0 returns (R330, R331, R390, R444, R465, R491, R522, R525, R541,
R544–R551, R554), and the levels of the sounding pins (R537). The table has no row for such a read, which changes nothing; these
functions say what software and the pins show of a state. -/

namespace Sys2Proof.Machine

open Sys2Proof

/-- A 4 B register from its fields. -/
def regWord (fs : List (Nat × Nat)) : Word := BitVec.ofNat 32 (pack fs)

/-- One half of an 8 B register. -/
def halfOf (high : Bool) (v : DWord) : Word := if high then v.extractLsb' 32 32 else v.setWidth 32

/-! ### Function registers and engine blocks (R541, R546, R549, R550) -/

/-- STR_INT_POL: the policy of the stream that it names, when the function owns it (R390). [DEDUCED: log 201] -/
def readPolicy (s : State) (fn : Nat) : Word :=
  let n := (getFn s fn).polStream.toNat
  let p : Nat := match getStream s n with
    | some x => if x.fn = fn then x.policy.toNat else 3
    | none => 3
  regWord [(12, n), (2, p)]

/-- Open streams that name an engine (R367). -/
def streamsNaming (s : State) (e : Nat) : Nat :=
  (s.streams.filter (fun x => x.2.any (fun y => decide (y.inEng = e ∨ y.outEng = e)))).length

/-- The block of an engine, for the function that owns it. -/
def readEngine (s : State) (fn e off : Nat) : Word :=
  let g := getEngine s e
  if !g.owned ∨ g.owner.toNat ≠ fn then 0
  else if off = 0 then regWord [(3, g.state.toNat), (1, 1), (12, 0), (16, if g.state = 4 then g.faultStatus.toNat else 0)]
  else if 8 ≤ e then 0
  else if off = 4 then regWord [(12, streamsNaming s e)]
  else if off = 8 then regWord [(16, g.auditPeriod.toNat), (1, g.auditEn.toNat), (1, g.auditRun.isSome.toNat)]
  else if off = 0xC then regWord [(3, g.params.period.toNat), (1, g.params.ckptValid.toNat), (12, 0), (16, g.params.ckptTides.toNat)]
  else if off = 0x10 then regWord [(20, g.params.deadline.toNat)]
  else if off = 0x18 ∨ off = 0x1C then halfOf (off = 0x1C) g.params.ckptBase
  else if off = 0x20 then (if g.state = 2 ∨ g.state = 3 then g.tide.num else noTide)
  else if 0x30 ≤ off then
    (match g.image with
      | some im => if g.state = 1 then 0 else BitVec.ofNat 32 (field im.imageId (off - 0x30) 4)
      | none => 0)
  else 0

/-- The function registers. -/
def readFn (s : State) (fn off : Nat) : Word :=
  let g := getFn s fn
  if off = 0 then regWord [(8, Config.idStepMinor.toNat), (8, 1), (16, 0x5512)]
  else if off = 8 then regWord [(1, g.port.toNat), (1, g.standbyOk.toNat), (1, g.resetBusy.toNat), (5, fn)]
  else if off = 0xC then regWord [(8, g.event.toNat)]
  else if off = 0x10 then regWord [(8, g.eventEn.toNat)]
  else if off = 0x14 then readPolicy s fn
  else if 0x400 ≤ off ∧ off < 0x400 + 64 * 13 then readEngine s fn ((off - 0x400) / 64) (off % 64)
  else 0

/-! ### Rings and vectors (R335, R345, R547, R548) -/

/-- A word of a ring pair's registers. -/
def readPair (s : State) (fn k off : Nat) : Word :=
  let p := getPair s (pairKey fn k)
  let high := decide (off % 8 = 4)
  if pairCount fn ≤ k then 0
  else if off < 8 then halfOf high p.sr
  else if off < 0x10 then halfOf high p.cr
  else if off < 0x18 then halfOf high p.db
  else if off = 0x18 then p.ctl
  else regWord [(1, p.halted.toNat), (1, (pairBusy p).toNat), (3, p.cause.toNat), (11, 0), (16, p.head.toNat)]

/-- VEC_MOD of a vector; VEC_MOD[0] reads 0. -/
def readVecMod (s : State) (fn i : Nat) : Word :=
  let x := getVec s (2048 * fn + i)
  if i = 0 ∨ vecCount fn ≤ i then 0 else regWord [(9, x.count.toNat), (11, x.time.toNat)]

/-- A word of an MSI-X table entry. -/
def readMsix (s : State) (fn i word : Nat) : Word :=
  let x := getVec s (2048 * fn + i)
  if vecCount fn ≤ i then 0
  else match word with
  | 0 => halfOf false x.addr
  | 1 => halfOf true x.addr
  | 2 => x.data
  | _ => regWord [(1, x.masked.toNat)]

/-- A word of the pending-bit array. -/
def readPba (s : State) (fn word : Nat) : Word :=
  if vecCount fn ≤ 32 * word then 0
  else (List.range 32).foldl (fun w i => if (getVec s (2048 * fn + 32 * word + i)).pba then w ||| (1#32 <<< i) else w) 0

/-! ### The administration block (R551) -/

/-- UP_STAT (R444). -/
def readUpStat (s : State) : Word :=
  let u := s.up
  regWord [(4, u.phase), (1, u.ready.toNat), (1, u.fatal.toNat), (4, u.fatalPhase), (6, 0), (16, (u.endUs.getD (nowUs s) - u.startUs) / 100000)]

/-- FT_STARVED (R465): the ungranted starved row whose most overdue core is oldest. -/
def readStarved (s : State) : Word :=
  let age (x : Nat × Nat × Bool) : Nat := ((rowCores x.1 x.2.1).map (overdueBy s)).foldl max 0
  let best := ((starvedRows s).filter (fun x => !x.2.2)).foldl (fun b x =>
    match b with
    | none => some x
    | some y => if age y < age x then some x else b) (none : Option (Nat × Nat × Bool))
  match best with
  | none => 0
  | some x => regWord [(9, x.1), (5, x.2.1), (1, 1), (8, min 255 (age x / hourTid))]

/-- A value in whole units of a hundred; 0 when it is below one. -/
def hundreds : FV → Nat
  | .fin false m e => if 0 ≤ e then m * 2 ^ e.toNat / 100 else m / (2 ^ (-e).toNat * 100)
  | _ => 0

/-- PWR_STAT (R522). -/
def readPwrStat (s : State) : Word :=
  let p := s.power
  regWord [(4, p.g), (1, p.supply.toNat), (1, (decide (0 < p.cool)).toNat), (1, (decide (0 < p.cap)).toNat), (9, 0),
    (16, min 65535 (((inputPower s).map hundreds).getD 0))]

/-- DOM_CTL, DOM_STAT and DOM_ROUTE of a module (R273–R276). -/
def readDomain (s : State) (off : Nat) : Word :=
  let d := s.dom
  if off = 0 then regWord [(16, d.id.toNat), (4, d.module.toNat), (4, d.size.toNat), (4, d.priority.toNat), (1, d.en.toNat)]
  else if off = 4 then
    regWord [(3, d.dstate.toNat), (4, d.master.toNat), (4, d.parentPort.toNat), (2, d.depth.toNat), (3, 0), (16, d.present.toNat)]
  else if 0x40 ≤ off ∧ off < 0x80 then
    (match tget none d.route ((off - 0x40) / 4) with
      | some p => regWord [(4, p.toNat), (1, 1)]
      | none => 0)
  else 0

/-- The administration block. -/
def readAdmin (s : State) (off : Nat) : Word :=
  if off < 0x80 then regWord [(1, (getFn s (off / 4)).home.toNat), (1, (getFn s (off / 4)).keep.toNat)]
  else if off < 0x80 + 4 * 13 then
    let g := getEngine s ((off - 0x80) / 4)
    regWord [(5, g.owner.toNat), (1, g.owned.toNat)]
  else if off = 0x100 then readUpStat s
  else if off = 0x104 then regWord [(11, s.up.interval.toNat)]
  else if off = 0x108 then readStarved s
  else if off = 0x110 then regWord [(5, s.power.capKw.toNat), (1, s.power.capEn.toNat)]
  else if off = 0x114 then readPwrStat s
  else if off = 0x120 then
    regWord [(1, s.dbg.extEn.toNat), (1, (extDrives s).toNat), (1, s.dbg.lhHold.toNat), (1, s.dbg.preempted.toNat)]
  else if off = 0x124 then chainNow s
  else if 0x140 ≤ off ∧ off < 0x160 then tget 0 s.dbg.snd ((off - 0x140) / 4)
  else if 0x200 ≤ off ∧ off < 0x280 then readDomain s (off - 0x200)
  else if 0x1000 ≤ off ∧ off < 0x1800 then regWord [(6, (tget 0 s.dom.funcMap ((off - 0x1000) / 4)).toNat)]
  else 0

/-- The mailbox block (R491). -/
def readMailbox (s : State) (off : Nat) : Word :=
  let m := s.lh.mbx
  if off = 4 then regWord [(15, m.len.toNat)]
  else if off = 8 then regWord [(1, m.busy.toNat), (1, m.done.toNat)]
  else if off = 0xC then regWord [(16, m.rspLen.toNat)]
  else if 0x1000 ≤ off ∧ off < 0x8000 then BitVec.ofNat 32 (ofBytes (readBytes m.req (off - 0x1000) 4))
  else if 0x8000 ≤ off then BitVec.ofNat 32 (field m.rsp (off - 0x8000) 4)
  else 0

/-! ### BAR0 (R330, R331, R544) -/

/-- The word at an offset; an offset that is not listed, a WO field and a block that the function has not read 0. -/
def barReadWord (s : State) (fn off : Nat) : Word :=
  if fn ≠ 0 ∧ 0x20000 ≤ off then 0
  else if off < 0x1000 then readFn s fn off
  else if off < 0x3000 then readPair s fn ((off - 0x1000) / 32) (off % 32)
  else if 0x4000 ≤ off ∧ off < 0x6000 then readVecMod s fn ((off - 0x4000) / 4)
  else if 0x8000 ≤ off ∧ off < 0x10000 then readMsix s fn ((off - 0x8000) / 16) (off % 16 / 4)
  else if 0x10000 ≤ off ∧ off < 0x10100 then readPba s fn ((off - 0x10000) / 4)
  else if 0x20000 ≤ off ∧ off < 0x30000 then readAdmin s (off - 0x20000)
  else if 0x40000 ≤ off ∧ off < 0x50000 then readMailbox s (off - 0x40000)
  else 0

/-- An aligned read of 4 B or 8 B, through either port; an 8 B read returns both words from one state. [DEDUCED: log 201] -/
def barRead (s : State) (fn off : Nat) (wide : Bool) : DWord :=
  if wide then
    (if off % 8 = 0 then (barReadWord s fn (off + 4) ++ barReadWord s fn off : BitVec 64) else 0)
  else if off % 4 = 0 then (barReadWord s fn off).setWidth 64
  else 0

/-! ### Sounding pins (R537) -/

/-- The level of the signal that a selection names; none for a pulse, and for a level that rises and falls within one row. -/
def sndLevel (s : State) (v : Word) : Option Bool :=
  let u := sndUnit v
  match sndSource v, sndSignal v with
  | 1, 0x03 => some (getEngine s u).tide.guard
  | 1, 0x05 => some (decide (0 < s.power.g))
  | 2, 0x11 => some (decide ((getBridge s u).shiState = 4))
  | 2, 0x12 => some (getBridge s u).wmHold
  | 2, 0x13 => some (!(getBridge s u).holdIn)
  | 3, 0x24 => some (getRegion s u).scrubBusy
  | 3, 0x25 => some (decide ((getRegion s u).lvl ≠ 0))
  | 3, 0x26 => some (powerGood s u)
  | _, _ => none

/-- The selected region or bridge is unpowered or down. -/
def sndDark (s : State) (v : Word) : Bool :=
  (decide (sndSource v = 2) && (bridgeDown s (sndUnit v) || !s.power.bus)) || (decide (sndSource v = 3) && !(getRegion s (sndUnit v)).powered)

/-- The level of a sounding pin: 0 while it is off, its idle level while its unit is dark, and the signal otherwise. -/
def sndPin (s : State) (k : Nat) : Option Bool :=
  let v := tget 0 s.dbg.snd k
  if sndSource v = 0 then some false
  else if sndDark s v then some (v.getLsbD 17)
  else (sndLevel s v).map (fun b => b != v.getLsbD 17)

end Sys2Proof.Machine
end

