-- ==== Sys2Proof/Safety.lean ====
section
/-! DEFINITION. Safety.lean: the terms in which the statements about the machine are written: when a core issues, what an
instruction leaves alone, and the invariant that every step keeps. -/

namespace Sys2Proof.Machine

open Sys2Proof

/-- The command completes in a next state of which `p` holds. -/
def Does (i : Instr) (s : State) (p : State → Prop) : Prop := ∃ t, exec i s = .next t ∧ p t

/-- Counter `n` of unit `u` has advanced by `v`. -/
def Gains (u n v : Nat) (s t : State) : Prop := getCtr t u n = (getCtr s u n).add v

/-! ### Cores -/

/-- The clocks run, the core's sequencer runs, and no register that the instruction names waits for a sync answer (R51, R500). -/
def Ready (s : State) (key : Nat) (uses : List (BitVec 5)) : Prop :=
  clocksRun s = true ∧ canIssue (getCore s key) uses = true

/-- The word that follows in sequence exists (R56). -/
def GoesOn (s : State) (key : Nat) : Prop :=
  (afterWord (getCore s key) (getCore s key).pc.toNat).2 ≤ 4095

/-- One counter has advanced by `v`, and nothing else of the counters has changed. -/
def Counted (u n v : Nat) (s t : State) : Prop :=
  t.cnt = { s.cnt with live := t.cnt.live } ∧ getCtr t u n = (getCtr s u n).add v
    ∧ ∀ u' n', ctrKey u' n' ≠ ctrKey u n → getCtr t u' n' = getCtr s u' n'

/-- The frame of an instruction that acts on its core only: every other core and all the rest of the machine stay, but for the
counter INSTR of the core. -/
def OnlyCore (key : Nat) (s t : State) : Prop :=
  t = { s with cores := t.cores, cnt := t.cnt } ∧ (∀ j, j ≠ key → getCore t j = getCore s j)
    ∧ Counted (uCore key) cInstr 1 s t

/-- Program flow in sequence: where no loop body ends at this word, the next word follows and both loops stay (R56, R58). -/
def Flow (k k' : Core) : Prop :=
  (∀ l, k.loop0 = some l → l.stop ≠ k.pc.toNat) → (∀ l, k.loop1 = some l → l.stop ≠ k.pc.toNat) →
    k'.pc = k.pc + 1 ∧ k'.loop0 = k.loop0 ∧ k'.loop1 = k.loop1

/-- The core `k'` is `k1` but for the program counter and the loops. -/
def Moves (k1 k' : Core) : Prop := k' = { k1 with pc := k'.pc, loop0 := k'.loop0, loop1 := k'.loop1 }

/-- Scalar register `d` takes `v` (nothing where it is s0), and the rest of the core stays. -/
def ScalarTakes (d : BitVec 5) (v : Word) (k k' : Core) : Prop :=
  sGet k' d = (if d = 0 then 0 else v) ∧ (∀ r, r ≠ d → sGet k' r = sGet k r)
    ∧ k' = { k with sreg := k'.sreg, pc := k'.pc, loop0 := k'.loop0, loop1 := k'.loop1 }

/-- Address register `d` takes `v`, and the rest of the core stays. -/
def AddressTakes (d : Nat) (v : Word) (k k' : Core) : Prop :=
  aGet k' d = v ∧ (∀ r, r ≠ d → aGet k' r = aGet k r)
    ∧ k' = { k with areg := k'.areg, pc := k'.pc, loop0 := k'.loop0, loop1 := k'.loop1 }

/-- The enabled lanes of vector register `d` take `v`; its other lanes, every other vector register and the rest of the core
stay (R53). -/
def LanesTake (d : Nat) (on : Nat → Bool) (v : Nat → Word) (k k' : Core) : Prop :=
  (∀ i, i < 32 → vGet k' d i = if on i then v i else vGet k d i)
    ∧ (∀ r i, i < 32 → r ≠ d → vGet k' r i = vGet k r i)
    ∧ k' = { k with vreg := k'.vreg, pc := k'.pc, loop0 := k'.loop0, loop1 := k'.loop1 }

/-- The enabled bits of predicate register `d` take `v` (nothing where it is p0), and the rest of the core stays (R53). -/
def PredicateTakes (d : Nat) (on v : Nat → Bool) (k k' : Core) : Prop :=
  (∀ i, i < 32 → (pGet k' d).getLsbD i = if d = 0 then true else if on i then v i else (pGet k d).getLsbD i)
    ∧ (∀ r, r ≠ d → pGet k' r = pGet k r)
    ∧ k' = { k with preg := k'.preg, pc := k'.pc, loop0 := k'.loop0, loop1 := k'.loop1 }

/-- Every element of tile `d` takes `v`, every other tile and the rest of the core stay. -/
def TileTakes (d : Nat) (v : Nat → Nat → Word) (k k' : Core) : Prop :=
  (∀ i j, i < 16 → j < 16 → tileGet k' d i j = v i j)
    ∧ (∀ r i j, i < 16 → j < 16 → r ≠ d → tileGet k' r i j = tileGet k r i j)
    ∧ k' = { k with tile := k'.tile, pc := k'.pc, loop0 := k'.loop0, loop1 := k'.loop1 }

/-- The core after an M-format access, beside its destination: a(x) is updated as R60 says for post-modify mode 1 and 2, and no
other address register changes. -/
def PostModify (f : FmtM) (size : Nat) (k k' : Core) : Prop :=
  aGet k' f.x.toNat =
      (if f.pm = 1 then aGet k f.x.toNat + mDelta f size
       else if f.pm = 2 then (aGet k f.x.toNat &&& 0xFFFFC000#32) + ((aGet k f.x.toNat + mDelta f size) &&& 0x3FFF#32)
       else aGet k f.x.toNat)
    ∧ ∀ r, r ≠ f.x.toNat → aGet k' r = aGet k r

/-- The scratchpad reads as before, but for the bytes `bs` from direct address `a`. -/
def StoresAt (a : Nat) (bs : List Byte) (k k' : Core) : Prop :=
  (∀ i (h : i < bs.length), mget k'.spad (a + i) = bs[i])
    ∧ ∀ x, x < a ∨ a + bs.length ≤ x → mget k'.spad x = mget k.spad x

/-- R54: the exception `e` as the machine takes it: the core stops; CORE_FAULT takes code, word index and tide unless it is
VALID; no other part of the core changes; EXC is counted; one record goes to the region controller's queue; the rest of the
machine stays. -/
def Takes (key : Nat) (e : Exc) (s t : State) : Prop :=
  t = { s with cores := t.cores, cnt := t.cnt, logq := t.logq } ∧ (∀ j, j ≠ key → getCore t j = getCore s j)
    ∧ getCore t key = { getCore s key with run := .stopped, fault := (getCore t key).fault }
    ∧ (getCore t key).fault =
        (if (getCore s key).fault.valid then (getCore s key).fault
         else { code := BitVec.ofNat 8 e.code, pc := (getCore s key).pc, valid := true, tide := (getCore s key).tide })
    ∧ Counted (uCore key) cExc 1 s t

/-! ### Harbours -/

/-- R295, R296: the transfer packet `p` with head `h` leaves, and XACK with a status and data goes to its engine's bridge. -/
def XAcked (p : Packet) (h : XferHead) (code : Nat) (data : List Byte) (s t : State) : Prop :=
  ∃ a : Packet, t.packets = s.packets.filter (fun x => x.serial ≠ p.serial) ++ [a]
    ∧ a.payload = .xfer { op := 5, reqId := h.reqId, status := BitVec.ofNat 16 code } data ∧ a.flits = 1 + (data.length + 63) / 64
    ∧ a.sb.vc = 2 ∧ a.sb.kind = 2 ∧ a.sb.dstCore.toNat = h.ackTo.toNat % 32 ∧ a.sb.tenant = p.sb.tenant

/-- R318: the request `r` of packet `p` leaves, and one result block goes to its core, with STATUS, LOST_MASK, COUNT and bytes. -/
def ResultSent (p : Packet) (r : NmuReq) (code lost count : Nat) (bytes : List Byte) (s t : State) : Prop :=
  ∃ (a : Packet) (h : BlkHdr) (body : List Byte), t.packets = s.packets.filter (fun x => x.serial ≠ p.serial) ++ [a]
    ∧ a.payload = .block h body ∧ a.flits = 33 ∧ a.sb.vc = 2 ∧ a.sb.kind = 1 ∧ a.sb.dstCore = BitVec.ofNat 18 r.ret
    ∧ a.sb.tenant = p.sb.tenant ∧ h.tag = BitVec.ofNat 16 r.tag ∧ h.tide = r.tide ∧ h.check = crc32c body
    ∧ field body 0 1 = r.op % 256 ∧ field body 2 2 = code % 65536 ∧ field body 4 1 = 0 ∧ field body 5 1 = 1
    ∧ field body 6 2 = count % 65536 ∧ field body 12 4 = lost % 2 ^ 32 ∧ (body.drop 64).take bytes.length = bytes

/-- The key and value row of token `t` of a plane stand in a bank of a memory (R297, R319). -/
def RowsAt (pl : Plane) (m : Mem) (t : Nat) (key val : List Byte) : Prop :=
  let w := pl.place (t / 64)
  readBytes m (bankKey w.2.1 (pl.keyOff w.2.2 (t % 64))) pl.row = key
    ∧ readBytes m (bankKey w.2.1 (pl.valOff w.2.2 (t % 64))) pl.row = val

/-- Every token record of an APPEND block stands in its place (R297, R319). -/
def AppendStands (b : List Byte) (m : Mem) : Prop :=
  let pl := appendPlane b
  ∀ i, i < field b 2 1 → RowsAt pl m (field b 0x0C 4 + i) ((b.drop (64 + 2 * pl.row * i)).take pl.row)
    ((b.drop (64 + 2 * pl.row * i + pl.row)).take pl.row)

/-- The NMU request `r` is its channel's next one, nothing refuses it, and the NMUs may issue (R307, R312–R314, R323). -/
def Runs (s : State) (q ch op : Nat) (p : Packet) (r : NmuReq) (b : List Byte) : Prop :=
  takeReq s q ch (fun o => o = op) = some (p, r, b) ∧ chanDead s q ch = false ∧ chanCodes s q ch p true ++ reqCodes s q ch r b = []
    ∧ nmuStalled s q ch = false

/-! ### Commands of the engines -/

/-- The command `x` of engine `e` at place `j` waits to start with this OP, keeps R7, is accepted by the engine's state, is no part of
a list, and its function is not under an FLR (R346, R358–R362). -/
def Given (s : State) (e j op : Nat) (x : Job) : Prop :=
  startable s e j op = some x ∧ x.lst = none ∧ reservedSet x.cmd = false ∧ acceptsOp e (getEngine s e).state.toNat op = true
    ∧ ((getFn s x.ticket.fn).resetBusy && (getFn s x.ticket.fn).flr) = false

/-- The command `x` leaves place `j` of engine `e`, and its completion joins those that its pair will write (R337). -/
def Completes (e j : Nat) (x : Job) (code : Nat) (result : List Byte) (stream : Half) (tide : Word) (s t : State) : Prop :=
  (getEngine t e).jobs = (getEngine s e).jobs.eraseIdx j
    ∧ (getPair t (pairKey x.ticket.fn x.ticket.pair)).ready = (getPair s (pairKey x.ticket.fn x.ticket.pair)).ready ++
        [{ ticket := x.ticket, status := code, unit := e, stream := stream, tide := tide, result := result }]

/-- The command `x` stands at place `j` of engine `e` as `y`. -/
def Stands (e j : Nat) (y : Job) (t : State) : Prop := getJob t e j = some y

/-- R295, R377: engine `e` sends the transfer packet of the request `r`, under the next REQ_ID, and holds it until its XACK. -/
def Requests (e : Nat) (r : Xfer) (s t : State) : Prop :=
  (getEngine t e).xfers = (getEngine s e).xfers ++ [{ r with reqId := s.reqId, sentAt := nowUs s }] ∧ t.reqId = s.reqId + 1
    ∧ ∃ p : Packet, t.packets = s.packets ++ [p] ∧ p.sb.vc = 2 ∧ p.sb.kind = 2 ∧ p.sb.tenant = (getEngine s e).owner
      ∧ p.payload = .xfer { op := r.op, flags := if r.bare then 1 else 0, count := BitVec.ofNat 16 r.count, reqId := s.reqId,
                            haddr := r.haddr, ret := r.ret, ackTo := BitVec.ofNat 8 (engineBridge s e) } r.data

/-- R377: the packet `p` is the first at its engine's bridge that answers a request, with head `h` and data `d`; it answers `r`. -/
def Answered (e : Nat) (p : Packet) (h : XferHead) (d : List Byte) (r : Xfer) (s : State) : Prop :=
  p.loc = .arrived (engineBridge s e) ∧ p.payload = .xfer h d ∧ h.op = 5
    ∧ (getEngine s e).xfers.find? (fun x => x.reqId = h.reqId) = some r
    ∧ ∃ front back, s.packets = front ++ p :: back ∧ ∀ y ∈ front, y.loc ≠ .arrived (engineBridge s e)

/-- R460, R462, R464: a test of a kind runs on cores of region `n`; each is stopped, in TARGET mode, without a valid mirror. -/
def TestRuns (n kind : Nat) (keys : List Nat) (tide : Word) (t : State) : Prop :=
  (∃ f, (getRegion t n).ft = some f ∧ f.kind = kind ∧ f.cores = keys ∧ f.tide = tide ∧ f.verdicts = [])
    ∧ ∀ k ∈ keys, (getCore t k).run = .stopped ∧ (getCore t k).underTest = true ∧ (getCore t k).testMode = .target
      ∧ (getCore t k).mirrorValid = false

/-- R486, R492: Lighthouse has answered a message: the mailbox holds the response, or it goes out on the transport it came by. -/
def Answers (via : Via) (bytes : List Byte) (s t : State) : Prop :=
  if via = .mailbox then t.lh.mbx.busy = false ∧ t.lh.mbx.done = true ∧ t.lh.mbx.rsp = bytes
  else t.lh.out = s.lh.out ++ [.message via bytes]

/-- The message is taken, has the code of its row, and keeps the header's rules and those that `own` names (R488, R491). -/
def Asked (m : LhMsg) (code len : Nat) (own : List Nat) (s : State) : Prop :=
  let b := msgData s m
  msgTaken s m = true ∧ 8 ≤ b.length ∧ field b 0 1 = code ∧ msgCodes b len own = []

/-- The invariant of the machine: host memory and the table of cores are in their one canonical form, and the timebase stands inside
one of its 50-cycle steps (R184). -/
def Inv (s : State) : Prop := Memory.wf s.hmem = true ∧ twf Core.init s.cores = true ∧ s.phase < 50

/-- The sounding pins that select a region signal (R538). -/
def regionSelects (s : State) : Nat := ((List.range 8).filter (fun i => decide (sndSource (tget 0 s.dbg.snd i) = 3))).length

end Sys2Proof.Machine
end

