-- ==== Sys2Proof/Certificates/Slice0/Obligations.lean ====
section
/-! DEFINITION. Certificates/Slice0/Obligations.lean: the statements about the model, for the provers. -/

open Sys2Proof Sys2Proof.Machine

/-- Where the core can issue and its next word exists, each scalar R-format instruction with pr = 0 completes: sd takes the result
of the scalar table on sa and sb (on sa alone, and with b = 0, for FCVTWS and FCVTSW), a write of s0 is ignored, every other
register, the scratchpad and the rest of the core stay, the program goes on in sequence, INSTR is counted, and the rest of the
machine stays. Where the core can issue and its next word exists, ADDI and SLTI use the sign-extended immediate, ANDI, ORI and
XORI the zero-extended one, LUI (with a = 0) writes it into the upper half, and SLLI, SRLI and SRAI shift by imm[4:0] where
imm[15:14] is 0, 1 and 2 and imm[13:5] is 0. A write of s0 is ignored, and everything else stays but the program flow and INSTR.
Where the core can issue, its next word exists and the reserved fields are 0: AMOV puts sa into ad, AADD puts a(xa) + sb, ASETI
puts 8 times the immediate, AADDI adds the sign-extended immediate to ad, and SMOVA puts a(xa) into sd. Everything else stays
but the program flow and INSTR. Every FP32 addition, subtraction, product, fused product, minimum, maximum and conversion from
an integer that results in a NaN gives 0x7FC0_0000; with exactly one NaN operand minimum and maximum give the other operand; −0
stands below +0 in both; FCVTWS gives 0 for a NaN, and the extreme integers for the infinities (R49, R53, R46, R51, R56, R47,
R48, 03_core_instructions.md). -/
def Obligations.ScalarAndAddressResults : Prop :=
  (
    ∀ (s : State) (c : CoreRef) (f : FmtR),
      (Ready s c.key [f.d, f.a, f.b] → GoesOn s c.key → f.pr = 0 →
        ∀ p ∈ ([(.add, fun a b => a + b), (.sub, fun a b => a - b), (.and, fun a b => a &&& b), (.or, fun a b => a ||| b),
          (.xor, fun a b => a ^^^ b), (.sll, fun a b => a <<< (b.toNat % 32)), (.srl, fun a b => a >>> (b.toNat % 32)),
          (.sra, fun a b => a.sshiftRight (b.toNat % 32)), (.slt, fun a b => if a.toInt < b.toInt then 1 else 0),
          (.sltu, fun a b => if a.toNat < b.toNat then 1 else 0), (.mul, fun a b => a * b),
          (.mulh, fun a b => BitVec.ofInt 32 (a.toInt * b.toInt / 2 ^ 32)),
          (.mulhu, fun a b => BitVec.ofNat 32 (a.toNat * b.toNat / 2 ^ 32)),
          (.min, fun a b => if b.toInt < a.toInt then b else a), (.max, fun a b => if a.toInt < b.toInt then b else a),
          (.fadd, fadd32), (.fsub, fsub32), (.fmul, fmul32), (.fmin, fmin32), (.fmax, fmax32)] :
            List ((CoreRef → FmtR → Instr) × (Word → Word → Word))),
          ∃ t, exec (p.1 c f) s = .next t ∧ OnlyCore c.key s t ∧ Flow (getCore s c.key) (getCore t c.key)
            ∧ ScalarTakes f.d (p.2 (sGet (getCore s c.key) f.a) (sGet (getCore s c.key) f.b)) (getCore s c.key) (getCore t c.key))
      ∧ (Ready s c.key [f.d, f.a] → GoesOn s c.key → f.pr = 0 → f.b = 0 →
        ∀ p ∈ ([(.fcvtws, fcvtws32), (.fcvtsw, fcvtsw32)] : List ((CoreRef → FmtR → Instr) × (Word → Word))),
          ∃ t, exec (p.1 c f) s = .next t ∧ OnlyCore c.key s t ∧ Flow (getCore s c.key) (getCore t c.key)
            ∧ ScalarTakes f.d (p.2 (sGet (getCore s c.key) f.a)) (getCore s c.key) (getCore t c.key)))
  ∧ (
    ∀ (s : State) (c : CoreRef) (f : FmtI), Ready s c.key [f.d, f.a] → GoesOn s c.key →
      let res (i : Instr) (v : Word) : Prop :=
        ∃ t, exec i s = .next t ∧ OnlyCore c.key s t ∧ Flow (getCore s c.key) (getCore t c.key)
          ∧ ScalarTakes f.d v (getCore s c.key) (getCore t c.key)
      let a := sGet (getCore s c.key) f.a
      let sh := f.imm.toNat % 32
      res (.addi c f) (a + f.imm.signExtend 32)
        ∧ res (.slti c f) (if a.toInt < f.imm.toInt then 1 else 0)
        ∧ res (.andi c f) (a &&& f.imm.setWidth 32)
        ∧ res (.ori c f) (a ||| f.imm.setWidth 32)
        ∧ res (.xori c f) (a ^^^ f.imm.setWidth 32)
        ∧ (f.a = 0 → res (.lui c f) (BitVec.ofNat 32 (65536 * f.imm.toNat)))
        ∧ (f.imm.toNat = sh → res (.slli c f) (a <<< sh))
        ∧ (f.imm.toNat = 0x4000 + sh → res (.srli c f) (a >>> sh))
        ∧ (f.imm.toNat = 0x8000 + sh → res (.srai c f) (a.sshiftRight sh)))
  ∧ (
    ∀ (s : State) (c : CoreRef), GoesOn s c.key →
      let res (i : Instr) (p : Core → Core → Prop) : Prop :=
        ∃ t, exec i s = .next t ∧ OnlyCore c.key s t ∧ Flow (getCore s c.key) (getCore t c.key)
          ∧ p (getCore s c.key) (getCore t c.key)
      let k := getCore s c.key
      (∀ f : FmtR, f.pr = 0 →
          (Ready s c.key [f.a] → f.d.toNat < 8 → f.b = 0 → res (.amov c f) (AddressTakes f.d.toNat (sGet k f.a)))
          ∧ (Ready s c.key [f.b] → f.d.toNat < 8 → f.a.toNat < 8 →
              res (.aadd c f) (AddressTakes f.d.toNat (aGet k f.a.toNat + sGet k f.b)))
          ∧ (Ready s c.key [f.d] → f.a.toNat < 8 → f.b = 0 → res (.smova c f) (ScalarTakes f.d (aGet k f.a.toNat))))
        ∧ (∀ f : FmtI, Ready s c.key [] → f.d.toNat < 8 → f.a = 0 →
          res (.aseti c f) (AddressTakes f.d.toNat (BitVec.ofNat 32 (8 * f.imm.toNat)))
          ∧ res (.aaddi c f) (AddressTakes f.d.toNat (aGet k f.d.toNat + f.imm.signExtend 32))))
  ∧ (
    (∀ a b d : Word, ∀ r ∈ [fadd32 a b, fsub32 a b, fmul32 a b, ffma32 d a b, fmin32 a b, fmax32 a b, fcvtsw32 a],
        fvIsNaN (f32 r) = true → r = 0x7FC00000#32)
      ∧ (∀ a b : Word, fvIsNaN (f32 a) = true → fvIsNaN (f32 b) = false →
        fmin32 a b = b ∧ fmin32 b a = b ∧ fmax32 a b = b ∧ fmax32 b a = b)
      ∧ fmin32 0 0x80000000#32 = 0x80000000#32 ∧ fmin32 0x80000000#32 0 = 0x80000000#32
      ∧ fmax32 0 0x80000000#32 = 0 ∧ fmax32 0x80000000#32 0 = 0
      ∧ (∀ a : Word, fvIsNaN (f32 a) = true → fcvtws32 a = 0)
      ∧ fcvtws32 0x7F800000#32 = 0x7FFFFFFF#32 ∧ fcvtws32 0xFF800000#32 = 0x80000000#32)

/-- A conditional branch whose comparison of sa with sb holds and whose target lies in 0 to 4,095 completes at its own word index
plus off; one whose comparison fails goes on in sequence. JAL and JALR write their own index plus 1 into sd and go to their own
index, or sa, plus the sign-extended immediate. A loop whose body the target leaves ends, with any loop inside it. A target
outside the range raises PC_RANGE and nothing else happens. LOOP of level lv with a count other than 0 completes: that level
holds the count, the next word as first and the word len further as last word of the body, the other level stays, and the next
word follows. With a count of 0 and no loop active the word after the body follows and no loop starts. At the last word of a
level-0 body, with no level-1 loop, an instruction in sequence goes back to the first word and the count falls by 1 while it
exceeds 1, and at 1 goes on and the loop ends. Each scalar R-format instruction with pr = 0 at word 4,095, where no loop is
active, raises PC_RANGE itself and has no effect, and CORE_FAULT.PC records 4,095 where it was not VALID (R56, R59, R51, R58,
R54). -/
def Obligations.ProgramFlow : Prop :=
  (
    ∀ (s : State) (c : CoreRef),
      let k := getCore s c.key
      let lands (i : Instr) (t : Nat) (p : Core → Core → Prop) : Prop :=
        ∃ u, exec i s = .next u ∧ OnlyCore c.key s u ∧ p k (getCore u c.key) ∧ (getCore u c.key).pc.toNat = t
          ∧ (getCore u c.key).loop0 = k.loop0.filter (fun l => decide (l.start ≤ t ∧ t ≤ l.stop))
          ∧ (getCore u c.key).loop1 =
              (if k.loop0.any (fun l => decide (t < l.start ∨ l.stop < t)) then none
                else k.loop1.filter (fun l => decide (l.start ≤ t ∧ t ≤ l.stop)))
      let raises (i : Instr) : Prop := ∃ u, exec i s = .next u ∧ Takes c.key .pcRange s u
      (∀ f : FmtB, Ready s c.key [f.a, f.b] →
        ∀ p ∈ ([(.beq, fun a b => decide (a = b)), (.bne, fun a b => decide (a ≠ b)), (.blt, fun a b => decide (a.toInt < b.toInt)),
          (.bge, fun a b => decide (b.toInt ≤ a.toInt)), (.bltu, fun a b => decide (a.toNat < b.toNat)),
          (.bgeu, fun a b => decide (b.toNat ≤ a.toNat))] : List ((CoreRef → FmtB → Instr) × (Word → Word → Bool))),
          let t : Word := k.pc.setWidth 32 + f.off.signExtend 32
          (p.2 (sGet k f.a) (sGet k f.b) = true → t.toNat ≤ 4095 →
              lands (p.1 c f) t.toNat (fun k k' => k' = { k with pc := k'.pc, loop0 := k'.loop0, loop1 := k'.loop1 }))
            ∧ (p.2 (sGet k f.a) (sGet k f.b) = true → 4095 < t.toNat → raises (p.1 c f))
            ∧ (p.2 (sGet k f.a) (sGet k f.b) = false → GoesOn s c.key → ∃ u, exec (p.1 c f) s = .next u ∧ OnlyCore c.key s u
                ∧ Flow k (getCore u c.key)
                ∧ getCore u c.key = { k with pc := (getCore u c.key).pc, loop0 := (getCore u c.key).loop0, loop1 := (getCore u c.key).loop1 }))
      ∧ (∀ f : FmtI,
        (Ready s c.key [f.d] → f.a = 0 →
          let t : Word := k.pc.setWidth 32 + f.imm.signExtend 32
          (t.toNat ≤ 4095 → lands (.jal c f) t.toNat (ScalarTakes f.d (k.pc.setWidth 32 + 1)))
            ∧ (4095 < t.toNat → raises (.jal c f)))
        ∧ (Ready s c.key [f.d, f.a] →
          let t : Word := sGet k f.a + f.imm.signExtend 32
          (t.toNat ≤ 4095 → lands (.jalr c f) t.toNat (ScalarTakes f.d (k.pc.setWidth 32 + 1)))
            ∧ (4095 < t.toNat → raises (.jalr c f)))))
  ∧ (
    (∀ (s : State) (c : CoreRef) (f : FmtL),
        let k := getCore s c.key
        let n : Word := if f.ci = 1 then f.cnt.setWidth 32 else sGet k (f.cnt.setWidth 5)
        Ready s c.key (if f.ci = 1 then [] else [f.cnt.setWidth 5]) → f.len ≠ 0 → (f.ci = 1 ∨ f.cnt.toNat < 32) →
        k.pc.toNat + f.len.toNat ≤ 4094 → k.loop1 = none →
        (f.lv = 0 → k.loop0 = none) → (f.lv = 1 → ∀ l, k.loop0 = some l → k.pc.toNat + f.len.toNat ≤ l.stop) →
        ∃ t, exec (.loop c f) s = .next t ∧ OnlyCore c.key s t
          ∧ (n ≠ 0 →
              let l : Loop := { count := n, start := k.pc.toNat + 1, stop := k.pc.toNat + f.len.toNat }
              getCore t c.key = { k with
                loop0 := if f.lv = 0 then some l else k.loop0
                loop1 := if f.lv = 0 then none else some l
                pc := k.pc + 1 })
          ∧ (n = 0 → k.loop0 = none →
              getCore t c.key = { k with pc := BitVec.ofNat 12 (k.pc.toNat + f.len.toNat + 1) }))
      ∧ (∀ (k : Core) (l : Loop), k.loop1 = none → k.loop0 = some l → l.stop = k.pc.toNat →
        (1 < l.count.toNat → advance k = { k with loop0 := some { l with count := l.count - 1 }, pc := BitVec.ofNat 12 l.start })
          ∧ (l.count.toNat ≤ 1 → advance k = { k with loop0 := none, pc := BitVec.ofNat 12 (l.stop + 1) })))
  ∧ (
    ∀ (s : State) (c : CoreRef) (f : FmtR), Ready s c.key [f.d, f.a, f.b] → f.pr = 0 → (getCore s c.key).pc = 4095 →
      (getCore s c.key).loop0 = none → (getCore s c.key).loop1 = none →
      ∀ i ∈ [Instr.add, .sub, .and, .or, .xor, .sll, .srl, .sra, .slt, .sltu, .mul, .mulh, .mulhu, .min, .max, .fadd, .fsub, .fmul, .fmin,
        .fmax],
        ∃ t, exec (i c f) s = .next t ∧ Takes c.key .pcRange s t
          ∧ ((getCore s c.key).fault.valid = false → (getCore t c.key).fault.pc = 4095))

/-- A word that R50 calls illegal, a scalar R-format instruction with pr other than 0, FCVTWS and FCVTSW with b other than 0, LUI
and JAL with a other than 0, a shift immediate with a reserved bit set and a scalar load or store with pr other than 0 or with
post-modify mode 3 raise ILLEGAL: the core stops, CORE_FAULT records code 1, the word and the tide unless it is VALID, EXC
counts one, the region controller logs a record, and no register, scratchpad byte or other part of the machine changes (R50,
R53, R54, R579). -/
def Obligations.IllegalWordsAndReservedFields : Prop :=
  ∀ (s : State) (c : CoreRef),
    let raises (i : Instr) : Prop := ∃ t, exec i s = .next t ∧ Takes c.key .illegal s t
    (∀ w, Ready s c.key [] → illegalWord w = true → raises (.illegal c w))
      ∧ (∀ f : FmtR, Ready s c.key [f.d, f.a, f.b] → f.pr ≠ 0 →
        ∀ i ∈ [Instr.add, .sub, .and, .or, .xor, .sll, .srl, .sra, .slt, .sltu, .mul, .mulh, .mulhu, .min, .max, .fadd, .fsub, .fmul,
          .fmin, .fmax], raises (i c f))
      ∧ (∀ f : FmtR, Ready s c.key [f.d, f.a] → f.pr ≠ 0 ∨ f.b ≠ 0 → raises (.fcvtws c f) ∧ raises (.fcvtsw c f))
      ∧ (∀ f : FmtI, Ready s c.key [f.d, f.a] → f.a ≠ 0 → raises (.lui c f))
      ∧ (∀ f : FmtI, Ready s c.key [f.d] → f.a ≠ 0 → raises (.jal c f))
      ∧ (∀ f : FmtI, Ready s c.key [f.d, f.a] → f.imm.toNat / 32 % 512 ≠ 0 →
        raises (.slli c f) ∧ raises (.srli c f) ∧ raises (.srai c f))
      ∧ (∀ f : FmtM, Ready s c.key [f.d] → f.pr ≠ 0 ∨ f.pm = 3 →
        ∀ i ∈ [Instr.lw, .lh, .lhu, .lb, .lbu, .sw, .sh, .sb], raises (i c f))

/-- Where the core can issue, its next word exists, pr = 0, the post-modify mode is not 3, the address is aligned to the size and
R24 allows the access: LW, LH, LHU, LB and LBU put the bytes at the address into sd (LH and LB sign-extended, LHU and LBU zero-
extended), update a(x) as the post-modify mode says, and leave all other registers, every byte of the scratchpad and the rest of
the machine. Under the conditions of the loads, SW, SH and SB write the low 4, 2 and 1 bytes of sd, little-endian, at the direct
address that the windows of R24 give; every other byte of the scratchpad, every register but a(x) and the rest of the machine
stay. A scalar load or store with pr = 0 and post-modify mode other than 3 whose address is not a multiple of its size raises
ALIGN; an aligned one that R24 refuses raises SPAD_ACCESS. Neither has another effect than R54 gives (R24, R60, R61, R51,
03_core_instructions.md, R54, R579). -/
def Obligations.ScalarMemoryAccess : Prop :=
  (
    ∀ (s : State) (c : CoreRef) (f : FmtM), Ready s c.key [f.d] → GoesOn s c.key → f.pr = 0 → f.pm ≠ 3 →
      ∀ p ∈ ([(.lw, 4, fun v => BitVec.ofNat 32 v), (.lh, 2, fun v => (BitVec.ofNat 16 v).signExtend 32),
        (.lhu, 2, fun v => BitVec.ofNat 32 v), (.lb, 1, fun v => (BitVec.ofNat 8 v).signExtend 32),
        (.lbu, 1, fun v => BitVec.ofNat 32 v)] : List ((CoreRef → FmtM → Instr) × Nat × (Nat → Word))),
        let k := getCore s c.key
        let a := mAddr k f p.2.1
        a % p.2.1 = 0 → spadBad k false a p.2.1 = false →
        ∃ t, exec (p.1 c f) s = .next t ∧ OnlyCore c.key s t ∧ Flow k (getCore t c.key)
          ∧ sGet (getCore t c.key) f.d = (if f.d = 0 then 0 else p.2.2 (ofBytes (readBytes k.spad (spadAddr k a p.2.1) p.2.1)))
          ∧ (∀ r, r ≠ f.d → sGet (getCore t c.key) r = sGet k r)
          ∧ PostModify f p.2.1 k (getCore t c.key)
          ∧ getCore t c.key = { k with
              sreg := (getCore t c.key).sreg
              areg := (getCore t c.key).areg
              pc := (getCore t c.key).pc
              loop0 := (getCore t c.key).loop0
              loop1 := (getCore t c.key).loop1 })
  ∧ (
    ∀ (s : State) (c : CoreRef) (f : FmtM), Ready s c.key [f.d] → GoesOn s c.key → f.pr = 0 → f.pm ≠ 3 →
      ∀ p ∈ ([(.sw, 4), (.sh, 2), (.sb, 1)] : List ((CoreRef → FmtM → Instr) × Nat)),
        let k := getCore s c.key
        let a := mAddr k f p.2
        a % p.2 = 0 → spadBad k true a p.2 = false →
        ∃ t, exec (p.1 c f) s = .next t ∧ OnlyCore c.key s t ∧ Flow k (getCore t c.key)
          ∧ StoresAt (spadAddr k a p.2) (leBytes p.2 (sGet k f.d).toNat) k (getCore t c.key)
          ∧ PostModify f p.2 k (getCore t c.key)
          ∧ getCore t c.key = { k with
              spad := (getCore t c.key).spad
              areg := (getCore t c.key).areg
              pc := (getCore t c.key).pc
              loop0 := (getCore t c.key).loop0
              loop1 := (getCore t c.key).loop1 })
  ∧ (
    ∀ (s : State) (c : CoreRef) (f : FmtM), Ready s c.key [f.d] → GoesOn s c.key → f.pr = 0 → f.pm ≠ 3 →
      ∀ p ∈ ([(.lw, 4, false), (.lh, 2, false), (.lhu, 2, false), (.lb, 1, false), (.lbu, 1, false), (.sw, 4, true), (.sh, 2, true),
        (.sb, 1, true)] : List ((CoreRef → FmtM → Instr) × Nat × Bool)),
        let k := getCore s c.key
        let a := mAddr k f p.2.1
        (a % p.2.1 ≠ 0 → ∃ t, exec (p.1 c f) s = .next t ∧ Takes c.key .align s t)
          ∧ (a % p.2.1 = 0 → spadBad k p.2.2 a p.2.1 = true →
              ∃ t, exec (p.1 c f) s = .next t ∧ Takes c.key .spadAccess s t))

/-- Where the core can issue, its next word exists and the register fields name v0 to v15: each lane-wise instruction of two
sources, VFMA (which adds the product to the lane of vd), VSEL (every lane, chosen by the predicate) and VBCAST write the
enabled lanes of vd; a lane whose predicate bit is 0, every other vector register and the rest of the core and machine stay.
Where the core can issue, its next word exists, the register fields name v0 to v15 and the reserved fields are 0: VEXP2, VLOG2,
VRCP and VRSQRT write one function of each enabled lane of va, the same on every core, and VCVT the conversion of its types. A
NaN gives 0x7FC0_0000; VRCP gives the infinity of its sign for a zero and VRSQRT +infinity for +0; VLOG2 gives −infinity for
either zero; VLOG2 and VRSQRT give the NaN for every negative input; VEXP2 gives +infinity above 128 and +0 below −150. An
offset by the implementation moves a result by at most 2 codes in its order. Where the core can issue, its next word exists and
the register fields lie in range: the comparisons write the enabled bits of pd (a write of p0 is ignored); VEXT puts lane
sb[4:0] of va into sd; VSUM, VMAXR and VSUMI put into sd the fixed tree of R62 over 32 lanes, in which a lane that is off counts
as +0, −infinity and 0. The rest stays (R46, R47, R49, R51, R53, 03_core_instructions.md, R48, R63, R577, R62). -/
def Obligations.VectorResults : Prop :=
  (
    ∀ (s : State) (c : CoreRef) (f : FmtR), GoesOn s c.key → f.d.toNat < 16 →
      let k := getCore s c.key
      let res (i : Instr) (on : Nat → Bool) (v : Nat → Word) : Prop :=
        ∃ t, exec i s = .next t ∧ OnlyCore c.key s t ∧ Flow k (getCore t c.key) ∧ LanesTake f.d.toNat on v k (getCore t c.key)
      let on := laneOn k f.pr
      let a := vGet k f.a.toNat
      let b := vGet k f.b.toNat
      (Ready s c.key [] → f.a.toNat < 16 → f.b.toNat < 16 →
        (∀ p ∈ ([(.vadd, fun x y => x + y), (.vsub, fun x y => x - y), (.vmul, fun x y => x * y), (.vand, fun x y => x &&& y),
          (.vor, fun x y => x ||| y), (.vxor, fun x y => x ^^^ y), (.vsll, fun x y => x <<< (y.toNat % 32)),
          (.vsrl, fun x y => x >>> (y.toNat % 32)), (.vsra, fun x y => x.sshiftRight (y.toNat % 32)),
          (.vmin, fun x y => if y.toInt < x.toInt then y else x), (.vmax, fun x y => if x.toInt < y.toInt then y else x),
          (.vminu, fun x y => if y.toNat < x.toNat then y else x), (.vmaxu, fun x y => if x.toNat < y.toNat then y else x),
          (.vfadd, fadd32), (.vfsub, fsub32), (.vfmul, fmul32), (.vfmin, fmin32), (.vfmax, fmax32)] :
            List ((CoreRef → FmtR → Instr) × (Word → Word → Word))), res (p.1 c f) on (fun i => p.2 (a i) (b i)))
          ∧ res (.vfma c f) on (fun i => ffma32 (vGet k f.d.toNat i) (a i) (b i))
          ∧ res (.vsel c f) (fun _ => true) (fun i => if on i then a i else b i))
      ∧ (Ready s c.key [f.a] → f.b = 0 → res (.vbcast c f) on (fun _ => sGet k f.a)))
  ∧ (
    (∀ (s : State) (c : CoreRef) (f : FmtR), Ready s c.key [] → GoesOn s c.key → f.d.toNat < 16 → f.a.toNat < 16 →
      let k := getCore s c.key
      let res (i : Instr) (v : Word → Word) : Prop :=
        ∃ t, exec i s = .next t ∧ OnlyCore c.key s t ∧ Flow k (getCore t c.key)
          ∧ LanesTake f.d.toNat (laneOn k f.pr) (fun j => v (vGet k f.a.toNat j)) k (getCore t c.key)
      (f.b = 0 → res (.vexp2 c f) vexp2 ∧ res (.vlog2 c f) vlog2 ∧ res (.vrcp c f) vrcp ∧ res (.vrsqrt c f) vrsqrt)
        ∧ (∀ src dst : BitVec 3, ∀ ts td, dtype src = some ts → dtype dst = some td → f.b.toNat < 2 →
          res (.vcvt c f src dst) (fun x => BitVec.ofNat 32 (convert ts td (f.b.getLsbD 0) x.toNat))))
    ∧ (∀ x : Word, fvIsNaN (f32 x) = true → vexp2 x = nan32 ∧ vlog2 x = nan32 ∧ vrcp x = nan32 ∧ vrsqrt x = nan32)
    ∧ vrcp 0 = 0x7F800000#32 ∧ vrcp 0x80000000#32 = 0xFF800000#32 ∧ vrsqrt 0 = 0x7F800000#32
    ∧ vlog2 0 = 0xFF800000#32 ∧ vlog2 0x80000000#32 = 0xFF800000#32
    ∧ (∀ x : Word, 0x80000000 < x.toNat → vlog2 x = nan32 ∧ vrsqrt x = nan32)
    ∧ (∀ x : Word, fvLt (.fin false 128 0) (f32 x) = true → vexp2 x = 0x7F800000#32)
    ∧ (∀ x : Word, fvLt (f32 x) (.fin true 150 0) = true → vexp2 x = 0)
    ∧ (∀ (fn : Nat) (x r : Word), r.toNat + 2 < 0x7F800000 → 2 ≤ r.toNat →
        (ulpMove fn x r).toNat ≤ r.toNat + 2 ∧ r.toNat ≤ (ulpMove fn x r).toNat + 2))
  ∧ (
    ∀ (s : State) (c : CoreRef) (f : FmtR), GoesOn s c.key → f.a.toNat < 16 →
      let k := getCore s c.key
      let res (i : Instr) (p : Core → Core → Prop) : Prop :=
        ∃ t, exec i s = .next t ∧ OnlyCore c.key s t ∧ Flow k (getCore t c.key) ∧ p k (getCore t c.key)
      let a := vGet k f.a.toNat
      let b := vGet k f.b.toNat
      (Ready s c.key [] → f.d.toNat < 8 → f.b.toNat < 16 →
        ∀ p ∈ ([(.vcmpeq, fun x y => decide (x = y)), (.vcmplt, fun x y => decide (x.toInt < y.toInt)),
          (.vcmple, fun x y => decide (x.toInt ≤ y.toInt)), (.vfcmpeq, fun x y => fvEq (f32 x) (f32 y)),
          (.vfcmplt, fun x y => fvLt (f32 x) (f32 y)), (.vfcmple, fun x y => fvLt (f32 x) (f32 y) || fvEq (f32 x) (f32 y))] :
            List ((CoreRef → FmtR → Instr) × (Word → Word → Bool))),
          res (p.1 c f) (PredicateTakes f.d.toNat (laneOn k f.pr) (fun i => p.2 (a i) (b i))))
      ∧ (Ready s c.key [f.d, f.b] → f.pr = 0 → res (.vext c f) (ScalarTakes f.d (a ((sGet k f.b).toNat % 32))))
      ∧ (Ready s c.key [f.d] → f.b = 0 →
        ∀ p ∈ ([(.vsum, 0, fadd32), (.vmaxr, 0xFF800000#32, fmax32), (.vsumi, 0, fun x y => x + y)] :
            List ((CoreRef → FmtR → Instr) × Word × (Word → Word → Word))),
          let x (i : Nat) : Word := if laneOn k f.pr i then a i else p.2.1
          let y (i : Nat) : Word := p.2.2 (x i) (x (i + 16))
          let z (i : Nat) : Word := p.2.2 (y i) (y (i + 8))
          let u (i : Nat) : Word := p.2.2 (z i) (z (i + 4))
          let v (i : Nat) : Word := p.2.2 (u i) (u (i + 2))
          res (p.1 c f) (ScalarTakes f.d (p.2.2 (v 0) (v 1)))))

/-- Where the core can issue, its next word exists, vd names v0 to v15, the post-modify mode is not 3, the address is aligned to the
access and R24 allows it: VLD, VLDH and VLDB put the zero-extended elements of 4, 2 and 1 bytes into the enabled lanes of vd;
VST, VSTH and VSTB write the low bytes of the enabled lanes, and a byte of a lane that is off or outside the access stays. a(x)
is updated as R60 says (R24, R53, R60, R61). -/
def Obligations.VectorLoadsAndStores : Prop :=
  ∀ (s : State) (c : CoreRef) (f : FmtM), Ready s c.key [] → GoesOn s c.key → f.d.toNat < 16 → f.pm ≠ 3 →
    let k := getCore s c.key
    (∀ p ∈ ([(.vld, 4), (.vldh, 2), (.vldb, 1)] : List ((CoreRef → FmtM → Instr) × Nat)),
      let a := mAddr k f (32 * p.2)
      a % (32 * p.2) = 0 → spadBad k false a (32 * p.2) = false →
      ∃ t, exec (p.1 c f) s = .next t ∧ OnlyCore c.key s t ∧ Flow k (getCore t c.key)
        ∧ LanesTake f.d.toNat (laneOn k f.pr)
            (fun i => BitVec.ofNat 32 (readNat k.spad (spadAddr k a (32 * p.2) + p.2 * i) p.2)) { k with areg := (getCore t c.key).areg }
            (getCore t c.key)
        ∧ PostModify f (32 * p.2) k (getCore t c.key))
    ∧ (∀ p ∈ ([(.vst, 4), (.vsth, 2), (.vstb, 1)] : List ((CoreRef → FmtM → Instr) × Nat)),
      let a := mAddr k f (32 * p.2)
      let d := spadAddr k a (32 * p.2)
      a % (32 * p.2) = 0 → spadBad k true a (32 * p.2) = false →
      ∃ t, exec (p.1 c f) s = .next t ∧ OnlyCore c.key s t ∧ Flow k (getCore t c.key)
        ∧ (∀ i j, i < 32 → j < p.2 → mget (getCore t c.key).spad (d + p.2 * i + j) =
            if laneOn k f.pr i then BitVec.ofNat 8 ((vGet k f.d.toNat i).toNat / 256 ^ j) else mget k.spad (d + p.2 * i + j))
        ∧ (∀ x, x < d ∨ d + 32 * p.2 ≤ x → mget (getCore t c.key).spad x = mget k.spad x)
        ∧ PostModify f (32 * p.2) k (getCore t c.key)
        ∧ getCore t c.key = { k with
            spad := (getCore t c.key).spad
            areg := (getCore t c.key).areg
            pc := (getCore t c.key).pc
            loop0 := (getCore t c.key).loop0
            loop1 := (getCore t c.key).loop1 })

/-- Where the core can issue, its next word exists and fields, alignment and windows are as the rules ask: TMAC sets each element of
its tile to the sum, in the order of k, of the products of row i of A with row j of the transposed B on the tile's element, or
on 0 where z = 1, INT8 sums wrapping; it occupies the tensor unit for K or 2K cycles (TMAC_BUSY). TZERO clears a tile, TLD loads
it row-major, TROW and TPUT move two rows to and from the enabled lanes, and TST stores the 256 converted elements row-major.
The rest stays (R64, R65, R66, R53, R24). -/
def Obligations.TensorResults : Prop :=
  ∀ (s : State) (c : CoreRef), Ready s c.key [] → GoesOn s c.key →
    let k := getCore s c.key
    let res (i : Instr) (p : Core → Core → Prop) : Prop :=
      ∃ t, exec i s = .next t ∧ OnlyCore c.key s t ∧ Flow k (getCore t c.key) ∧ p k (getCore t c.key)
    (∀ f : FmtT, f.rsv = 0 → f.ty.toNat < 7 →
      let e := if f.ty = 4 ∨ f.ty = 5 then 2 else 1
      let K := 16 * (f.kc.toNat + 1)
      let a := (aGet k f.xa.toNat).toNat
      let b := (aGet k f.xb.toNat).toNat
      let A (i x : Nat) : Nat := readNat k.spad (spadAddr k a (16 * K * e) + (i * K + x) * e) e
      let B (j x : Nat) : Nat := readNat k.spad (spadAddr k b (16 * K * e) + (j * K + x) * e) e
      a % e = 0 → b % e = 0 → spadBad k false a (16 * K * e) = false → spadBad k false b (16 * K * e) = false →
      ∃ t, exec (.tmac c f) s = .next t
        ∧ t = { s with cores := t.cores, cnt := t.cnt } ∧ (∀ j, j ≠ c.key → getCore t j = getCore s j)
        ∧ getCtr t (uCore c.key) cTmacBusy = (getCtr s (uCore c.key) cTmacBusy).add (e * K) ∧ Flow k (getCore t c.key)
        ∧ TileTakes f.td.toNat (fun i j => (List.range K).foldl (fun acc x =>
            if f.ty = 6 then acc + BitVec.ofInt 32 ((BitVec.ofNat 8 (A i x)).toInt * (BitVec.ofNat 8 (B j x)).toInt)
            else macStep acc (fpDecode (((tmacTypes f.ty.toNat).1.fmt).getD e4m3) (A i x))
              (fpDecode (((tmacTypes f.ty.toNat).2.fmt).getD e4m3) (B j x)))
            (if f.z = 1 then 0 else tileGet k f.td.toNat i j)) k (getCore t c.key))
    ∧ (∀ f : FmtR,
      (f.d.toNat < 4 → f.a = 0 → f.b = 0 → f.pr = 0 → res (.tzero c f) (TileTakes f.d.toNat (fun _ _ => 0)))
      ∧ (f.d.toNat < 16 → f.a.toNat < 4 → f.b.toNat < 8 →
          res (.trow c f) (LanesTake f.d.toNat (laneOn k f.pr)
            (fun i => tileGet k f.a.toNat (2 * f.b.toNat + i / 16) (i % 16))))
      ∧ (f.d.toNat < 4 → f.a.toNat < 16 → f.b.toNat < 8 →
          res (.tput c f) (TileTakes f.d.toNat (fun i j =>
            if i / 2 = f.b.toNat ∧ laneOn k f.pr (16 * (i % 2) + j) = true then vGet k f.a.toNat (16 * (i % 2) + j)
            else tileGet k f.d.toNat i j)))
      ∧ (f.d.toNat < 4 → f.a.toNat < 8 → f.b = 0 → f.pr = 0 →
          let a := (aGet k f.a.toNat).toNat
          a % 1024 = 0 → spadBad k false a 1024 = false →
          res (.tld c f) (TileTakes f.d.toNat (fun i j => BitVec.ofNat 32 (readNat k.spad (spadAddr k a 1024 + 4 * (16 * i + j)) 4))))
      ∧ (∀ dst, f.d.toNat < 4 → f.a.toNat < 8 → f.pr = 0 → dtype (f.b.setWidth 3) = some dst →
          let n := 256 * dst.size
          let a := (aGet k f.a.toNat).toNat
          a % n = 0 → spadBad k true a n = false →
          ∃ t, exec (.tst c f) s = .next t ∧ OnlyCore c.key s t ∧ Flow k (getCore t c.key)
            ∧ (∀ i j, i < 256 → j < dst.size → mget (getCore t c.key).spad (spadAddr k a n + dst.size * i + j) =
                BitVec.ofNat 8 (tstConvert dst (f.b.getLsbD 3) (f.b.getLsbD 4) (tileGet k f.d.toNat (i / 16) (i % 16)) / 256 ^ j))
            ∧ (∀ x, x < spadAddr k a n ∨ spadAddr k a n + n ≤ x → mget (getCore t c.key).spad x = mget k.spad x)
            ∧ getCore t c.key = { k with
                spad := (getCore t c.key).spad
                pc := (getCore t c.key).pc
                loop0 := (getCore t c.key).loop0
                loop1 := (getCore t c.key).loop1 }))

/-- Where the core can issue, its next word exists, the reserved fields are 0, the slot is bound and passes the tenant check, and
the source is 64 B aligned and inside a window: on a slot that is not BROKEN, CSEND adds one VC1 packet with n + 1 flits that
hold the bytes at a(x) and counts SLOT_MSGS, and BSEND one VC2 packet of 33 flits with the 2,048 bytes, their CRC-32C, the tag,
the tide (0xFFFF_FFFF with e[1]), the slot's sequence number, which rises by one, and counts SLOT_BLKS. On a BROKEN slot each is
discarded and SLOT_DISC counted. CRECV makes its core wait, with nothing else changed. For a core that waits so with a whole
message of at most n + 1 flits at the head of the queue, and an aligned destination that R24 allows, CRECV_COPY puts the
message's bytes at a(x) and nothing elsewhere, its flit count into sd, removes it from its queue only, and the program goes on.
CPOLL puts the flit count of the head message, or 0, into sd. COPEN on a dynamic slot, with reserved bits 0 and an allowed
destination, binds the slot from sd; CCLOSE unbinds it; other slots stay (R67, R69, R79, R98, R107, R108, R68, R51, R78, R83,
R578, R123). -/
def Obligations.SlotsSendAndReceive : Prop :=
  (
    ∀ (s : State) (c : CoreRef) (f : FmtC), GoesOn s c.key →
      let k := getCore s c.key
      let sl := getSlot k f.k.toNat
      let a := (aGet k f.x.toNat).toNat
      sl.kind ≠ 0 → (sl.kind = 1 → sl.broken = false → tenantOk s c.region.val sl.dst sl.module = true) → a % 64 = 0 →
      (Ready s c.key [] → f.d = 0 → f.e = 0 → spadBad k false a (64 * (f.n.toNat + 1)) = false →
        ∃ t, exec (.csend c f) s = .next t ∧ Flow k (getCore t c.key) ∧ Moves k (getCore t c.key)
          ∧ t = { s with cores := t.cores, cnt := t.cnt, packets := t.packets, serial := t.serial }
          ∧ (sl.broken = false →
              (∃ p, t.packets = s.packets ++ [p] ∧ p.sb.vc = 1 ∧ p.flits = f.n.toNat + 1 ∧ p.loc = .router c.key 4
                ∧ p.payload = .msg (readBytes k.spad (spadAddr k a (64 * (f.n.toNat + 1))) (64 * (f.n.toNat + 1)))
                ∧ p.sb.channel = sl.channel ∧ p.sb.tide = k.tide ∧ p.sb.dstModule = sl.module ∧ p.serial = s.serial)
              ∧ getCtr t (uCore c.key) (cSlotMsgs f.k.toNat) = (getCtr s (uCore c.key) (cSlotMsgs f.k.toNat)).add 1)
          ∧ (sl.broken = true → t.packets = s.packets ∧ t.serial = s.serial
              ∧ getCtr t (uCore c.key) (cSlotDisc f.k.toNat) = (getCtr s (uCore c.key) (cSlotDisc f.k.toNat)).add 1))
      ∧ (Ready s c.key [f.d] → f.n = 0 → f.e.toNat < 4 → (sGet k f.d).toNat < 65536 → (f.e.getLsbD 0 = true → sl.kind = 2) →
        spadBad k false a 2048 = false →
        ∃ t, exec (.bsend c f) s = .next t ∧ Flow k (getCore t c.key) ∧ Moves { k with slots := (getCore t c.key).slots } (getCore t c.key)
          ∧ t = { s with cores := t.cores, cnt := t.cnt, packets := t.packets, serial := t.serial }
          ∧ (sl.broken = false →
              (∃ p h, t.packets = s.packets ++ [p] ∧ p.sb.vc = 2 ∧ p.flits = 33 ∧ p.loc = .router c.key 4
                ∧ p.payload = .block h (readBytes k.spad (spadAddr k a 2048) 2048)
                ∧ h.tag = (sGet k f.d).setWidth 16 ∧ h.staged = f.e.getLsbD 0 ∧ h.tide = (if f.e.getLsbD 1 then 0xFFFFFFFF#32 else k.tide)
                ∧ h.seq = sl.seq ∧ h.check = crc32c (readBytes k.spad (spadAddr k a 2048) 2048) ∧ h.channel = sl.channel)
              ∧ getSlot (getCore t c.key) f.k.toNat = { sl with seq := sl.seq + 1 }
              ∧ (∀ j, j ≠ f.k.toNat → getSlot (getCore t c.key) j = getSlot k j)
              ∧ getCtr t (uCore c.key) (cSlotBlks f.k.toNat) = (getCtr s (uCore c.key) (cSlotBlks f.k.toNat)).add 1)
          ∧ (sl.broken = true → t.packets = s.packets ∧ t.serial = s.serial ∧ (getCore t c.key).slots = k.slots
              ∧ getCtr t (uCore c.key) (cSlotDisc f.k.toNat) = (getCtr s (uCore c.key) (cSlotDisc f.k.toNat)).add 1)))
  ∧ (
    ∀ (s : State) (c : CoreRef),
      let k := getCore s c.key
      (∀ f : FmtC, Ready s c.key [f.d] → GoesOn s c.key → f.k.toNat < 8 → f.e = 0 →
        (∃ t, exec (.crecv c f) s = .next t ∧ OnlyCore c.key s t
          ∧ getCore t c.key = { k with run := .waiting (.recv f.d f.k.toNat f.x f.n) })
        ∧ (f.x = 0 → f.n = 0 → ∃ t, exec (.cpoll c f) s = .next t ∧ OnlyCore c.key s t ∧ Flow k (getCore t c.key)
          ∧ ScalarTakes f.d (BitVec.ofNat 32 (((headMsg k f.k.toNat).map (·.flits)).getD 0)) k (getCore t c.key)))
      ∧ (∀ d q x n m, clocksRun s = true → k.run = .waiting (.recv d q x n) → headMsg k q = some m → m.flits ≤ n.toNat + 1 →
        let a := (aGet k x.toNat).toNat
        a % 64 = 0 → spadBad k true a (64 * m.flits) = false →
        ∃ t, exec (.crecvCopy c) s = .next t ∧ t = { s with cores := t.cores } ∧ (∀ j, j ≠ c.key → getCore t j = getCore s j)
          ∧ Flow k (getCore t c.key)
          ∧ Moves { k with
              run := .running
              sreg := (getCore t c.key).sreg
              spad := (getCore t c.key).spad
              queues := (getCore t c.key).queues } (getCore t c.key)
          ∧ sGet (getCore t c.key) d = (if d = 0 then 0 else BitVec.ofNat 32 m.flits)
          ∧ (∀ r, r ≠ d → sGet (getCore t c.key) r = sGet k r)
          ∧ getQueue (getCore t c.key) q = (getQueue k q).tail ∧ (∀ j, j ≠ q → getQueue (getCore t c.key) j = getQueue k j)
          ∧ StoresAt (spadAddr k a (64 * m.flits)) (padTo (64 * m.flits) m.body) k (getCore t c.key))
      ∧ (∀ f : FmtC, GoesOn s c.key → f.x = 0 → f.n = 0 → f.e = 0 → (getSlot k f.k.toNat).static = false →
        let v := sGet k f.d
        (Ready s c.key [f.d] → v &&& 0xF8C00000#32 = 0 → tenantOk s c.region.val (v.setWidth 18) (v.extractLsb' 18 4) = true →
          ∃ t, exec (.copen c f) s = .next t ∧ OnlyCore c.key s t ∧ Flow k (getCore t c.key)
            ∧ Moves { k with slots := (getCore t c.key).slots } (getCore t c.key)
            ∧ getSlot (getCore t c.key) f.k.toNat =
                { getSlot k f.k.toNat with dst := v.setWidth 18, module := v.extractLsb' 18 4, queue := v.extractLsb' 24 3, kind := 1 }
            ∧ ∀ j, j ≠ f.k.toNat → getSlot (getCore t c.key) j = getSlot k j)
        ∧ (Ready s c.key [] → f.d = 0 →
          ∃ t, exec (.cclose c f) s = .next t ∧ OnlyCore c.key s t ∧ Flow k (getCore t c.key)
            ∧ Moves { k with slots := (getCore t c.key).slots } (getCore t c.key)
            ∧ getSlot (getCore t c.key) f.k.toNat = { getSlot k f.k.toNat with kind := 0 }
            ∧ ∀ j, j ≠ f.k.toNat → getSlot (getCore t c.key) j = getSlot k j)))

/-- Where the core can issue, its next word exists and the fields are legal: BLAND, on an aligned range that a store could write,
arms slot k with tag and address and leaves the others. BTRY, and BWAIT on a slot that is not armed or has landed, write the
status of the landed block, disarming the slot, or 0xFFFF_FFFF, leaving it. BWAIT on an armed slot in which nothing has landed
waits. BCHK puts the CRC-32C of the 2,048 bytes at a(x) into sd. Where the core can issue and the reserved fields are 0: TEND
stops the sequencer and marks the tide work ended where no sync operation is outstanding (of a core that is no test target), and
waits otherwise. TNUM, TLAST and TSTAT put the tide number, the committed half's tide number and CLEAN, RESTORED and TAINT into
sd; TLEFT puts the CCLK cycles left to the deadline of the engine's active tide, and 0 without one (R70, R71, R108, R51, R75,
R188, R206). -/
def Obligations.LandingsAndTidesOfACore : Prop :=
  (
    ∀ (s : State) (c : CoreRef) (f : FmtC), Ready s c.key [f.d] → GoesOn s c.key → f.n = 0 → f.e = 0 →
      let k := getCore s c.key
      let a := aGet k f.x.toNat
      let take (i : Instr) : Prop := ∃ t, exec i s = .next t ∧ OnlyCore c.key s t ∧ Flow k (getCore t c.key)
        ∧ ScalarTakes f.d (((getLanding k f.k.toNat).bind (·.status)).elim 0xFFFFFFFF#32 (·.setWidth 32))
            { k with landing := (getCore t c.key).landing } (getCore t c.key)
        ∧ getLanding (getCore t c.key) f.k.toNat = (getLanding k f.k.toNat).filter (fun l => l.status.isNone)
        ∧ ∀ j, j ≠ f.k.toNat → getLanding (getCore t c.key) j = getLanding k j
      (f.k.toNat < 8 → a.toNat % 64 = 0 → spadBad k true a.toNat 2048 = false →
        ∃ t, exec (.bland c f) s = .next t ∧ t = { s with cores := t.cores, cnt := t.cnt } ∧ (∀ j, j ≠ c.key → getCore t j = getCore s j)
          ∧ Flow k (getCore t c.key)
          ∧ Moves { k with landing := (getCore t c.key).landing, ingest := (getCore t c.key).ingest } (getCore t c.key)
          ∧ getLanding (getCore t c.key) f.k.toNat = some { tag := (sGet k f.d).setWidth 16, addr := a }
          ∧ (∀ j, j ≠ f.k.toNat → getLanding (getCore t c.key) j = getLanding k j)
          ∧ (∀ g, k.ingest = some g → (getCore t c.key).ingest = if g.slot = f.k.toNat then none else some g))
      ∧ (f.k.toNat < 8 → f.x = 0 → take (.btry c f))
      ∧ (f.k.toNat < 8 → f.x = 0 → (getLanding k f.k.toNat).any (fun l => l.status.isNone) = false → take (.bwait c f))
      ∧ (f.k.toNat < 8 → f.x = 0 → (getLanding k f.k.toNat).any (fun l => l.status.isNone) = true →
          ∃ t, exec (.bwait c f) s = .next t ∧ OnlyCore c.key s t ∧ getCore t c.key = { k with run := .waiting (.land f.d f.k.toNat) })
      ∧ (f.k = 0 → a.toNat % 64 = 0 → spadBad k false a.toNat 2048 = false →
          ∃ t, exec (.bchk c f) s = .next t ∧ OnlyCore c.key s t ∧ Flow k (getCore t c.key)
            ∧ ScalarTakes f.d (crc32c (readBytes k.spad (spadAddr k a.toNat 2048) 2048)) k (getCore t c.key)))
  ∧ (
    ∀ (s : State) (c : CoreRef) (f : FmtR), f.a = 0 → f.b = 0 → f.pr = 0 →
      let k := getCore s c.key
      let reads (i : Instr) (v : Word) : Prop := ∃ t, exec i s = .next t ∧ OnlyCore c.key s t ∧ Flow k (getCore t c.key)
        ∧ ScalarTakes f.d v k (getCore t c.key)
      (Ready s c.key [] → f.d = 0 →
        (k.syncOps = [] → k.testMode ≠ .target → ∃ t, exec (.tend c f) s = .next t ∧ OnlyCore c.key s t
          ∧ getCore t c.key = { k with run := .stopped, tended := true })
        ∧ (k.syncOps = [] → k.testMode = .target → ∃ t, exec (.tend c f) s = .next t
          ∧ getCore t c.key = { k with run := .stopped, tended := true })
        ∧ (k.syncOps ≠ [] → ∃ t, exec (.tend c f) s = .next t ∧ OnlyCore c.key s t ∧ getCore t c.key = { k with run := .waiting .tend }))
      ∧ (Ready s c.key [f.d] → GoesOn s c.key →
        reads (.tnum c f) k.tide ∧ reads (.tlast c f) k.tlast
          ∧ reads (.tstat c f) (BitVec.ofNat 32 (k.clean.toNat + 2 * k.restored.toNat + 4 * k.taint.toNat))
          ∧ (∀ e : Fin 8, k.engine = some e → (getEngine s e.val).tide.active = true →
              reads (.tleft c f) (BitVec.ofNat 32
                (50 * ((getEngine s e.val).tide.start.toNat + (getEngine s e.val).params.deadline.toNat - s.tid.toNat) - s.phase)))
          ∧ (k.engine = none → reads (.tleft c f) 0)))

/-- Where the core can issue, its next word exists and the reserved fields are 0: CRDL of one of the core's own counters puts the
low 32 bits into sd and keeps all 48 bits as the snapshot of the core's path; CRDH puts bits 47 to 32 of that snapshot into sd;
CINC adds sb to the kernel counter 0 to 3 that sa names. A CINC that names another number, or a CRDL that names none of the
core's own, raises COUNTER_RANGE. CNT_LO_READ answers the low 32 bits and keeps all 48 as the path's snapshot, without what
counts in the cycle, which then advances the counter. CNT_HI_WRITE stages the high half and clears OVF and WCOL where it writes
1; CNT_LO_WRITE sets the counter to the staged half and the written word, and an increment in the same cycle is discarded and
sets WCOL. CNT_FREEZE of 1 makes reads of the group's counters show their values of that cycle, and of 0 the live ones. A
counter of a port that the router lacks never counts, and a write leaves it. Each leaves the rest of the machine (R74, R151,
R152, R153, R157, R8, R154, R155, R156). -/
def Obligations.CountersReadAndWrite : Prop :=
  (
    ∀ (s : State) (c : CoreRef) (f : FmtR), GoesOn s c.key → f.pr = 0 →
      let k := getCore s c.key
      let u := uCore c.key
      let n := (sGet k f.a).toNat
      (Ready s c.key [f.d, f.a] → f.b = 0 → coreCounter n = true →
        ∃ t, exec (.crdl c f) s = .next t ∧ t = { s with cores := t.cores, cnt := t.cnt } ∧ (∀ j, j ≠ c.key → getCore t j = getCore s j)
          ∧ Flow k (getCore t c.key) ∧ ScalarTakes f.d ((ctrRead s u n).setWidth 32) k (getCore t c.key)
          ∧ tget 0 t.cnt.snap (snapKey u 2) = ctrRead s u n ∧ (∀ j, j ≠ snapKey u 2 → tget 0 t.cnt.snap j = tget 0 s.cnt.snap j))
      ∧ (Ready s c.key [f.d] → f.a = 0 → f.b = 0 →
        ∃ t, exec (.crdh c f) s = .next t ∧ OnlyCore c.key s t ∧ Flow k (getCore t c.key)
          ∧ ScalarTakes f.d (BitVec.ofNat 32 ((tget 0 s.cnt.snap (snapKey u 2)).toNat / 2 ^ 32)) k (getCore t c.key))
      ∧ (Ready s c.key [f.a, f.b] → f.d = 0 → n ≤ 3 →
        ∃ t, exec (.cinc c f) s = .next t ∧ t = { s with cores := t.cores, cnt := t.cnt } ∧ (∀ j, j ≠ c.key → getCore t j = getCore s j)
          ∧ Flow k (getCore t c.key) ∧ Moves k (getCore t c.key) ∧ getCtr t u n = (getCtr s u n).add (sGet k f.b).toNat)
      ∧ (Ready s c.key [f.a, f.b] → f.d = 0 → 3 < n → ∃ t, exec (.cinc c f) s = .next t ∧ Takes c.key .counterRange s t)
      ∧ (Ready s c.key [f.d, f.a] → f.b = 0 → coreCounter n = false → ∃ t, exec (.crdl c f) s = .next t ∧ Takes c.key .counterRange s t))
  ∧ (
    ∀ (s : State) (path : Fin 2) (u : BitVec 32) (n : BitVec 16) (v : BitVec 32) (inc : BitVec 48), clocksRun s = true →
      let key := snapKey u.toNat path.val
      let c := getCtr s u.toNat n.toNat
      let gain := if deadCounter u.toNat n.toNat then 0 else inc.toNat
      Does (.cntLoRead path u n inc) s (fun t => tget 0 t.cnt.out path.val = (ctrRead s u.toNat n.toNat).setWidth 32
          ∧ tget 0 t.cnt.snap key = ctrRead s u.toNat n.toNat ∧ Gains u.toNat n.toNat gain s t ∧ t = { s with cnt := t.cnt })
      ∧ (deadCounter u.toNat n.toNat = true → exec (.cntLoWrite path u n v inc) s = .next s)
      ∧ (deadCounter u.toNat n.toNat = false → Does (.cntLoWrite path u n v inc) s (fun t => (getCtr t u.toNat n.toNat).val = tget 0 s.cnt.staged key ++ v
          ∧ (getCtr t u.toNat n.toNat).wcol = (c.wcol || decide (inc ≠ 0)) ∧ (getCtr t u.toNat n.toNat).ovf = c.ovf
          ∧ t = { s with cnt := t.cnt }))
      ∧ Does (.cntHiWrite path u n v inc) s (fun t => tget 0 t.cnt.staged key = v.setWidth 16
          ∧ getCtr t u.toNat n.toNat =
              ({ c with ovf := c.ovf && !v.getLsbD 16, wcol := c.wcol && !v.getLsbD 17 } : Counter).add gain
          ∧ t = { s with cnt := t.cnt })
      ∧ (v.getLsbD 0 = true → Does (.cntFreeze u v n inc) s (fun t => t = { s with cnt := t.cnt }
          ∧ ∀ j : BitVec 16, ctrRead t u.toNat j.toNat = (getCtr s u.toNat j.toNat).val))
      ∧ (v.getLsbD 0 = false → Does (.cntFreeze u v n inc) s (fun t => t = { s with cnt := t.cnt }
          ∧ ctrRead t u.toNat n.toNat = (c.add gain).val)))

/-- Where the core can issue, its next word exists, pr = 0, the object id lies in range, its owner is the core's and its home is not
lost: each SYNC instruction sends one request flit to the home with its operation, object, operand and core, and keeps it as
outstanding; SACQ, SBAR and SWAIT then wait with the program counter unchanged, and STRY, SREL, SSET and SCLR go on. Where the
home is lost, each writes 0x0022 into sd and sends nothing. No register but sd changes (R73, R136, R140, R142, R51). -/
def Obligations.SyncInstructionsSendRequests : Prop :=
  ∀ (s : State) (c : CoreRef) (f : FmtR), Ready s c.key [f.d, f.a, f.b] → GoesOn s c.key → f.pr = 0 →
    let k := getCore s c.key
    let obj : BitVec 17 := (sGet k f.a).setWidth 17
    syncExc s c.region.val (sGet k f.a) = [] →
    ∀ p ∈ ([(.sacq, 1, true), (.stry, 2, false), (.srel, 3, false), (.sbar, 4, true), (.sset, 5, false), (.sclr, 6, false),
      (.swait, 7, true)] : List ((CoreRef → FmtR → Instr) × BitVec 8 × Bool)),
      (syncLost s c.region.val obj = false →
        ∃ t, exec (p.1 c f) s = .next t ∧ t = { s with cores := t.cores, cnt := t.cnt, ctl := t.ctl }
          ∧ (∀ j, j ≠ c.key → getCore t j = getCore s j)
          ∧ t.ctl = s.ctl ++ [.syncReq (homeOf s obj) p.2.1 obj (sGet k f.b) (coreIdOf s c.key)
              (BitVec.ofNat 4 (ownModule s)) (engineOf k) (getRegion s c.region.val).owner]
          ∧ (getCore t c.key).syncOps = k.syncOps ++
              [{ op := p.2.1, obj := obj, operand := sGet k f.b, d := f.d, pc := k.pc, waits := p.2.2 }]
          ∧ (p.2.2 = true → getCore t c.key = { k with run := .waiting .sync, syncOps := (getCore t c.key).syncOps })
          ∧ (p.2.2 = false → Flow k (getCore t c.key) ∧ Moves { k with syncOps := (getCore t c.key).syncOps } (getCore t c.key)))
      ∧ (syncLost s c.region.val obj = true →
        ∃ t, exec (p.1 c f) s = .next t ∧ OnlyCore c.key s t ∧ Flow k (getCore t c.key) ∧ ScalarTakes f.d 0x22 k (getCore t c.key))

/-- Where the core can issue, its next word exists and the reserved fields are 0: in TESTER mode XSEL of a neighbour in TARGET mode
selects it; XPUT writes a word of the selected target's instruction store, XDATA 64 bytes of its scratchpad, and XGO starts it
at word sa; XWAIT waits, or puts 0 into sd where the target has ended; XSIG puts the target's signature into sd; XVERD reports a
verdict; and in TARGET mode XPUB publishes a signature. XWAIT_TIMEOUT ends an XWAIT with 0x0012. In any other mode each raises
TEST_PRIV (R77, R54, R51). -/
def Obligations.TestGroupInstructions : Prop :=
  ∀ (s : State) (c : CoreRef) (f : FmtR), GoesOn s c.key → f.pr = 0 →
    let k := getCore s c.key
    let v := sGet k f.a
    let only (i : Instr) (p : Core → Prop) : Prop := ∃ t, exec i s = .next t ∧ OnlyCore c.key s t ∧ Flow k (getCore t c.key)
      ∧ p (getCore t c.key)
    let target (i : Instr) (g : Nat) (p : Core → Prop) : Prop := ∃ t, exec i s = .next t
      ∧ t = { s with cores := t.cores, cnt := t.cnt } ∧ (∀ j, j ≠ c.key → j ≠ g → getCore t j = getCore s j)
      ∧ Flow k (getCore t c.key) ∧ p (getCore t g)
    (k.testMode = .tester →
      (∀ g, Ready s c.key [f.a] → f.d = 0 → f.b = 0 → v.toNat < 2 → neighbour c.key (v.toNat + 1) = some g →
        (getCore s g).testMode = .target →
        only (.xsel c f) (fun k' => Moves { k with testSel := some (v.setWidth 1) } k' ∧ k'.testSel = some (v.setWidth 1)))
      ∧ (∀ g, targetOf s c.key = some g → g ≠ c.key →
          (Ready s c.key [f.a, f.b] → f.d = 0 → v.toNat < 4096 →
            target (.xput c f) g (fun x => tget 0 x.istore v.toNat = sGet k f.b
              ∧ (∀ i, i ≠ v.toNat → tget 0 x.istore i = tget 0 (getCore s g).istore i)
              ∧ x = { getCore s g with istore := x.istore }))
          ∧ (Ready s c.key [f.b] → f.d = 0 → f.a.toNat < 8 → (aGet k f.a.toNat).toNat % 64 = 0 →
            spadBad k false (aGet k f.a.toNat).toNat 64 = false → (sGet k f.b).toNat + 64 ≤ 0x30000 →
            target (.xdata c f) g (fun x => StoresAt (sGet k f.b).toNat
                (readBytes k.spad (spadAddr k (aGet k f.a.toNat).toNat 64) 64) (getCore s g) x
              ∧ x = { getCore s g with spad := x.spad }))
          ∧ (Ready s c.key [f.a] → f.d = 0 → f.b = 0 → v.toNat < 4096 →
            target (.xgo c f) g (fun x => x = { getCore s g with run := .running, pc := v.setWidth 12, tended := false }))
          ∧ (Ready s c.key [f.d] → f.a = 0 → f.b = 0 → only (.xsig c f) (ScalarTakes f.d (getCore s g).signature k)))
      ∧ (Ready s c.key [f.d] → f.a = 0 → f.b = 0 →
          (k.targetDone = true → only (.xwait c f) (ScalarTakes f.d 0 k))
          ∧ (k.targetDone = false → ∃ t, exec (.xwait c f) s = .next t ∧ OnlyCore c.key s t
              ∧ getCore t c.key = { k with run := .waiting (.target f.d) }))
      ∧ (Ready s c.key [f.a] → f.d = 0 → f.b = 0 → only (.xverd c f) (Moves { k with verdict := some v })))
    ∧ (k.testMode = .target → Ready s c.key [f.a] → f.d = 0 → f.b = 0 → only (.xpub c f) (Moves { k with signature := v }))
    ∧ (∀ d, clocksRun s = true → k.run = .waiting (.target d) → ∃ t, exec (.xwaitTimeout c) s = .next t ∧ t = { s with cores := t.cores }
        ∧ (∀ j, j ≠ c.key → getCore t j = getCore s j) ∧ Flow k (getCore t c.key)
        ∧ ScalarTakes d 0x12 { k with run := .running } (getCore t c.key))
    ∧ (k.testMode ≠ .tester → Ready s c.key [f.a] → f.d = 0 → f.b = 0 →
        ∀ i ∈ [Instr.xsel, .xgo, .xverd], ∃ t, exec (i c f) s = .next t ∧ Takes c.key .testPriv s t)
    ∧ (k.testMode ≠ .target → Ready s c.key [f.a] → f.d = 0 → f.b = 0 → ∃ t, exec (.xpub c f) s = .next t ∧ Takes c.key .testPriv s t)

/-- Where the only head at a router is a packet that routing sends out of port d toward a present neighbour, PACKET_ROUTE for d puts
the packet at that neighbour's facing input, last in order, and counts its flits; a head that routing discards leaves the mesh
and counts in RT_UNREACH. A multicast head waits, and nothing changes, while an output of its group lacks credit; with credit it
leaves its router and stands at every neighbour that its group names. Nothing else of the machine changes in either case (R105,
R106, R109, R114, R120, R122, 05_mesh.md). -/
def Obligations.RoutersMovePackets : Prop :=
  ∀ (s : State) (r : CoreRef), clocksRun s = true →
    let k := r.key
    (∀ (p : Packet) (out : Fin 7) (dir i k' : Nat) (sb : Sideband), headsAt s k = [p] → inputAt k p = some i → i < 7 →
      actionOf s k p = .hop dir sb false → out.val = dir → neighbour k dir = some k' →
      Does (.packetRoute r out) s (fun t =>
        t.packets = s.packets.filter (fun q => q.serial ≠ p.serial) ++
            [{ p with sb := sb, loc := .router k' (opposite dir), since := s.cclk }]
          ∧ Gains (uCore k) (cRtFlits dir) p.flits s t
          ∧ t = { s with packets := t.packets, cnt := t.cnt, routers := t.routers }))
    ∧ (∀ (p : Packet) (out : Fin 7), headsAt s k = [p] → actionOf s k p = .discard →
        headsAt (dropUnreach k p s) k = [] →
        Does (.packetRoute r out) s (fun t => t.packets = s.packets.filter (fun q => q.serial ≠ p.serial)
          ∧ Gains (uCore k) cRtUnreach 1 s t ∧ t = { s with packets := t.packets, cnt := t.cnt }))
    ∧ (∀ (p : Packet) (credit : BitVec 5), (headsAt s k).find? (fun p => p.sb.vc = 3 && p.sb.kind = 3) = some p →
        let out := tget 0 (getRouter s k).mcast (p.sb.dstCore.toNat % 64)
        (out &&& credit ≠ out → exec (.multicastForward r credit) s = .next s)
        ∧ (out &&& credit = out → (∀ q ∈ s.packets, q.serial < s.serial) →
          Does (.multicastForward r credit) s (fun t =>
            (∀ q ∈ t.packets, q.serial ≠ p.serial) ∧ t = { s with packets := t.packets, cnt := t.cnt, serial := t.serial }
              ∧ ∀ d k', d < 4 → out.getLsbD d = true → neighbour k d = some k' →
                ∃ q ∈ t.packets, q.payload = p.payload ∧ q.sb = p.sb ∧ q.loc = .router k' (opposite d))))

/-- For a core that does not discard, the first message at its VC1 ejection port is admitted where its tide and class fit and its
flits fit beside the 16-flit queue: it joins the queue's end and counts in Q_MSGS; with too little room it stays and only Q_WAIT
counts; of another tide, or at a core that discards, it is dropped and counts in Q_DROP. The first block with a matching armed
slot begins to land; with none it waits and counts BLK_WAIT; stale it is dropped and counts BLK_STALE. For a block that is
landing at a core that does not discard, BLOCK_LANDING of n words that leave some unwritten puts those words into the landing
range and nothing elsewhere. With the last word the landing ends: the slot reports 0 where the CRC-32C of the payload is the
header's CHECK, and otherwise 2, the core is marked TAINT and LAND_FAIL counts. POISON_TAIL_ARRIVAL takes an incomplete message
out of its queue and counts Q_DROP (R71, R85, R86, R87, R89, R91, R97, R70, R72, R130). -/
def Obligations.BlocksAndMessagesEject : Prop :=
  (
    ∀ (s : State) (c : CoreRef) (p : Packet), clocksRun s = true →
      let k := getCore s c.key
      let q := p.sb.dstQueue.toNat
      let gone (t : State) : Prop := t.packets = s.packets.filter (fun x => x.serial ≠ p.serial)
      (∀ rest, atEject s c.key 1 = p :: rest →
        (discards s c.key = false → p.sb.tide = k.tide → classMismatch k p.sb = false → queueFlits k q + p.flits ≤ 16 → p.poison = false →
          Does (.messageAdmission c) s (fun t => gone t ∧ Gains (uCore c.key) (cQMsgs q) 1 s t
            ∧ getQueue (getCore t c.key) q =
                getQueue k q ++ [{ sb := p.sb, flits := p.flits, body := msgBytes p, serial := p.serial }]
            ∧ getCore t c.key = { k with queues := (getCore t c.key).queues } ∧ (∀ j, j ≠ c.key → getCore t j = getCore s j)))
        ∧ (discards s c.key = false → p.sb.tide = k.tide → classMismatch k p.sb = false → 16 < queueFlits k q + p.flits →
          Does (.messageAdmission c) s (fun t => Counted (uCore c.key) (cQWait q) 1 s t ∧ t = { s with cnt := t.cnt }))
        ∧ (discards s c.key = true ∨ p.sb.tide ≠ k.tide ∨ classMismatch k p.sb = true →
          Does (.messageAdmission c) s (fun t => gone t ∧ Gains (uCore c.key) (cQDrop q) 1 s t ∧ t.cores = s.cores)))
      ∧ (∀ h body, (atEject s c.key 2).find? (fun p => p.purpose = 0 || p.purpose = 5) = some p → p.payload = .block h body →
        k.ingest = none → discards s c.key = false →
        (p.sb.tide = k.tide ∨ p.sb.tide = 0xFFFFFFFF#32 →
          (∀ i, matchSlot k h.tag = some i → Does (.blockEjection c) s (fun t => gone t
              ∧ getCore t c.key = { k with
                  ingest := some { slot := i, sb := p.sb, hdr := h, body := body, written := 0, dropped := p.poison } }))
          ∧ (matchSlot k h.tag = none →
              Does (.blockEjection c) s (fun t => Counted (uCore c.key) cBlkWait 1 s t ∧ t = { s with cnt := t.cnt })))
        ∧ (p.sb.tide ≠ k.tide → p.sb.tide ≠ 0xFFFFFFFF#32 →
          Does (.blockEjection c) s (fun t => gone t ∧ Gains (uCore c.key) cBlkStale 1 s t ∧ t.cores = s.cores))))
  ∧ (
    ∀ (s : State) (c : CoreRef), clocksRun s = true →
      let k := getCore s c.key
      (∀ (g : Ingest) (l : Landing) (n : BitVec 6), k.ingest = some g → getLanding k g.slot = some l → discards s c.key = false →
        g.dropped = false → g.body.length = 2048 →
        let d := spadAddr k l.addr.toNat 2048
        (g.written + n.toNat < 32 → Does (.blockLanding c n) s (fun t =>
          t = { s with cores := t.cores } ∧ (∀ j, j ≠ c.key → getCore t j = getCore s j)
            ∧ getCore t c.key = { k with
                spad := (getCore t c.key).spad
                ingest := some { g with written := g.written + n.toNat } }
            ∧ StoresAt (d + 64 * g.written) ((g.body.drop (64 * g.written)).take (64 * n.toNat)) k (getCore t c.key)))
        ∧ (g.written ≤ 31 → 32 ≤ g.written + n.toNat → (∀ e i, k.run ≠ .waiting (.land e i)) →
          Does (.blockLanding c n) s (fun t =>
            (getCore t c.key).ingest = none
              ∧ getLanding (getCore t c.key) g.slot = some { l with status := some (if crc32c g.body = g.hdr.check then 0 else 2) }
              ∧ (getCore t c.key).taint = (k.taint || decide (crc32c g.body ≠ g.hdr.check))
              ∧ (crc32c g.body ≠ g.hdr.check → Gains (uRegion c.region.val) rLandFail 1 s t)
              ∧ StoresAt (d + 64 * g.written) (g.body.drop (64 * g.written)) k (getCore t c.key))))
      ∧ (∀ q, (List.range 8).find? (fun q => (getQueue k q).any (fun m => !m.complete)) = some q →
          Does (.poisonTailArrival c) s (fun t => getQueue (getCore t c.key) q = (getQueue k q).eraseP (fun m => !m.complete)
            ∧ (∀ j, j ≠ q → getQueue (getCore t c.key) j = getQueue k j)
            ∧ getCore t c.key = { k with queues := (getCore t c.key).queues }
            ∧ Counted (uCore c.key) (cQDrop q) 1 s t ∧ t = { s with cores := t.cores, cnt := t.cnt })))

/-- The stall watchdog fires once for a port that waits: it raises FIRED, counts and logs, and moves no packet; a port that has
fired, or an idle one, changes nothing. A live router's beat reaches its neighbours, a dead one's none. The link watchdog marks
the hop dead, discards what was bound through it and poisons the cut packets. FAR_ROUTER_QUERY of a hop so marked fences the
link where the far router answers, and the router where it does not; STATUS_SCAN fences each router that has stopped beating.
For a core that runs or waits, SEQUENCER_MISMATCH and ISTORE_PARITY stop it for good, abandon its operations with no register
written, raise its live view to FENCED or higher and count SEQ_MISMATCH once; no exception is recorded. For a stopped core
nothing changes. REGION_OFFLINE raises the region's live view to FENCED or higher, discards the packets inside it and enters it
in the offline map of every other region. A ROUTER_DOWN notice sets BROKEN in every slot of the region's cores whose path
crossed the router; an offline notice enters the lost region. TABLE_REBUILD clears exactly the held hops whose released unit has
no engine bound around it. With its north service router usable and nothing bound around that one, the region leaves the service
maps, and where it awaits its rejoin, is not offline and has no bound region beside it, it leaves every offline map with its
objects free; else those maps stay (R94, R95, R119, R127, R128, R129, R130, R131, R43, R44, R420, R97). -/
def Obligations.WatchdogsFencesAndOfflineRegions : Prop :=
  (
    ∀ (s : State) (r : CoreRef), clocksRun s = true →
      let k := r.key
      (∀ p rest, atEject s k 1 = p :: rest →
          (((getRegion s r.region.val).chwEn = false ∨ (getRouter s k).fired.getLsbD 0 = true) →
            exec (.stallWatchdogFire r 0) s = .next s)
          ∧ ((getRegion s r.region.val).chwEn = true → (getRouter s k).fired.getLsbD 0 = false →
            Does (.stallWatchdogFire r 0) s (fun t => (getRouter t k).fired.getLsbD 0 = true ∧ (getRegion t r.region.val).chwFired = true
              ∧ Counted (uRegion r.region.val) rChwFires 1 s t
              ∧ t = { s with routers := t.routers, regions := t.regions, cnt := t.cnt, logq := t.logq })))
      ∧ ((getRouter s k).dead = true → exec (.aliveBeat r) s = .next s)
      ∧ ((getRouter s k).dead = false → Does (.aliveBeat r) s (fun t => t = { s with routers := t.routers }
          ∧ ∀ d k', d < 4 → neighbour k d = some k' → tget 0 (getRouter t k').beat (opposite d) = s.cclk))
      ∧ (∀ (dir : Fin 4) (cut : List Nat), Does (.linkWatchdogFire r dir cut) s (fun t =>
          tget 0 (getRouter t k).mark dir.val = 2 ∧ Gains (uCore k) cLinkFires 1 s t
            ∧ (∀ q ∈ t.packets, cut.contains q.serial = true → q.poison = true)
            ∧ t.packets.map (·.serial) = (s.packets.filter (fun p => !((inputAt k p).isSome
                && decide ((actionOf s k p).out = some dir.val)))).map (·.serial)
            ∧ t = { s with packets := t.packets, routers := t.routers, cnt := t.cnt, logq := t.logq }))
      ∧ (∀ (dir : Fin 4) (k' : Nat), hopOf s k dir.val = 2 → neighbour k dir.val = some k' →
          (eff s (uHop k dir.val) < 2 → Does (.farRouterQuery r dir true) s (fun t => 2 ≤ eff t (uHop k dir.val)
            ∧ tget 0 (getRouter t k).mark dir.val = 2 ∧ tget 0 (getRouter t k').mark (opposite dir.val) = 2 ∧ t.cores = s.cores))
          ∧ (eff s (uRouter k') < 2 → Does (.farRouterQuery r dir false) s (fun t => 2 ≤ eff t (uRouter k')
            ∧ (getRouter t k').dead = true ∧ (getCore t k').run = .stopped)))
      ∧ (∀ (e : Fin 32 × Fin 17), let k' := coreKey r.region.val e.1.val e.2.val
          eff s (uRouter k') < 2 → Does (.statusScan r.region [e]) s (fun t => 2 ≤ eff t (uRouter k') ∧ (getRouter t k').dead = true
            ∧ (getCore t k').run = .stopped)))
  ∧ (
    ∀ (s : State) (c : CoreRef), clocksRun s = true → ∀ i ∈ [Instr.sequencerMismatch c, .istoreParity c],
      let k := getCore s c.key
      (k.run = .stopped → exec i s = .next s)
        ∧ (k.run ≠ .stopped → Does i s (fun t => (getCore t c.key).run = .stopped ∧ (getCore t c.key).syncOps = []
          ∧ (getCore t c.key).sreg = k.sreg ∧ (getCore t c.key).fault = k.fault ∧ 2 ≤ (getHealth t (uCore c.key)).live.toNat
          ∧ Gains (uRegion c.region.val) rSeqMismatch 1 s t)))
  ∧ (
    ∀ (s : State) (n : Fin 512), clocksRun s = true →
      (∀ cause, Does (.regionOffline n cause) s (fun t => 2 ≤ (getHealth t (uRegion n.val)).live.toNat
          ∧ (∀ r, r < 512 → r ≠ n.val → (getRegion t r).offMap.getLsbD n.val = true)
          ∧ (∀ p ∈ t.packets, ∀ k i, p.loc = .router k i → keyRegion k ≠ n.val)
          ∧ (∀ p ∈ t.packets, ∀ k, p.loc = .eject k → keyRegion k ≠ n.val)))
      ∧ (∀ k rest, s.ctl = .routerDown n.val k false :: rest → Does (.routerDownNotice n) s (fun t => t.ctl = rest
          ∧ ∀ key i, keyRegion key = n.val → crossed { s with ctl := rest } (fun x => x = k) key (getSlot (getCore s key) i) = true →
              (getSlot (getCore t key) i).broken = true))
      ∧ (∀ lost rest, lost < 512 → s.ctl = .offlineNotice n.val lost :: rest →
          Does (.routerDownNotice n) s (fun t => (getRegion t n.val).offMap.getLsbD lost = true))
      ∧ Does (.tableRebuild n) s (fun t => t = { s with regions := t.regions, routers := t.routers, bridges := t.bridges }
          ∧ (twf Router.init s.routers = true → ∀ k d, tget 0 (getRouter t k).mark d =
              (if d < 4 ∧ hopReopens s n.val k d = true then 0 else tget 0 (getRouter s k).mark d))
          ∧ (usable s (uRouter (serviceKey n.val false)) = true → quietAround s (serviceKey n.val false) = true →
              (∀ r, r < 512 → (getRegion t r).svcMap.getLsbD n.val = false) ∧ ∀ b, b < 32 → (getBridge t b).svcMap.getLsbD n.val = false)
          ∧ (northBack s n.val = false → (∀ r, (getRegion t r).svcMap = (getRegion s r).svcMap)
              ∧ ∀ b, (getBridge t b).svcMap = (getBridge s b).svcMap)
          ∧ (∀ b, ∃ m, getBridge t b = { getBridge s b with svcMap := m })
          ∧ ((getRegion s n.val).awaitsRejoin = true → regionOffline s n.val = false → quietBeside s n.val = true →
              (∀ r, r < 512 → (getRegion t r).offMap.getLsbD n.val = false)
                ∧ (getRegion t n.val).awaitsRejoin = false ∧ (getRegion t n.val).sync = [] ∧ (getRegion t n.val).waiters = [])
          ∧ (mayRejoin s n.val = false → ∀ r, (getRegion t r).offMap = (getRegion s r).offMap
              ∧ (getRegion t r).awaitsRejoin = (getRegion s r).awaitsRejoin)))

/-- For the first request in the list, from the home's owner, on a lock: SACQ and STRY on a free lock with no waiter record the
holder and answer granted (FORFEIT where the flag stood, which it clears); on a lock that another core holds SACQ joins the
waiters while fewer than 1,024 wait, with no answer, and STRY answers not granted; SREL of the holder frees the lock where
nobody waits; SREL of another answers NOT_OWNER and leaves the lock. A request of another tenant is discarded. A FORFEIT notice
frees the lost core's lock with FORFEIT set and removes its waiter entries; a grant return frees the lock without it (R136,
R137, R139, R140, R142, R144, R148). -/
def Obligations.LocksAtTheirHome : Prop :=
  ∀ (s : State) (n : Fin 512) (rest : List Ctl) (obj : BitVec 17) (x : Word) (core : BitVec 18) (m : BitVec 4) (eng : BitVec 3)
    (ten : BitVec 5), clocksRun s = true → obj.toNat / 8192 = ownModule s →
    let o := obj.toNat % 16
    let ob := getObj s n.val o
    let asks (op : BitVec 8) : Prop := s.ctl = .syncReq n.val op obj x core m eng ten :: rest
    let answers (r : BitVec 8) (op : BitVec 8) (t : State) : Prop := t.ctl = rest ++ [.syncAns core obj op r]
    ((getRegion s n.val).owned = true → (getRegion s n.val).owner = ten → ob.kind = 1 →
      (∀ op : BitVec 8, op = 1 ∨ op = 2 → asks op → ob.held = false → waitersOf s n.val o = [] →
        Does (.syncRequest n) s (fun t => answers (if ob.forfeit then 1 else 0) op t
          ∧ getObj t n.val o = { ob with
              held := true
              forfeit := false
              holder := core
              holderMod := m
              holderEng := eng
              holderValid := true }
          ∧ t = { s with ctl := t.ctl, regions := t.regions, cnt := t.cnt }))
      ∧ (asks 1 → ob.held = true → (ob.holder ≠ core ∨ ob.holderMod ≠ m) → (getRegion s n.val).waiters.length < 1024 →
        Does (.syncRequest n) s (fun t => t.ctl = rest ∧ getObj t n.val o = ob
          ∧ (getRegion t n.val).waiters =
              (getRegion s n.val).waiters ++ [{ obj := obj.setWidth 4, op := 1, core := core, module := m, eng := eng }]))
      ∧ (asks 2 → ob.held = true → (ob.holder ≠ core ∨ ob.holderMod ≠ m) →
        Does (.syncRequest n) s (fun t => answers 4 2 t ∧ getObj t n.val o = ob))
      ∧ (asks 3 → ob.held = true → ob.holder = core → ob.holderMod = m → waitersOf s n.val o = [] →
        Does (.syncRequest n) s (fun t => answers 0 3 t ∧ getObj t n.val o = { ob with held := false }))
      ∧ (asks 3 → (ob.holder ≠ core ∨ ob.holderMod ≠ m ∨ ob.held = false) →
        Does (.syncRequest n) s (fun t => answers 3 3 t ∧ getObj t n.val o = ob)))
    ∧ ((getRegion s n.val).owned = false ∨ (getRegion s n.val).owner ≠ ten → ∀ op, asks op →
        Does (.syncRequest n) s (fun t => t.ctl = rest ∧ t.regions = s.regions))
    ∧ (s.ctl = .forfeitCore n.val core m :: rest → Does (.forfeitNotice n) s (fun t =>
        (∀ w ∈ (getRegion t n.val).waiters, w.core = core → w.module = m → 0x40 ≤ w.op.toNat)
          ∧ (ob.kind = 1 → ob.held = true → ob.holder = core → ob.holderMod = m → waitersOf s n.val o = [] →
              (getObj t n.val o).held = false ∧ (getObj t n.val o).forfeit = true)))
    ∧ (s.ctl = .grantReturn n.val obj core m false :: rest → ob.kind = 1 → ob.held = true → ob.holder = core → ob.holderMod = m →
        waitersOf s n.val o = [] →
        Does (.grantReturn n) s (fun t => (getObj t n.val o).held = false ∧ (getObj t n.val o).forfeit = ob.forfeit
          ∧ Gains (uRegion n.val) rSyncTrel 1 s t))

/-- For the first request in the list, from the home's owner: a semaphore with a unit, no waiter and a free entry loses one unit to
SACQ, which is granted; SREL of sb units, with no waiter and a sum of at most 65,535, adds them; SBAR that does not complete the
episode counts the arrival and queues the core; the arrival that completes it, with nobody queued, is answered and resets the
count; SSET on an event sets it and is answered; SWAIT on a set event is answered at once; an operation that the kind does not
accept is answered SYNC_RANGE with no effect. The first answer in the list, for a core that is not excluded and has that one
operation outstanding: a result other than FULL and SYNC_RANGE puts its status into sd and removes the operation, and a core
that waits goes on; FULL keeps the operation, marks it and counts SYNC_FULL, and SYNC_FULL_REISSUE then sends the same request
again. A grant to an excluded core goes back to the home as that core's lost holding (R135, R136, R137, R139, R73, R140, R146,
R148). -/
def Obligations.SemaphoresBarriersEventsAnswers : Prop :=
  (
    ∀ (s : State) (n : Fin 512) (rest : List Ctl) (obj : BitVec 17) (x : Word) (core : BitVec 18) (m : BitVec 4) (eng : BitVec 3),
      clocksRun s = true → obj.toNat / 8192 = ownModule s → (getRegion s n.val).owned = true →
      let o := obj.toNat % 16
      let ob := getObj s n.val o
      let asks (op : BitVec 8) : Prop := s.ctl = .syncReq n.val op obj x core m eng (getRegion s n.val).owner :: rest
      let answers (r : BitVec 8) (op : BitVec 8) (t : State) : Prop := t.ctl = rest ++ [.syncAns core obj op r]
      let does (p : State → Prop) : Prop := Does (.syncRequest n) s p
      (ob.kind = 2 → waitersOf s n.val o = [] →
        (asks 1 → 1 ≤ ob.count.toNat → ob.table.length < 16 → does (fun t => answers (if ob.forfeit then 1 else 0) 1 t
            ∧ (getObj t n.val o).count = ob.count - 1
            ∧ ∃ e ∈ (getObj t n.val o).table, e.core = core ∧ e.module = m))
        ∧ (asks 3 → x ≠ 0 → ob.count.toNat + x.toNat ≤ 65535 → does (fun t => answers (if ob.forfeit then 1 else 0) 3 t
            ∧ (getObj t n.val o).count.toNat = ob.count.toNat + x.toNat))
        ∧ (asks 3 → x = 0 → does (fun t => answers 6 3 t ∧ getObj t n.val o = ob)))
      ∧ (ob.kind = 3 → asks 4 →
        (ob.count.toNat + 1 < ob.init.toNat → (getRegion s n.val).waiters.length < 1024 → does (fun t => t.ctl = rest
            ∧ (getObj t n.val o).count.toNat = ob.count.toNat + 1
            ∧ (getRegion t n.val).waiters.length = (getRegion s n.val).waiters.length + 1))
        ∧ (ob.init.toNat ≤ ob.count.toNat + 1 → waitersOf s n.val o = [] → does (fun t => answers (if ob.forfeit then 1 else 0) 4 t
            ∧ (getObj t n.val o).count = 0)))
      ∧ (ob.kind = 4 → waitersOf s n.val o = [] →
        (asks 5 → does (fun t => answers 0 5 t ∧ eventSet (getObj t n.val o) = true))
        ∧ (asks 6 → does (fun t => answers 0 6 t ∧ eventSet (getObj t n.val o) = false))
        ∧ (asks 7 → eventSet ob = true → does (fun t => answers 0 7 t ∧ getObj t n.val o = ob)))
      ∧ (ob.kind = 0 → ∀ op : BitVec 8, op.toNat < 0x40 → asks op → does (fun t => answers 6 op t ∧ getObj t n.val o = ob)))
  ∧ (
    ∀ (s : State) (c : CoreRef) (rest : List Ctl) (id : BitVec 18) (o : SyncOp) (r : BitVec 8), clocksRun s = true →
      s.ctl = .syncAns id o.obj o.op r :: rest → carrier s id.toNat = c.key →
      let k := getCore s c.key
      (excluded s c.key = false → k.syncOps = [o] → o.full = false →
        (r.toNat ≤ 4 → o.waits = true → k.run = .waiting .sync → Does (.syncAnswer c) s (fun t => t.ctl = rest
            ∧ (getCore t c.key).run = .running ∧ (getCore t c.key).syncOps = [] ∧ Flow k (getCore t c.key)
            ∧ ScalarTakes o.d (syncStatus r) { k with run := .running, syncOps := [] } (getCore t c.key)))
        ∧ (r.toNat ≤ 4 → o.waits = false → k.run = .running → Does (.syncAnswer c) s (fun t => t.ctl = rest
            ∧ (getCore t c.key).pc = k.pc ∧ ScalarTakes o.d (syncStatus r) { k with syncOps := [] } (getCore t c.key)))
        ∧ (r = 5 → Does (.syncAnswer c) s (fun t => t.ctl = rest ∧ getCore t c.key = { k with syncOps := [{ o with full := true }] }
            ∧ Counted (uCore c.key) cSyncFull 1 s t)))
      ∧ (k.syncOps = [{ o with full := true }] → Does (.syncFullReissue c) s (fun t => t.ctl = s.ctl ++ [sendSync s c.key o.op o.obj o.operand]
            ∧ getCore t c.key = { k with syncOps := [{ o with full := false }] } ∧ t = { s with ctl := t.ctl, cores := t.cores }))
      ∧ (excluded s c.key = true → r = 0 → o.op = 1 → Does (.syncAnswer c) s (fun t => t.cores = s.cores
            ∧ t.ctl = rest ++ [.grantReturn (homeOf s o.obj) o.obj (coreIdOf s c.key) (BitVec.ofNat 4 (ownModule s)) true])))

/-- For a region that awaits the command of its engine's tide: WITHHOLD adds rows to be withheld. COMMIT flips the halves of each
live core with persistent state whose row is not out (withheld, fenced or being rebuilt), gives it the tide as its committed
tide number, and makes the cores of the rows that are out start clean; TIDE_CLEAN makes every core of the engine there start
clean and flips no half; NOCMD does the same, counts TID_NOCMD and tells the engine. A region takes one command in a tide (R31,
R195, R196, R202, R204). -/
def Obligations.RegionsActOnTheirTideCommand : Prop :=
  ∀ (s : State) (n : Fin 512) (e : Fin 8) (tide : Word) (rest : List Ctl), clocksRun s = true → awaits s n.val e.val tide = true →
    twf Core.init s.cores = true →
    let r := getRegion s n.val
    (∀ w, s.ctl = .withhold n.val e.val tide w :: rest → Does (.withhold n) s (fun t =>
        getRegion t n.val = { r with withheld := r.withheld ||| w } ∧ t = { s with ctl := rest, regions := t.regions }))
    ∧ (s.ctl = .commit n.val e.val tide :: rest →
        let out := r.withheld ||| rowsOf s n.val e.val (fun _ k => k.fencedTide || k.underTest) ||| r.rebuilding
        Does (.commit n) s (fun t => (getRegion t n.val).cmdSeen = true
          ∧ ∀ key ∈ regionCoresOf s n.val e.val,
              (out.getLsbD (keyRow key) = false → (getCore s key).psSize ≠ 0 → excluded s key = false →
                (getCore t key).sel = !(getCore s key).sel ∧ (getCore t key).tlast = tide)
              ∧ (out.getLsbD (keyRow key) = true → (getCore t key).sel = (getCore s key).sel ∧ (getCore t key).cleanNext = true)))
    ∧ (s.ctl = .tideClean n.val e.val tide :: rest → Does (.tideClean n) s (fun t => (getRegion t n.val).cmdSeen = true
          ∧ ∀ key ∈ regionCoresOf s n.val e.val, (getCore t key).sel = (getCore s key).sel ∧ (getCore t key).cleanNext = true
              ∧ (getCore t key).run = .stopped ∧ (getCore t key).queues = [] ∧ (getCore t key).landing = []))
    ∧ (r.engine = some e → (getEngine s e.val).tide.num = tide → regionOffline s n.val = false →
        Does (.nocmd n) s (fun t => (getRegion t n.val).cmdSeen = true ∧ .nocmd e.val n.val tide ∈ t.ctl
          ∧ ∀ key ∈ regionCoresOf s n.val e.val, (getCore t key).cleanNext = true))

/-- Of an engine that runs no tides TIDE_START changes nothing while none is active. Of one that does, with no tide active, no step
of the timebase pending and no unbinding, it begins the tide whose number its start time and period give, and each core of a
stage region in service that is live and carries a program runs from its entry point in that tide, with both loops inactive and
its queues empty. A bound region whose live cores have ended their tide sends one TDONE with its rows, and none before. The
engine records a TDONE of its running tide that arrives by the deadline, and counts any other as late. DEADLINE judges the tide
on time exactly when no condition makes it late and every stage region has reported. GUARD_OPEN of a late tide counts it and
sends TIDE_CLEAN, and of an on-time tide with no tainted HALT stream counts it and sends COMMIT, to every stage region. Each row
changes nothing when its engine runs no such tide (R45, R75, R186, R190, R205, R192, R193, R194, R201, R196, 08_tides.md). -/
def Obligations.TidesStartAndAreJudged : Prop :=
  (
    ∀ (s : State) (e : Fin 8),
      let g := getEngine s e.val
      (tidesRun g = false → g.tide.active = false → exec (.tideStart e) s = .next s)
      ∧ (tidesRun g = true → g.tide.active = false → g.unbinding = false → s.dom.step = none →
        let p := periodCycles (g.pend.getD g.params).period
        let c := nextStart s g
        Does (.tideStart e) s (fun t => (getEngine t e.val).tide.active = true ∧ (getEngine t e.val).tide.start = BitVec.ofNat 64 (c / 50)
          ∧ (getEngine t e.val).tide.num = tideNumber (BitVec.ofNat 64 (c / 50)) p
          ∧ (getEngine t e.val).params = g.pend.getD g.params
          ∧ ∀ n key, n ∈ stageOf s e.val → regionOffline s n = false → (getRegion s n).joinedAt ≤ s.cclk → g.reloc = none →
              key ∈ regionCoresOf s n e.val → excluded s key = false → (getCore s key).underTest = false →
              (getCore s key).hasProgram = true → (getRegion s n).rebuilding.getLsbD (keyRow key) = false →
              (getCore t key).run = .running ∧ (getCore t key).pc = (getCore s key).entry
                ∧ (getCore t key).tide = tideNumber (BitVec.ofNat 64 (c / 50)) p
                ∧ (getCore t key).loop0 = none ∧ (getCore t key).loop1 = none ∧ (getCore t key).queues = [])))
  ∧ (
    (∀ (s : State) (n : Fin 512), clocksRun s = true →
      (∀ e : Fin 8, (getRegion s n.val).engine = some e →
        let g := getEngine s e.val
        (g.tide.active = true → (getRegion s n.val).tdoneSent = false → stageRuns s e.val n.val = true → allTended s n.val e.val = true →
          Does (.tdone n) s (fun t => (getRegion t n.val).tdoneSent = true ∧ t = { s with ctl := t.ctl, regions := t.regions }
            ∧ t.ctl.getLast? = some (.tdone e.val n.val g.tide.num (rowsA s n.val e.val) (getRegion s n.val).rowsBroken)))
        ∧ (allTended s n.val e.val = false ∨ (getRegion s n.val).tdoneSent = true → exec (.tdone n) s = .next s)))
    ∧ (∀ (s : State) (e : Fin 8), clocksRun s = true →
      let g := getEngine s e.val
      (∀ n tide a b rest, s.ctl = .tdone e.val n tide a b :: rest →
        let inTime : Prop := g.tide.active = true ∧ g.tide.num = tide ∧ g.tide.judged = none ∧ tcycle s ≤ deadlineAt g
        (inTime → Does (.tdoneReceive e) s (fun t => tget none (getEngine t e.val).tide.rowsA n = some a
            ∧ tget 0 (getEngine t e.val).tide.rowsB n = b ∧ t = { s with ctl := rest, engines := t.engines }))
        ∧ (¬ inTime → Does (.tdoneReceive e) s (fun t => Counted (uEngine e.val) eTdoneLate 1 s t
            ∧ t = { s with ctl := rest, cnt := t.cnt })))
      ∧ (g.tide.active = true → g.tide.judged = none →
          Does (.deadline e) s (fun t => (getEngine t e.val).tide.judged =
            some (!g.tide.forceLate && (stageOf s e.val).all (fun n => (tget none g.tide.rowsA n).isSome))))
      ∧ (g.tide.active = false ∨ g.tide.judged ≠ none → exec (.deadline e) s = .next s)
      ∧ (g.tide.active = true → g.tide.guard = false →
        (g.tide.judged = some false → Does (.guardOpen e) s (fun t => (getEngine t e.val).tide.guard = true
            ∧ Gains (uEngine e.val) eLate 1 s t ∧ ∀ n ∈ stageOf s e.val, .tideClean n e.val g.tide.num ∈ t.ctl))
        ∧ (g.tide.judged = some true → g.tide.forceLate = false → taintHalts s e.val = false →
            Does (.guardOpen e) s (fun t => (getEngine t e.val).tide.guard = true
              ∧ Gains (uEngine e.val) eOntime 1 s t ∧ ∀ n ∈ stageOf s e.val, .commit n e.val g.tide.num ∈ t.ctl)))
      ∧ (g.tide.active = false ∨ g.tide.guard = true → exec (.guardOpen e) s = .next s)))

/-- A good mirror block is stored at its place in the mirror bank, and the last one makes the mirror VALID for its tide. A
checkpoint that is due is copied once; after its header is acknowledged CHECKPOINT_DONE counts it, takes the other slot for the
next and clears the commit count. RESTORE of a stopped core in a guard, with a valid mirror at a live holder that arrives whole,
puts the mirror into half A, selects it with the mirror's tide, makes the next start clean and counts RESTORE_MIRROR (R33, R34,
R207, R208, R209, R211). -/
def Obligations.MirrorsCheckpointsAndRestores : Prop :=
  ∀ (s : State), clocksRun s = true →
    (∀ (c : CoreRef) (p : Packet) (h : BlkHdr) (body : List Byte) (got : List Nat) (size b : Nat),
      let k := getCore s c.key
      (atEject s c.key 2).find? (fun p => p.purpose = 1) = some p → p.payload = .block h body → k.mirrorGot = some (got, size) →
      mirrorBank k = some b → excluded s c.key = false → crc32c body = h.check →
      Does (.mirrorBlockArrival c) s (fun t => t.packets = s.packets.filter (fun q => q.serial ≠ p.serial)
        ∧ StoresAt (0x4000 * b + 2048 * h.seq.toNat) body k (getCore t c.key)
        ∧ (got.contains h.seq.toNat = false → size = got.length + 1 →
            (getCore t c.key).mirrorValid = true ∧ (getCore t c.key).mirrorTide = h.tide ∧ (getCore t c.key).mirrorGot = none)))
    ∧ (∀ (e : Fin 8) (c : Ckpt),
      let g := getEngine s e.val
      g.ckpt = some c → c.failed = false →
      (g.tide.active = true → g.tide.num ≠ c.tide → c.copied = false → Does (.checkpointCopy e) s (fun t =>
        ∃ c', (getEngine t e.val).ckpt = some c' ∧ c'.copied = true ∧ c'.tide = c.tide ∧ c'.slot = c.slot
          ∧ c'.entries.map (·.1) = ckptCores (g.image.getD {})))
      ∧ (c.copied = true → c.header = true → exec (.checkpointCopy e) s = .next s)
      ∧ (c.header = true → ckptReqs g = [] → Does (.checkpointDone e) s (fun t => (getEngine t e.val).ckpt = none
          ∧ (getEngine t e.val).commits = 0 ∧ (getEngine t e.val).ckptSeq = g.ckptSeq + 1 ∧ (getEngine t e.val).ckptSlot = 1 - c.slot
          ∧ Gains (uEngine e.val) eCkptOk 1 s t)))
    ∧ (∀ (c : CoreRef) (bad : BitVec 3) (e : Fin 8) (id h : Nat),
      let k := getCore s c.key
      let m := getCore s h
      k.engine = some e → logicalId s c.key = some id → restorable s c.key e.val = true → k.psSize ≠ 0 → mirrorHolder s id = some h →
      excluded s h = false → m.mirrorValid = true → bad.getLsbD 0 = false →
      Does (.restore c bad) s (fun t => Gains (uEngine e.val) eRestoreMirror 1 s t
        ∧ StoresAt (2048 * k.psBase.toNat) (readBytes m.spad (0x4000 * (mirrorBank m).getD 0) (halfSize k)) k (getCore t c.key)
        ∧ (getCore t c.key).sel = false ∧ (getCore t c.key).tlast = m.mirrorTide ∧ (getCore t c.key).cleanNext = true
        ∧ (getCore t c.key).restoreDue = true))

/-- ALIGN_DRIVE changes nothing where no port leads to a child, and at a grid step raises ALIGN_OUT at every such port. A pulse at
an aligned follower that joins nothing leaves an error of 0 uncorrected, pends a slew of an error of at most 24 cycles and
counts it, pends a step of an error of 25 to 2,048, and ignores a greater one; a held follower is aligned again. The eighth
missing pulse in a row holds the alignment, the 400th gives it up, and each is counted; outside a domain nothing happens (R213,
R214, R215, R216, R280, R281). -/
def Obligations.AlignmentCorrectsTheTimebase : Prop :=
  ∀ s : State, clocksRun s = true →
    ((s.ports.filter (fun e => e.2.child)) = [] → exec .alignDrive s = .next s)
    ∧ (s.tid.toNat % 61440 = 0 → Does .alignDrive s (fun t => t = { s with ports := t.ports }
        ∧ ∀ p q, (p, q) ∈ s.ports → q.child = true → (getPort t p).alignRise = some s.tid))
    ∧ (∀ tr : BitVec 64, s.dom.en = true → s.dom.joinT = none → s.dom.dstate = 2 ∨ s.dom.dstate = 4 →
        let x : Int := (tr.toNat : Int) - alignD s s.dom.parentPort.toNat
        let e := x - nearestGrid x
        (2048 < e.natAbs → exec (.alignPulse tr) s = .next s)
        ∧ (24 < e.natAbs → e.natAbs ≤ 2048 → Does (.alignPulse tr) s (fun t => t.dom.step = some e ∧ t.dom.misses = 0 ∧ t.dom.dstate = 2))
        ∧ (0 < e.natAbs → e.natAbs ≤ 24 → Does (.alignPulse tr) s (fun t => t.dom.slew = e ∧ t.dom.misses = 0 ∧ t.dom.dstate = 2
            ∧ t.dom.step = s.dom.step ∧ Gains uModule 0 1 s t))
        ∧ (e = 0 → Does (.alignPulse tr) s (fun t => t.dom.step = s.dom.step ∧ t.dom.misses = 0 ∧ t.dom.dstate = 2)))
    ∧ (∀ tr : BitVec 64, s.dom.en = false → exec (.alignPulse tr) s = .next s)
    ∧ (s.dom.en = false ∨ (s.dom.dstate ≠ 2 ∧ s.dom.dstate ≠ 4) → exec .alignMiss s = .next s)
    ∧ (s.dom.en = true → s.dom.dstate = 2 ∨ s.dom.dstate = 4 → Does .alignMiss s (fun t => Gains uModule 2 1 s t
        ∧ (s.dom.misses + 1 = 8 → t.dom = { s.dom with misses := 8, dstate := 4 })
        ∧ (s.dom.misses + 1 = 400 → t.dom = { s.dom with misses := 0, dstate := 1 })
        ∧ (s.dom.misses + 1 ≠ 8 → s.dom.misses + 1 ≠ 400 → t.dom = { s.dom with misses := s.dom.misses + 1 })))

/-- At an SHI that is not ACTIVE a frame changes nothing. A damaged frame is counted and one out of sequence dropped, and the
receiver asks for a replay. A frame in order that carries the last flit of a packet bound for the wafer puts it at the attach
router. An acknowledge timeout counts the replay and all it resends, and the eighth failure in a row takes the SHI DOWN with
cause 3. Training states exit in order or go DOWN. BRIDGE_DOWN fences the bridge, drops its packets and tells every region,
whose crossed slots become BROKEN. A group whose attach router is fenced goes out at the next boundary (R222, R223, R224, R225,
R226, R227, R230, R231, R232). -/
def Obligations.ShoreLinksReplayAndFail : Prop :=
  ∀ (s : State) (b : Fin 32), clocksRun s = true →
    let r := getBridge s b.val
    (∀ (g : Fin 4) (dir : Fin 2) (f : ShiFrame),
      let k := linkKey g.val dir.val
      (r.shiState ≠ 4 → exec (.shiFrameReceive b g dir f) s = .next s)
      ∧ (r.shiState = 4 → f.good = false ∨ f.typ = 3 → Does (.shiFrameReceive b g dir f) s (fun t =>
          (getRx (getBridge t b.val) k).naked = true ∧ Counted (uBridge b.val) (2 * g.val + dir.val) 1 s t
            ∧ t = { s with cnt := t.cnt, bridges := t.bridges }))
      ∧ (r.shiState = 4 → f.good = true → f.typ = 1 ∨ f.typ = 2 → f.seq.toNat ≠ (getRx r k).expect →
          Does (.shiFrameReceive b g dir f) s (fun t => (getRx (getBridge t b.val) k).naked = true
            ∧ (getRx (getBridge t b.val) k).expect = (getRx r k).expect ∧ t = { s with bridges := t.bridges }))
      ∧ (∀ p : Packet, r.shiState = 4 → dir = 1 → f.good = true → f.typ = 1 → f.seq.toNat = (getRx r k).expect → f.ackv = false → f.nak = false →
          64 ≤ (f.seq.toNat + 128 - (getTx r k).next % 128) % 128 →
          (getTx r k).retry.find? (fun e => e.1 = f.seq.toNat) = some (f.seq.toNat, some (p.serial, p.flits - 1, true)) →
          s.packets.find? (fun q => q.serial = p.serial) = some p → p.loc = .bridge b.val →
          Does (.shiFrameReceive b g dir f) s (fun t => (getRx (getBridge t b.val) k).expect = (f.seq.toNat + 1) % 128
            ∧ ∃ q ∈ t.packets, q.serial = p.serial ∧ q.payload = p.payload ∧ q.loc = .router (attachKey b.val g.val) 6))
      ∧ (r.shiState ≠ 4 ∨ (getTx r k).retry = [] → exec (.shiAckTimeout b g dir) s = .next s)
      ∧ (r.shiState = 4 → (getTx r k).retry ≠ [] → Does (.shiAckTimeout b g dir) s (fun t =>
          getTx (getBridge t b.val) k = { getTx r k with fails := (getTx r k).fails + 1, mark := (getTx r k).retry.length }
            ∧ Gains (uBridge b.val) (12 + g.val) (getTx r k).retry.length s t ∧ Gains (uBridge b.val) (16 + g.val) 1 s t
            ∧ ((getTx r k).fails < 7 → (getBridge t b.val).shiState = 4)
            ∧ (7 ≤ (getTx r k).fails → (getBridge t b.val).shiState = 5 ∧ (getBridge t b.val).cause = 3))))
    ∧ (r.shiState.toNat ≤ 3 → Does (.shiTraining b true) s (fun t => (getBridge t b.val).shiState = r.shiState + 1))
    ∧ (r.shiState = 2 → Does (.shiTraining b false) s (fun t => (getBridge t b.val).shiState = 5 ∧ (getBridge t b.val).cause = 2))
    ∧ (1 ≤ r.shiState.toNat → r.shiState.toNat ≤ 3 →
        Does (.shiTrainTimeout b) s (fun t => getBridge t b.val = { r with shiState := 5, cause := 1 } ∧ t = { s with bridges := t.bridges }))
    ∧ (r.shiState ≠ 5 ∨ r.downDone = true → exec (.bridgeDown b) s = .next s)
    ∧ (r.shiState = 5 → r.downDone = false → Does (.bridgeDown b) s (fun t => (getBridge t b.val).downDone = true
        ∧ 2 ≤ (getHealth t (uBridge b.val)).live.toNat ∧ (∀ n, n < 512 → .bridgeDown n b.val ∈ t.ctl)
        ∧ (∀ p ∈ t.packets, p.loc ≠ .bridge b.val ∧ p.loc ≠ .arrived b.val ∧ ∀ a, p.loc ≠ .shore b.val a)
        ∧ (b.val % 2 = 0 → (getPort t (b.val / 2)).pstate = 6)))
    ∧ (∀ (n : Fin 512) rest, s.ctl = .bridgeDown n.val b.val :: rest → Does (.bridgeDownNotice n) s (fun t => t.ctl = rest
        ∧ ∀ key i, keyRegion key = n.val →
            slotBridge (if b.val % 2 = 0 then withPort (b.val / 2) { s with ctl := rest } else { s with ctl := rest }) key
              (getSlot (getCore s key) i) = some b.val →
            (getSlot (getCore t key) i).broken = true))
    ∧ (∀ g : Fin 4, (usable s (uRouter (attachKey b.val g.val)) = true ∨ (r.grpOut ||| r.grpDue).getLsbD g.val = true →
            exec (.groupOut b g) s = .next s)
        ∧ (usable s (uRouter (attachKey b.val g.val)) = false → (r.grpOut ||| r.grpDue).getLsbD g.val = false →
            Does (.groupOut b g) s (fun t => (getBridge t b.val).grpDue.getLsbD g.val = true ∧ (getBridge t b.val).grpOut = r.grpOut
              ∧ (getBridge t b.val).shiState = (if r.grpOut ||| r.grpDue ||| (1#4 <<< g.val) = 15 then 5 else r.shiState))))

/-- INJECT puts the next part of the frame in the packing FIFO into the mesh as one block. RELAY sends the waiting input frame as
relay blocks, and a good relay block joins its stream at the far bridge. A transfer flit raises the watermark FIFO's count, and
HOLD at the high mark, or is dropped with its packet where the FIFO is full. A tail-timeout FIFO moves BURST flits once it holds
them, or all of them at its timeout. A whole good egress block of the running tide is placed in its staging half. DELIVER
delivers the output of a judged tide once, and zero samples where its bridge is down; FRAME_COMPLETE writes the delivered output
at OUT_ADDR in host memory and completes the frame (R220, R235, R242, R244, R245, R247, R248, R250, R371, R397). -/
def Obligations.ShoreCarriesStreams : Prop :=
  ∀ (s : State), clocksRun s = true →
    (∀ (b : Fin 32) (w : PackWord) (x : Stream) (rec : ShoreRec), condStreams s b.val = [] → (getBridge s b.val).pack = [w] → w.last = true →
      getStream s w.stream = some x → shoreOf s x.inEng (audioField x 0x18 2) false = some rec →
      Does (.inject b) s (fun t => (getBridge t b.val).pack = [] ∧ ∃ p h body, t.packets = s.packets ++ [p] ∧ p.loc = .bridge b.val
        ∧ p.flits = 33 ∧ p.payload = .block h body ∧ body.length = 2048 ∧ h.check = crc32c body ∧ h.tide = x.tide
        ∧ p.sb.dstCore = relocCore s rec.core ∧ (getStream t w.stream).map (·.condPart) = some (x.condPart + 1)))
    ∧ (∀ (n : Fin 4096) (x : Stream) (i b : Nat), getStream s n.val = some x → relayFrame x = some i → condBridge s x = some b →
      Does (.relay n false) s (fun t => s.packets.length < t.packets.length
        ∧ (∀ q ∈ t.packets, q ∈ s.packets ∨ (q.purpose = 6 ∧ q.loc = .bridge (fnBridge s x.fn) ∧ q.flits = 33))
        ∧ (getStream t n.val).map (·.queue) = some (x.queue.modify i (fun f => { f with relayed := true }))))
    ∧ (∀ (b : Fin 32) (p : Packet) (h : BlkHdr) (body : List Byte) (n : Nat) (out : Bool) (x : Stream),
      s.packets.find? (fun p => p.loc = .arrived b.val && p.purpose = 6) = some p → p.payload = .block h body → crc32c body = h.check →
      relayStream s b.val (field body 0 2) (field body 2 2) = some (n, out) → getStream s n = some x →
      Does (.relayReceive b) s (fun t => t.packets = s.packets.filter (fun q => q.serial ≠ p.serial)
        ∧ getStream t n = some (if out then takeOutputPart x (field body 10 1) (field body 11 1) ((body.drop 64).take (field body 12 2)) false
            else takeInputPart x (field body 10 1) (field body 11 1) ((body.drop 64).take (field body 12 2)) false)))
    ∧ (∀ (p : Fin 16) (q : Packet),
      let r := getBridge s (portBridge p.val)
      s.packets.find? (fun q => q.loc = .wm p.val && decide (tget 0 r.moved q.serial < q.flits)) = some q →
      (r.wmCount < 1024 → tget 0 r.moved q.serial + 1 ≠ q.flits → Does (.transferFlitArrival p) s (fun t =>
          (getBridge t (portBridge p.val)).wmCount = r.wmCount + 1
            ∧ tget 0 (getBridge t (portBridge p.val)).moved q.serial = tget 0 r.moved q.serial + 1 ∧ t.packets = s.packets
            ∧ (r.wmHigh.toNat ≤ r.wmCount + 1 → (getBridge t (portBridge p.val)).wmHold = true)))
      ∧ (1024 ≤ r.wmCount → Does (.transferFlitArrival p) s (fun t => t.packets = s.packets.filter (fun x => x.serial ≠ q.serial)
          ∧ Gains (uBridge (portBridge p.val)) 26 1 s t)))
    ∧ (∀ (b : Fin 32) (g : Fin 4),
      let r := getBridge s b.val
      let fifo := tget [] r.tail g.val
      (r.tailBurst.toNat ≤ fifo.length → Does (.tailBurstMove b g) s (fun t =>
          tget [] (getBridge t b.val).tail g.val = fifo.drop r.tailBurst.toNat ∧ t = { s with bridges := t.bridges }))
      ∧ (fifo.length < r.tailBurst.toNat → exec (.tailBurstMove b g) s = .next s)
      ∧ (0 < fifo.length → fifo.length < r.tailBurst.toNat → Does (.tailTimerMove b g) s (fun t =>
          tget [] (getBridge t b.val).tail g.val = [] ∧ Gains (uBridge b.val) (20 + g.val) 1 s t)))
    ∧ (∀ (b : Fin 32) (p : Packet) (h : BlkHdr) (body : List Byte) (e n : Nat) (x : Stream), wholeEgress s b.val = some p →
      p.payload = .block h body → sourceEngine s p = some e → egressTide s e = some h.tide → crc32c body = h.check →
      egressStream s e (field body 0 2) (field body 2 2) = some n → getStream s n = some x →
      field body 0 2 = p.sb.dstCore.toNat - 0x3FC00 → field body 8 1 = audioField x 0x11 1 + 2 →
      halfCount (getBridge s b.val) h.tide < 1024 →
      Does (.egressBlockPlace b) s (fun t => t.packets = s.packets.filter (fun q => q.serial ≠ p.serial)
        ∧ (getBridge t b.val).staged = (getBridge s b.val).staged ++
            [{ tide := h.tide, endpoint := field body 0 2, sub := field body 2 2, part := field body 10 1, parts := field body 11 1,
               elements := field body 0x10 2, data := (body.drop 64).take (field body 12 2), tainted := false }]))
    ∧ (∀ (n : Fin 4096) (x : Stream), getStream s n.val = some x →
      (x.running = false ∨ x.delivered = true → exec (.deliver n) s = .next s)
      ∧ (x.running = true → x.delivered = false → bothJudged s x = true → Does (.deliver n) s (fun t =>
          (getStream t n.val).map (·.delivered) = some true
            ∧ (bridgeDown s ((dlvBridge s x).getD 0) = true →
              (getStream t n.val).bind (·.output) = some (List.replicate (outBytes x (getEngine s x.outEng).params.period) 0))))
      ∧ (x.delivered = false → exec (.frameComplete n) s = .next s)
      ∧ (∀ f, x.delivered = true → x.taken = some f → outRelayDue s x = false → Does (.frameComplete n) s (fun t =>
          t.hmem = writeBytes s.hmem f.outAddr.toNat (x.output.getD []) ∧ (getStream t n.val).map (·.taken) = some none
            ∧ Gains (uEngine x.engine.val) eFrames 1 s t)))

/-- At a port that is not ACTIVE a unit changes nothing. A unit beyond correction is counted and dropped, the receiver asking for a
replay; a good management unit in order advances the expected number, and a peer's packet enters the mesh. An acknowledgement
timeout counts itself and all it resends; the eighth failure in a row takes the port DOWN with cause 2. Training states exit in
order and IDENTIFY only with a partner; EQUALISE, LOCK and IDENTIFY time out to DOWN with cause 1. IDENT stores the partner,
takes a miswired port DOWN with cause 3, makes a member of the domain a domain port, and a module number seen twice a CONFLICT.
A DOWN port retrains unless it has retrained 4 times in 24 h. XL_DOWN counts once, drops the port's packets and breaks the slots
carried on it. HOLD_N_IN is stored as it is (R259, R260, R262, R265, R266, R267, R268, R269, R270, R274, R283, R286). -/
def Obligations.XeulendPortsTrainReplayAndFail : Prop :=
  ∀ (s : State) (p : Fin 16), clocksRun s = true →
    let q := getPort s p.val
    (∀ (dir : Fin 2) (u : XlUnit),
      (q.pstate ≠ 5 ∨ q.refused = true → exec (.xlUnitReceive p dir u) s = .next s)
      ∧ (q.pstate = 5 → q.refused = false → u.fec = 2 → u.hcrc = true → Does (.xlUnitReceive p dir u) s (fun t =>
          Counted (uPort p.val) 1 1 s t ∧ (getXrx (getPort t p.val) dir.val).naked = true
            ∧ (getXrx (getPort t p.val) dir.val).expect = (getXrx q dir.val).expect ∧ t = { s with cnt := t.cnt, ports := t.ports }))
      ∧ (q.pstate = 5 → q.refused = false → u.fec = 0 → u.hcrc = true → u.typ = 3 → u.peer = none →
          u.seq.toNat = (getXrx q dir.val).expect → Does (.xlUnitReceive p dir u) s (fun t =>
            (getXrx (getPort t p.val) dir.val).expect = (u.seq.toNat + 1) % 4096
              ∧ (getXrx (getPort t p.val) dir.val).naked = false ∧ t = { s with ports := t.ports }))
      ∧ (∀ sb h bytes, q.pstate = 5 → q.refused = false → u.fec = 0 → u.hcrc = true → u.typ = 1 → u.peer = some (.packet sb (some h) bytes) →
          dir = 1 → q.partner = 1 → q.domainOk = true → u.seq.toNat = (getXrx q 1).expect →
          Does (.xlUnitReceive p dir u) s (fun t => ∃ k, t.packets = s.packets ++ [k] ∧ k.sb = sb ∧ k.flits = 33
            ∧ k.payload = .block h (padTo 2048 bytes) ∧ k.loc = .bridge (portBridge p.val) ∧ k.srcModule = q.identModule))
      ∧ (q.pstate ≠ 5 ∨ (getXtx q dir.val).retry = [] → exec (.xlAckTimeout p dir) s = .next s)
      ∧ (q.pstate = 5 → (getXtx q dir.val).retry ≠ [] → Does (.xlAckTimeout p dir) s (fun t =>
          Gains (uPort p.val) 5 1 s t ∧ Gains (uPort p.val) 4 (getXtx q dir.val).retry.length s t
            ∧ t = { s with cnt := t.cnt, ports := t.ports }
            ∧ ((getXtx q dir.val).fails < 7 → (getPort t p.val).pstate = 5
                ∧ (getXtx (getPort t p.val) dir.val).fails = (getXtx q dir.val).fails + 1
                ∧ (getXtx (getPort t p.val) dir.val).retry = (getXtx q dir.val).retry)
            ∧ (7 ≤ (getXtx q dir.val).fails → (getPort t p.val).pstate = 6 ∧ (getPort t p.val).cause = 2))))
    ∧ ((getBridge s (portBridge p.val)).shiState ≠ 4 → exec (.xlTraining p) s = .next s)
    ∧ ((getBridge s (portBridge p.val)).shiState = 4 → Does (.xlTraining p) s (fun t => t = { s with ports := t.ports }
        ∧ (4 < q.pstate.toNat ∨ (q.pstate = 4 ∧ q.partner = 0) → getPort t p.val = q)
        ∧ (q.pstate.toNat < 4 → (getPort t p.val).pstate = q.pstate + 1 ∧ (getPort t p.val).carries = false)
        ∧ (q.pstate = 4 → q.partner ≠ 0 → (getPort t p.val).pstate = 5
            ∧ (getPort t p.val).carries = (noBoundary s && !q.refused && usable s (uPort p.val)))))
    ∧ (2 ≤ q.pstate.toNat → q.pstate.toNat ≤ 4 → Does (.xlTrainTimeout p) s (fun t =>
        (getPort t p.val).pstate = 6 ∧ (getPort t p.val).cause = 1 ∧ t = { s with ports := t.ports }))
    ∧ (q.pstate.toNat < 2 ∨ 4 < q.pstate.toNat → exec (.xlTrainTimeout p) s = .next s)
    ∧ (∀ (i : Ident) (r : BitVec 11),
      (q.pstate ≠ 4 → exec (.ident p i r) s = .next s)
      ∧ (q.pstate = 4 → miswired s p.val i = true → Does (.ident p i r) s (fun t =>
          (getPort t p.val).pstate = 6 ∧ (getPort t p.val).cause = 3 ∧ t = { s with ports := t.ports }))
      ∧ (q.pstate = 4 → miswired s p.val i = false → Does (.ident p i r) s (fun t =>
          (getPort t p.val).pstate = 4 ∧ (getPort t p.val).partner.toNat = i.kind.val ∧ (getPort t p.val).serial = i.serial
            ∧ (getPort t p.val).partnerPort = i.port ∧ (getPort t p.val).identModule = i.module
            ∧ (getPort t p.val).alignDelay = BitVec.ofNat 10 ((r.toNat - 4) / 2)
            ∧ (getPort t p.val).refused = (decide (i.kind = 2) && (decide (i.part ≠ 0x5B01) || decide (i.major ≠ 1)))
            ∧ (getPort t p.val).domainOk = (sameDomain s i && !moduleTaken s p.val i)
            ∧ (sameDomain s i = true → moduleTaken s p.val i = true → t.dom = { s.dom with dstate := 5 })
            ∧ t = { s with ports := t.ports, dom := t.dom, logq := t.logq })))
    ∧ (q.pstate ≠ 6 ∨ q.stayDown = true → exec (.xlRetrain p) s = .next s)
    ∧ (q.pstate = 6 → q.stayDown = false → usable s (uPort p.val) = true → (getBridge s (portBridge p.val)).shiState = 4 →
        Does (.xlRetrain p) s (fun t =>
          let recent := q.retrainUs.filter (fun u => decide (nowUs t < u + 86400000000))
          (recent.length < 4 → (getPort t p.val).pstate = 1 ∧ (getPort t p.val).cause = 0 ∧ (getPort t p.val).partner = 0
            ∧ (getPort t p.val).retrainUs = recent ++ [nowUs t])
          ∧ (4 ≤ recent.length → getPort t p.val = { q with stayDown := true })))
    ∧ (q.pstate ≠ 6 ∨ q.downDone = true → exec (.xlDown p) s = .next s)
    ∧ (q.pstate = 6 → q.downDone = false → Does (.xlDown p) s (fun t => (getPort t p.val).downDone = true
        ∧ Gains (uPort p.val) 8 1 s t
        ∧ (∀ k ∈ t.packets, k ∈ s.packets ∧ k.loc ≠ .xl p.val ∧ k.loc ≠ .far p.val ∧ k.loc ≠ .farOut p.val)
        ∧ ∀ key i, slotPort (withPort p.val s) (getSlot (getCore s key) i) = some p.val → (getSlot (getCore t key) i).broken = true))
    ∧ (∀ low, Does (.holdNIn p low) s (fun t => getBridge t (portBridge p.val) = { getBridge s (portBridge p.val) with holdIn := low }
        ∧ t = { s with bridges := t.bridges }))

/-- An ADVERT outside a domain, at a port that is no domain port, or at one that is not ACTIVE changes nothing. Otherwise the pair
is kept, and the election yields a pair that none of those known precedes: at once the master, parent port and depth where no
engine holds an image, and otherwise pending for the next guard. DOM_ROUTE sets PRESENT and the first-hop routes in the same
way, and nothing outside a domain or in CONFLICT. TIME_SET names the pulse at which a forming module joins; with a stream open
it only logs the refusal, and a module that is not forming ignores it (R273, R274, R275, R276, R278, R281, R284). -/
def Obligations.TideDomainsElectAndRoute : Prop :=
  ∀ s : State, clocksRun s = true →
    (∀ (p : Fin 16) (priority module : BitVec 4) (dist : Fin 16),
      let q := getPort s p.val
      let s1 := updPort s p.val (fun q => { q with advert := some (priority.toNat, module.toNat, dist.val) })
      let e := elected s1
      (∀ a ∈ adverts s1, better a e = false) ∧ better (s.dom.priority.toNat, s.dom.module.toNat, 0, 0) e = false
      ∧ (s.dom.en = false ∨ q.domainOk = false ∨ q.pstate ≠ 5 → exec (.advert p priority module dist) s = .next s)
      ∧ (s.dom.en = true → q.domainOk = true → q.pstate = 5 → noBoundary s = true → Does (.advert p priority module dist) s (fun t =>
          t.dom.master.toNat = e.2.1 % 16 ∧ t.dom.parentPort.toNat = e.2.2.2 % 16 ∧ t.dom.depth.toNat = min e.2.2.1 3
            ∧ (s.dom.dstate ≠ 5 → e.2.2.1 = 0 → t.dom.dstate = 3) ∧ (s.dom.dstate ≠ 5 → 3 < e.2.2.1 → t.dom.dstate = 1)
            ∧ (getPort t p.val).advert = some (priority.toNat, module.toNat, dist.val)
            ∧ t = { s with ports := t.ports, dom := t.dom, logq := t.logq }))
      ∧ (s.dom.en = true → q.domainOk = true → q.pstate = 5 → noBoundary s = false → Does (.advert p priority module dist) s (fun t =>
          t.dom = { s.dom with nextTree := some (e.2.1, e.2.2.1, e.2.2.2 % 16) } ∧ t = { s with ports := t.ports, dom := t.dom })))
    ∧ (∀ (routes : List (Fin 16 × Fin 16)) (present : BitVec 16) (kids : List (Fin 16)),
      (s.dom.en = false ∨ s.dom.dstate = 5 → exec (.domRoute routes present kids) s = .next s)
      ∧ (s.dom.en = true → s.dom.dstate ≠ 5 → noBoundary s = true → Does (.domRoute routes present kids) s (fun t =>
          t.dom.present = present ∧ t.dom.nextRoute = none
            ∧ (∀ m : Fin 16, (∀ r ∈ routes, r.1 ≠ m) → tget none t.dom.route m.val = none)
            ∧ (∀ (m q : Fin 16), routes = [(m, q)] → tget none t.dom.route m.val = some (BitVec.ofNat 4 q.val))
            ∧ ∀ p : Fin 16, (getPort t p.val).child = decide (p ∈ kids)))
      ∧ (s.dom.en = true → s.dom.dstate ≠ 5 → noBoundary s = false → Does (.domRoute routes present kids) s (fun t =>
          t = { s with dom := { s.dom with nextRoute := some (routes.map (fun r => (r.1.val, r.2.val)), present, kids.map (·.val)) } })))
    ∧ (∀ T : BitVec 64,
      (s.dom.en = false ∨ s.dom.dstate ≠ 1 → exec (.timeSet T) s = .next s)
      ∧ (s.dom.en = true → s.dom.dstate = 1 → s.streams = [] → Does (.timeSet T) s (fun t =>
          t = { s with dom := { s.dom with joinT := some T } }))
      ∧ (s.dom.en = true → s.dom.dstate = 1 → s.streams ≠ [] → Does (.timeSet T) s (fun t => t = { s with logq := t.logq })))

/-- A WRITE stores its flits at HADDR and nothing else. A WRITE_REC stores header and payload, or with BARE the payload, where the
CRC-32C matches the header; where it does not, nothing is stored and XACK carries TAINTED. A READ returns the bytes, TAINTED
where a word in the range is beyond correction, counted. A READ_REC sends each record to the core RET as a block with its stored
header, then XACK. A packet of another owner, for the wrong mode, or with a range, count or byte outside its limits is answered
with the status of the first reason and changes no memory; a dead channel or bank answers CONTEXT_HOLE. A row of another
operation changes nothing (R291, R293, R295, R296, R306, R323). -/
def Obligations.HarbourAnswersTransferPackets : Prop :=
  ∀ (s : State) (quad : Fin 4) (ch : Fin 32) (errs : List DramErr) (p : Packet) (h : XferHead) (d : List Byte),
    let q := quad.val
    let k := chanKey q ch.val
    let c := getChan s k
    let at' := bankKey (haBank h.haddr) (haOff h.haddr)
    let only (t : State) : Prop := (∀ j, j ≠ k → getChan t j = getChan s j) ∧ getChan t k = { c with mem := (getChan t k).mem }
      ∧ t = { s with packets := t.packets, serial := t.serial, hchans := t.hchans }
    let free : Prop := chanDead s q ch.val = false ∧ chanCodes s q ch.val p false = [] ∧ usable s (uBank q ch.val (haBank h.haddr)) = true
    nextAt s q ch.val 2 = some p → p.payload = .xfer h d →
      (h.op = 1 → free → xferOk q h 32 (64 * h.count.toNat) = true → Does (.write quad ch) s (fun t =>
        XAcked p h stOk [] s t ∧ only t ∧ (getChan t k).mem = writeBytes c.mem at' (padTo (64 * h.count.toNat) d)))
      ∧ (h.op = 2 → free → xferOk q h 1 (if h.flags = 1 then 2048 else 2112) = true →
          (crc32c (padTo 2048 (d.drop 64)) = (parseHdr d).check → Does (.writeRec quad ch) s (fun t => XAcked p h stOk [] s t ∧ only t
            ∧ (getChan t k).mem = writeBytes c.mem at'
                (if h.flags = 1 then padTo 2048 (d.drop 64) else padTo 64 d ++ padTo 2048 (d.drop 64))))
          ∧ (crc32c (padTo 2048 (d.drop 64)) ≠ (parseHdr d).check → Does (.writeRec quad ch) s (fun t => XAcked p h stTainted [] s t
            ∧ t = { s with packets := t.packets, serial := t.serial, logq := t.logq })))
      ∧ (h.op = 3 → free → xferOk q h 32 (64 * h.count.toNat) = true →
          Does (.read quad ch []) s (fun t => XAcked p h stOk (readBytes c.mem (haByte h.haddr) (64 * h.count.toNat)) s t
            ∧ t = { s with packets := t.packets, serial := t.serial })
          ∧ ∀ (w : BitVec 32) (v : Option (BitVec 64)), haByte h.haddr ≤ 8 * w.toNat → 8 * w.toNat + 8 ≤ haByte h.haddr + 64 * h.count.toNat →
            Does (.read quad ch [⟨w, v⟩]) s (fun t => Gains (uChannel q ch.val) (if v.isSome then 4 else 3) 1 s t
              ∧ ∃ data, XAcked p h (if v.isSome then stTainted else stOk) data s t ∧ data.length = 64 * h.count.toNat))
      ∧ (h.op = 4 → free → xferOk q h 1024 (2112 * h.count.toNat) = true → p.serial < s.serial →
          Does (.readRec quad ch []) s (fun t => t = { s with packets := t.packets, serial := t.serial }
            ∧ ∃ (recs : List Packet) (a : Packet), t.packets = s.packets.filter (fun x => x.serial ≠ p.serial) ++ recs ++ [a]
              ∧ a.payload = .xfer { op := 5, reqId := h.reqId, status := 0 } [] ∧ recs.length = h.count.toNat
              ∧ ∀ i (_ : i < recs.length),
                  let rec' := readBytes c.mem (haByte h.haddr + 2112 * i) 2112
                  recs[i].payload = .block (parseHdr rec') (rec'.drop 64) ∧ recs[i].sb.dstCore = h.ret.setWidth 18
                    ∧ recs[i].sb.tide = (parseHdr rec').tide ∧ recs[i].flits = 33))
      ∧ ∀ i op n size, (i, op, n, size) ∈ [(Instr.write quad ch, 1, 32, 64 * h.count.toNat),
            (.writeRec quad ch, 2, 1, if h.flags = 1 then 2048 else 2112), (.read quad ch errs, 3, 32, 64 * h.count.toNat),
            (.readRec quad ch errs, 4, 1024, 2112 * h.count.toNat)] →
          let codes := chanCodes s q ch.val p false ++ (if xferOk q h n size then [] else [stRange])
          (h.op.toNat ≠ op → exec i s = .next s)
          ∧ (h.op.toNat = op → chanDead s q ch.val = false → codes ≠ [] → Does i s (fun t =>
              XAcked p h (pickStatus codes) [] s t ∧ t = { s with packets := t.packets, serial := t.serial }))
          ∧ (h.op.toNat = op → chanDead s q ch.val = true ∨ (codes = [] ∧ usable s (uBank q ch.val (haBank h.haddr)) = false) →
              Does i s (fun t => XAcked p h stHole [] s t ∧ t = { s with packets := t.packets, serial := t.serial }))

/-- An unstaged block that its check, descriptor and bank allow puts each token's key and value rows where R319 places them, and
changes no other byte. A staged one of a bound engine joins the staging buffer where it has room, unseen in memory; after its
tide's order it is counted late, and without an engine it is dropped and counted. A block that fails its check or descriptor, or
whose bank is lost, is dropped and counted in HB_APPEND_DROP. For another owner or mode, and at a dead channel, it is discarded.
Memory stays in each of these cases (R291, R293, R297, R298, R299, R300, R303, R319, R322). -/
def Obligations.AppendBlocksPutTokenRows : Prop :=
  ∀ (s : State) (quad : Fin 4) (ch : Fin 32) (p : Packet) (h : BlkHdr) (b : List Byte),
    let q := quad.val
    let k := chanKey q ch.val
    let c := getChan s k
    let pl := appendPlane b
    let tok := field b 0x0C 4
    let w := pl.place (tok / 64)
    let gone (t : State) : Prop := t.packets = s.packets.filter (fun x => x.serial ≠ p.serial)
    let live : Prop := chanDead s q ch.val = false ∧ chanCodes s q ch.val p true = []
    let good : Prop := crc32c b = h.check ∧ appendOk ch.val b = true ∧ usable s (uBank q ch.val (appendBank b)) = true
    let eng := tget none (getHarbour s q).rgnEng (h.srcCore.toNat / 512)
    nextAt s q ch.val 2 = some p → p.payload = .block h b → b.length = 2048 →
      (chanDead s q ch.val = true ∨ chanCodes s q ch.val p true ≠ [] → Does (.append quad ch) s (fun t => gone t ∧ t = { s with packets := t.packets }))
      ∧ (live → good → h.staged = false → Does (.append quad ch) s (fun t => gone t ∧ AppendStands b (getChan t k).mem
          ∧ t = { s with packets := t.packets, hchans := t.hchans } ∧ (∀ j, j ≠ k → getChan t j = getChan s j)
          ∧ getChan t k = { c with mem := (getChan t k).mem }
          ∧ ∀ a, (a < bankKey w.2.1 (pl.keyOff w.2.2 (tok % 64)) ∨ bankKey w.2.1 (pl.keyOff w.2.2 (tok % 64 + field b 2 1)) ≤ a) →
              (a < bankKey w.2.1 (pl.valOff w.2.2 (tok % 64)) ∨ bankKey w.2.1 (pl.valOff w.2.2 (tok % 64 + field b 2 1)) ≤ a) →
              mget (getChan t k).mem a = mget c.mem a))
      ∧ (live → h.staged = true → eng = none → Does (.append quad ch) s (fun t => gone t ∧ Counted (uChannel q ch.val) 5 1 s t
          ∧ t = { s with packets := t.packets, cnt := t.cnt }))
      ∧ (live → (h.staged = true → eng ≠ none) → ¬good → Does (.append quad ch) s (fun t => gone t ∧ Counted (uChannel q ch.val) 5 1 s t
          ∧ (getChan t k).mem = c.mem ∧ (getChan t k).staging = c.staging))
      ∧ (∀ e, live → good → h.staged = true → eng = some e →
          (tget none c.ordered e.val = some h.tide → Does (.append quad ch) s (fun t => gone t ∧ (getChan t k).mem = c.mem
            ∧ (getChan t k).staging = c.staging ∧ tget 0 (getChan t k).late e.val = tget 0 c.late e.val + 1))
          ∧ (tget none c.ordered e.val ≠ some h.tide → c.staging.length < 1024 → Does (.append quad ch) s (fun t => gone t
            ∧ getChan t k = { c with staging := c.staging ++ [{ eng := e.val, tide := h.tide, core := h.srcCore, body := b }] }
            ∧ c.staging.length + 1 ≤ (getCtr t (uChannel q ch.val) 6).val.toNat)))

/-- Either order empties the staging buffer of its engine's blocks and answers HACK. A commit applies the block of the tide whose
row is not listed and puts the summary of a page that it fills beside it; a listed block and every block of a discard change no
memory and count in DROPPED. HACK clears its order, adds LATE to STAGE_LATE and marks the streams of its rows; 100 µs without it
count in HB_ORDER_TO and mark the streams whose rows hold a slot on the channel; HHOLE marks the streams of its rows. Without
the order or notice at the head of the wire, the clause about another tide's flit included, nothing is claimed here (R301, R302,
R303, R304, R320, R325). -/
def Obligations.TideOrdersCommitOrDiscard : Prop :=
  ∀ (s : State),
    (∀ (quad : Fin 4) (ch : Fin 32) (e : Nat) (tide : Word) (rows : List (Nat × Nat)) (rest : List Ctl),
      let q := quad.val
      let k := chanKey q ch.val
      let c := getChan s k
      let mine := c.staging.filter (fun x => decide (x.eng = e))
      chanDead s q ch.val = false →
        (s.ctl = .order false e (hbTarget q ch.val) tide rows :: rest → Does (.hdiscard quad ch) s (fun t =>
          (getChan t k).staging = c.staging.filter (fun x => decide (x.eng ≠ e)) ∧ (getChan t k).mem = c.mem
            ∧ (∀ j, j ≠ k → getChan t j = getChan s j) ∧ t = { s with ctl := t.ctl, hchans := t.hchans, cnt := t.cnt }
            ∧ ∃ rs, t.ctl = rest ++ [.hack e (hbTarget q ch.val) tide rs false 0
                (mine.length + (c.dropRows.filter (fun r => r.1 = e)).length) (tget 0 c.late e)]))
        ∧ (∀ x : StagedBlk, s.ctl = .order true e (hbTarget q ch.val) tide rows :: rest → mine = [x] →
          let pl := appendPlane x.body
          let listed := rows.contains (x.core.toNat / 512, x.core.toNat / 16 % 32)
          (x.tide ≠ tide ∨ listed = true → Does (.hcommit quad ch []) s (fun t => (getChan t k).mem = c.mem
            ∧ (getChan t k).staging = c.staging.filter (fun x => decide (x.eng ≠ e))
            ∧ ∃ rs n l, t.ctl = rest ++ [.hack e (hbTarget q ch.val) tide rs false 0 n l] ∧ 1 ≤ n))
          ∧ (x.tide = tide → listed = false → usable s (uBank q ch.val (appendBank x.body)) = true → appendOk ch.val x.body = true →
            x.body.length = 2048 → Does (.hcommit quad ch []) s (fun t => AppendStands x.body (getChan t k).mem
              ∧ (getChan t k).staging = c.staging.filter (fun x => decide (x.eng ≠ e)) ∧ (∀ j, j ≠ k → getChan t j = getChan s j)
              ∧ t = { s with ctl := t.ctl, hchans := t.hchans, cnt := t.cnt }
              ∧ (∃ rs n l, t.ctl = rest ++ [.hack e (hbTarget q ch.val) tide rs false 1 n l])
              ∧ (field x.body 0x0C 4 % 64 + field x.body 2 1 = 64 →
                  let w := pl.place (field x.body 0x0C 4 / 64)
                  readBytes (getChan t k).mem (bankKey w.2.1 (pl.sumOff w.2.2)) pl.sumSize = summary pl (getChan t k).mem w.2.1 w.2.2)))))
    ∧ (clocksRun s = true → ∀ (e : Fin 8) (target : Nat) (tide : Word) (rows : List (Nat × Nat)) (rest : List Ctl),
      (∀ all applied dropped late, s.ctl = .hack e.val target tide rows all applied dropped late :: rest → Does (.hack e) s (fun t =>
          t.ctl = rest ∧ Gains (uEngine e.val) eStageLate late s t
            ∧ (getEngine t e.val).orders = (getEngine s e.val).orders.filter (fun o => !(decide (o.target = target) && decide (o.tide = tide)))
            ∧ ∀ n x, getStream s n = some x → mapMeets s x (if all then rowsTargeting s e.val target else rowTable rows) = true →
                getStream t n = some { x with hole := true }))
      ∧ (∀ all, s.ctl = .hhole e.val target tide rows all :: rest → Does (.hhole e) s (fun t => t = { s with ctl := rest, streams := t.streams }
            ∧ ∀ n x, getStream s n = some x → mapMeets s x (if all then rowsTargeting s e.val target else rowTable rows) = true →
                getStream t n = some { x with hole := true }))
      ∧ ((getEngine s e.val).orders = [] → exec (.hackTimeout e) s = .next s)
      ∧ (∀ o os, (getEngine s e.val).orders = o :: os → Does (.hackTimeout e) s (fun t => (getEngine t e.val).orders = os
            ∧ Gains (uEngine e.val) eOrderTo 1 s t
            ∧ ∀ n x, getStream s n = some x → mapMeets s x (rowsTargeting s e.val o.target) = true →
                getStream t n = some { x with hole := true })))

/-- A SUMMARIZE leaves the summary of each listed page beside it. The scoring operations keep the 64 best entries per bank and
answer nothing. TOPK answers and remembers the K best of the banks' lists, and answers RANGE where a list is of another tide.
GATHER answers the value rows, with KEYS each after its key, in list order; ACCUM answers the banks' sums added in bank order;
COPY_LOCAL leaves at its destination what its source held. Each answer carries LOST_MASK, and CONTEXT_HOLE where it is not 0. A
request with a code against it is answered with the first in order, one at a dead channel with CONTEXT_HOLE and all banks lost,
and one that runs out of time with TIMEOUT: memory stays. While the budget is spent nothing happens (R291, R293, R307, R310,
R312, R314, R315, R316, R317, R318, R320, R322). -/
def Obligations.NearMemoryUnitsAnswerRequests : Prop :=
  ∀ (s : State) (quad : Fin 4) (ch : Fin 32) (errs : List DramErr) (p : Packet) (r : NmuReq) (b : List Byte),
    let q := quad.val
    let k := chanKey q ch.val
    let c := getChan s k
    let lost := lostMask s q ch.val r
    let code := if lost = 0 then stOk else stHole
    let live := liveBanks s q ch.val r
    let quiet (t : State) : Prop := (∀ j, j ≠ k → getChan t j = getChan s j) ∧ (getChan t k).mem = c.mem
    let reqs (t : State) : Prop := Gains (uChannel q ch.val) 0 1 s t
    (Runs s q ch.val 1 p r b → Does (.summarize quad ch []) s (fun t => ResultSent p r code lost 0 [] s t ∧ reqs t
        ∧ ∀ e ∈ r.entries, let w := r.plane.place e.1
            w.2.1 ∈ live → readBytes (getChan t k).mem (bankKey w.2.1 (r.plane.sumOff w.2.2)) r.plane.sumSize
              = summary r.plane c.mem w.2.1 w.2.2))
      ∧ (Runs s q ch.val 2 p r b → Does (.scorePages quad ch []) s (fun t => quiet t
          ∧ t.packets = s.packets.filter (fun x => x.serial ≠ p.serial)
          ∧ ∀ k' ∈ live, tget ListSlot.init (getChan t k).lists (16 * k' + r.list) =
              { entries := bestOf 64 ((fullPages ch.val r k').map (fun x => (pageScore r.plane c.mem r.q k' (r.plane.sumOff x.2), x.1)))
                tide := r.tide
                status := code }))
      ∧ (Runs s q ch.val 3 p r b → Does (.scoreTokens quad ch []) s (fun t => quiet t
          ∧ t.packets = s.packets.filter (fun x => x.serial ≠ p.serial)
          ∧ ∀ k' ∈ live, tget ListSlot.init (getChan t k).lists (16 * k' + r.list) =
              { entries := bestOf 64 ((listedTokens r k').map (fun x =>
                  (tokenScore r.plane c.mem r.q k' (r.plane.keyOff x.2.1 x.2.2), x.1)))
                tide := r.tide
                status := code }))
      ∧ (Runs s q ch.val 4 p r b →
          let ls := live.map (fun k' => tget ListSlot.init c.lists (16 * k' + r.list))
          let es := bestOf r.k (ls.flatMap (·.entries))
          let st := pickStatus ((if lost ≠ 0 then [stHole] else []) ++ ls.map (·.status))
          ((∀ l ∈ ls, l.tide = r.tide) → Does (.topk quad ch) s (fun t => ResultSent p r st lost es.length (entryBytes es) s t
              ∧ quiet t ∧ reqs t
              ∧ tget ListSlot.init (getChan t k).answered r.list = { entries := es, tide := r.tide, status := st }))
          ∧ ((∃ l ∈ ls, l.tide ≠ r.tide) → Does (.topk quad ch) s (fun t => ResultSent p r stRange 0 0 [] s t
              ∧ t = { s with packets := t.packets, serial := t.serial, cnt := t.cnt })))
      ∧ (Runs s q ch.val 5 p r b → lost = 0 → named s q ch.val r ≠ [] →
          let val (x : Nat × Word) : List Byte := readBytes c.mem (bankKey (r.plane.place (x.1 / 64)).2.1
            (r.plane.valOff (r.plane.place (x.1 / 64)).2.2 (x.1 % 64))) r.plane.row
          let key (x : Nat × Word) : List Byte := readBytes c.mem (bankKey (r.plane.place (x.1 / 64)).2.1
            (r.plane.keyOff (r.plane.place (x.1 / 64)).2.2 (x.1 % 64))) r.plane.row
          let n := (named s q ch.val r).length
          (r.flags.testBit 2 = false → n * r.plane.row ≤ 1984 → Does (.gather quad ch []) s (fun t =>
            ResultSent p r stOk 0 n ((named s q ch.val r).flatMap val) s t ∧ quiet t ∧ reqs t))
          ∧ (r.flags.testBit 2 = true → 2 * n * r.plane.row ≤ 1984 → Does (.gather quad ch []) s (fun t =>
            ResultSent p r stOk 0 (2 * n) ((named s q ch.val r).flatMap (fun x => key x ++ val x)) s t ∧ quiet t ∧ reqs t)))
      ∧ (Runs s q ch.val 6 p r b → Does (.accum quad ch []) s (fun t => quiet t ∧ reqs t
          ∧ ResultSent p r code lost 1 ((List.range r.plane.dim).flatMap (fun i =>
              leBytes 4 (live.foldl (fun acc k' => fadd32 acc (accumElem r c.mem k' i)) 0).toNat)) s t))
      ∧ (Runs s q ch.val 7 p r b → (r.arg1 + r.arg2 ≤ r.arg0 ∨ r.arg0 + r.arg2 ≤ r.arg1) → Does (.copyLocal quad ch []) s (fun t =>
          ResultSent p r code lost 0 [] s t ∧ reqs t
            ∧ ∀ k' ∈ live, readBytes (getChan t k).mem (bankKey k' r.arg1) r.arg2 = readBytes c.mem (bankKey k' r.arg0) r.arg2))
      ∧ (∀ i op, (i, op) ∈ [(Instr.summarize quad ch errs, 1), (.scorePages quad ch errs, 2), (.scoreTokens quad ch errs, 3),
            (.topk quad ch, 4), (.gather quad ch errs, 5), (.accum quad ch errs, 6), (.copyLocal quad ch errs, 7)] →
          takeReq s q ch.val (fun o => o = op) = some (p, r, b) →
          let codes := chanCodes s q ch.val p true ++ reqCodes s q ch.val r b
          (chanDead s q ch.val = true → Does i s (fun t => ResultSent p r stHole 0xFFFFFFFF 0 [] s t ∧ t.hchans = s.hchans ∧ reqs t))
          ∧ (chanDead s q ch.val = false → codes ≠ [] → Does i s (fun t => ResultSent p r (pickStatus codes) 0 0 [] s t
              ∧ t = { s with packets := t.packets, serial := t.serial, cnt := t.cnt } ∧ reqs t))
          ∧ (chanDead s q ch.val = false → codes = [] → op ≠ 4 → nmuStalled s q ch.val = true → exec i s = .next s))
      ∧ (takeReq s q ch.val (fun _ => true) = some (p, r, b) → Does (.nmuTimeout quad ch) s (fun t =>
          ResultSent p r stTimeout 0 0 [] s t ∧ t.hchans = s.hchans ∧ Gains (uChannel q ch.val) 7 1 s t))
      ∧ (∀ h d, takeReq s q ch.val (fun _ => true) = none → nextAt s q ch.val 2 = some p → p.payload = .xfer h d →
          Does (.nmuTimeout quad ch) s (fun t => XAcked p h stTimeout [] s t ∧ Gains (uChannel q ch.val) 7 1 s t
            ∧ t = { s with packets := t.packets, serial := t.serial, cnt := t.cnt }))

/-- A mode switch is refused while blocks are staged or the channel is zeroed; otherwise the mode changes, lists clear, every byte
outside the work areas stays, and in PROCESSOR the work areas read 0. Zeroing ends with every byte 0. The band rises with its
boundary, stays without a sample and falls at 3 °C below. A window takes its budget off the cycles spent and counts a stall. A
scrub counts the words in error of a MEMORY channel. A bank is fenced for 4 errors in 24 h or by its test; a channel fails with
all of its banks. At power-on the Harbour's channels hold nothing. While no port of the quad is up, the bridge answers requests,
transfers and orders with CONTEXT_HOLE and discards blocks (R289, R292, R294, R306, R311, R312, R321, R322, R323, R324, R325). -/
def Obligations.HarbourModesBandsAndLoss : Prop :=
  ∀ (s : State) (quad : Fin 4) (ch : Fin 32),
    let q := quad.val
    let k := chanKey q ch.val
    let c := getChan s k
    let id := sensorId 9 (32 * q + ch.val)
    let others (t : State) : Prop := ∀ j, j ≠ k → getChan t j = getChan s j
    (∀ req, (modeRefused s k = true → exec (.hbChModeReq quad ch req) s = .next s)
        ∧ (modeRefused s k = false → Does (.hbChModeReq quad ch req) s (fun t => t = { s with hchans := t.hchans } ∧ others t
            ∧ (getChan t k).mode = req ∧ (getChan t k).lists = [] ∧ (getChan t k).owner = c.owner ∧ (getChan t k).last = c.last
            ∧ ∀ a, (a % 2 ^ 30 < 0x3FF00000 ∨ req = false → mget (getChan t k).mem a = mget c.mem a)
              ∧ (0x3FF00000 ≤ a % 2 ^ 30 → req = true → mget (getChan t k).mem a = 0))))
      ∧ (c.zeroing = false → exec (.channelZeroing quad ch) s = .next s)
      ∧ (c.zeroing = true → Does (.channelZeroing quad ch) s (fun t => others t ∧ getChan t k =
          { c with zeroing := false, mem := [], staging := [], lists := [], answered := [] }))
      ∧ Does (.bandUpdate quad ch) s (fun t => t = { s with hchans := t.hchans } ∧ others t ∧ getChan t k = { c with band := (getChan t k).band }
          ∧ (sensed s id = none → getChan t k = c)
          ∧ (above s id 1050 = true → (getChan t k).band = 3)
          ∧ (above s id 950 = true → 2 ≤ (getChan t k).band.toNat) ∧ (above s id 850 = true → 1 ≤ (getChan t k).band.toNat)
          ∧ (atMost s id 820 = true → atMost s id 920 = true → atMost s id 1020 = true → above s id 850 = false → above s id 950 = false →
              above s id 1050 = false → (getChan t k).band = 0))
      ∧ Does (.budgetWindow quad ch) s (fun t => others t ∧ (getChan t k).spent = c.spent - nmuBudget c
          ∧ getChan t k = { c with spent := (getChan t k).spent, stalled := (getChan t k).stalled }
          ∧ t = { s with hchans := t.hchans, cnt := t.cnt } ∧ (c.stalled = true → Gains (uChannel q ch.val) 2 1 s t))
      ∧ (∀ errs, c.mode = true → exec (.patrolScrub quad ch errs) s = .next s)
      ∧ (c.mode = false → exec (.patrolScrub quad ch []) s = .next s
          ∧ ∀ (w : BitVec 32) (v : BitVec 64),
            Does (.patrolScrub quad ch [⟨w, none⟩]) s (fun t => Counted (uChannel q ch.val) 3 1 s t ∧ t = { s with cnt := t.cnt })
            ∧ Does (.patrolScrub quad ch [⟨w, some v⟩]) s (fun t => Counted (uChannel q ch.val) 4 1 s t
                ∧ readBytes (getChan t k).mem (8 * w.toNat) 8 = leBytes 8 v.toNat))
      ∧ (∀ (bank : Fin 32) (reason : Fin 3),
          let n := (c.ueTimes.filter (fun u => decide (u.1 = bank.val) && decide (nowUs s < u.2 + 86400000000))).length
          (usable s (uBank q ch.val bank.val) = false ∨ (reason = 0 ∧ n < 4) → exec (.bankFence quad ch bank reason) s = .next s)
          ∧ (usable s (uBank q ch.val bank.val) = true → ¬(reason = 0 ∧ n < 4) → Does (.bankFence quad ch bank reason) s (fun t =>
              (getHealth t (uBank q ch.val bank.val)).live = 2 ∧ t.hchans = s.hchans
                ∧ ∀ u, u ≠ uBank q ch.val bank.val → getHealth t u = getHealth s u)))
      ∧ Does (.channelFail quad ch) s (fun t => 2 ≤ (getHealth t (uChannel q ch.val)).live.toNat
          ∧ (∀ bank, bank < 32 → 2 ≤ (getHealth t (uBank q ch.val bank)).live.toNat) ∧ t.hchans = s.hchans)
      ∧ (∀ bad : List (Fin 32 × Fin 32), Does (.harbourPowerOn quad bad) s (fun t => (getHarbour t q).powered = true
          ∧ (∀ n, n / 32 = q → getChan t n = HChan.init) ∧ (∀ n, n / 32 ≠ q → getChan t n = getChan s n)
          ∧ (∀ x ∈ bad, (getHealth t (uBank q x.1.val x.2.val)).live = 2)
          ∧ ∀ (x : Fin 32 × Fin 32), x ∉ bad → (getHealth t (uBank q x.1.val x.2.val)).live = 0))
      ∧ (clocksRun s = true → ∀ p : Fin 16,
          let up := (List.range 4).any (fun i => (getPort s (4 * (p.val / 4) + i)).pstate = 5 && (getPort s (4 * (p.val / 4) + i)).carries
            && (getPort s (4 * (p.val / 4) + i)).partner = 2)
          (up = true → exec (.bridgeProxyAnswer p) s = .next s)
          ∧ (∀ x, up = false → proxyPacket s p.val = some x →
              (∀ h d, x.payload = .xfer h d → Does (.bridgeProxyAnswer p) s (fun t => XAcked x h stHole [] s t))
              ∧ (∀ h d, x.payload = .block h d → Does (.bridgeProxyAnswer p) s (fun t =>
                  t = { s with packets := s.packets.filter (fun y => y.serial ≠ x.serial) }))
              ∧ (∀ d, x.payload = .msg d → Does (.bridgeProxyAnswer p) s (fun t =>
                  ResultSent x (parseReq x d) stHole 0xFFFFFFFF 0 [] s t)))
          ∧ (∀ e target tide rows cm rest, up = false → proxyPacket s p.val = none → s.ctl = .order cm e target tide rows :: rest →
              target / 16384 = p.val → Does (.bridgeProxyAnswer p) s (fun t =>
                t = { s with ctl := rest ++ [.hack e target tide [] true 0 0 0] })))

/-- A poll of a served pair is outstanding and counted. A record read in order is accepted; one with PROD or CONS out of range, a
reserved byte or an error halts the pair with its cause, keeps PROD and CONS, and raises RING_HALT. Entries are fetched up to
PROD, 32, the ring's end and the free slots; without a slot the wait counts once. The next entry in order becomes its engine's
job, any other is dropped and counted, and one that its engine cannot run completes BAD_DESCRIPTOR. A completion is written into
the slot of its index with TAG, STATUS, INDEX and PHASE. Enable starts a pair at index 0 with phase 1 unless refused, and
disable clears only EN; a ring report empties what the standby keeps (R335, R336, R337, R338, R339, R340, R341, R342, R343,
R344, R345, R350). -/
def Obligations.RingPairsPollFetchAndComplete : Prop :=
  ∀ (s : State) (fn : Fin 32) (pair : BitVec 8), clocksRun s = true →
    let f := fn.val
    let key := pairKey f pair.toNat
    let p := getPair s key
    let run := pairRuns s f pair.toNat
    let one (t : State) : Prop := ∀ j, j ≠ key → getPair t j = getPair s j
    let halts (i : Instr) (cause : Nat) : Prop := Does i s (fun t => (getPair t key).halted = true ∧ (getPair t key).cause.toNat = cause
      ∧ (getPair t key).prod = p.prod ∧ (getPair t key).cons = p.cons ∧ (getPair t key).reading = false
      ∧ (getFn t f).event.getLsbD 0 = true ∧ one t ∧ t = { s with pairs := t.pairs, fns := t.fns, vecs := t.vecs, logq := t.logq })
    (∀ late, (run = false ∨ p.reading = true → exec (.doorbellPoll fn pair late) s = .next s)
        ∧ (run = true → p.reading = false → Does (.doorbellPoll fn pair late) s (fun t => one t
            ∧ getPair t key = { p with reading := true } ∧ t = { s with pairs := t.pairs, cnt := t.cnt }
            ∧ Gains (uPair key) 1 1 s t ∧ (late = true → Gains (uPair key) 2 1 s t))))
      ∧ (∀ err,
          let b := readBytes s.hmem (p.db.toNat / 64 * 64) 64
          let prod := field b 0 4
          let cons := field b 4 4
          let n := pairSize p
          let cause := if err then 4 else if n ≤ prod then 1 else if n ≤ cons then 2
            else if ringSub n p.head.toNat p.cons.toNat < ringSub n cons p.cons.toNat then 2 else if field b 8 56 ≠ 0 then 3 else 0
          (p.reading = false → exec (.doorbellRead fn pair err) s = .next s)
          ∧ (p.reading = true → run = true → cause ≠ 0 → halts (.doorbellRead fn pair err) cause)
          ∧ (p.reading = true → run = true → cause = 0 → Does (.doorbellRead fn pair err) s (fun t => one t ∧ t = { s with pairs := t.pairs }
              ∧ getPair t key = { p with reading := false, prod := BitVec.ofNat 16 prod, cons := BitVec.ofNat 16 cons })))
      ∧ (∀ err,
          let n := fetchCount p
          (n ≤ 32 ∧ p.head.toNat + n ≤ max p.head.toNat (pairSize p))
          ∧ (run = false ∨ p.head = p.prod → exec (.entryFetch fn pair err) s = .next s)
          ∧ (run = true → p.head ≠ p.prod → n = 0 → p.waited ≠ some p.head.toNat → Does (.entryFetch fn pair err) s (fun t =>
              getPair t key = { p with waited := some p.head.toNat } ∧ Counted (uPair key) 3 1 s t ∧ t = { s with pairs := t.pairs, cnt := t.cnt }))
          ∧ (run = true → n = 0 → p.waited = some p.head.toNat → exec (.entryFetch fn pair err) s = .next s)
          ∧ (run = true → p.head ≠ p.prod → n ≠ 0 → err = true → halts (.entryFetch fn pair err) 4)
          ∧ (run = true → p.head ≠ p.prod → n ≠ 0 → err = false → Does (.entryFetch fn pair err) s (fun t => one t
              ∧ Counted (uPair key) 0 n s t ∧ t = { s with pairs := t.pairs, cnt := t.cnt }
              ∧ (getPair t key).head.toNat = (p.head.toNat + n) % pairSize p % 65536 ∧ (getPair t key).prod = p.prod
              ∧ (getPair t key).fetched = p.fetched ++ (List.range n).map (fun i =>
                  (p.head.toNat + i, p.phase, readBytes s.hmem (pairBase p.sr + 32 * (p.head.toNat + i)) 32))
              ∧ (∀ i, i < n → p.head.toNat + i ∈ (getPair t key).owed)
              ∧ (getPair t key).phase = (if p.head.toNat + n = pairSize p then !p.phase else p.phase))))
      ∧ (p.fetched = [] → exec (.entryArrival fn pair) s = .next s)
      ∧ (∀ i ph b rest, p.fetched = (i, ph, b) :: rest → pairEngine p < 13 →
          (i ≠ p.expect → Does (.entryArrival fn pair) s (fun t => Counted (uPair key) 4 1 s t ∧ (getPair t key).fetched = rest
            ∧ (getPair t key).expect = p.expect ∧ t = { s with pairs := t.pairs, cnt := t.cnt }))
          ∧ (i = p.expect → entryBad (pairEngine p) b = false → Does (.entryArrival fn pair) s (fun t => (getPair t key).fetched = rest
            ∧ (getPair t key).expect = (i + 1) % pairSize p ∧ t = { s with pairs := t.pairs, engines := t.engines }
            ∧ ∃ x : Job, (getEngine t (pairEngine p)).jobs = (getEngine s (pairEngine p)).jobs ++ [x] ∧ x.cmd = b ∧ x.ticket.fn = f
              ∧ x.ticket.pair = pair.toNat ∧ x.ticket.index = i ∧ x.ticket.phase = ph ∧ x.started = false))
          ∧ (i = p.expect → entryBad (pairEngine p) b = true → ((getFn s f).resetBusy && (getFn s f).flr) = false →
            Does (.entryArrival fn pair) s (fun t => t = { s with pairs := t.pairs }
              ∧ ∃ c : Cpl, (getPair t key).ready = p.ready ++ [c] ∧ c.status = stBad ∧ c.ticket.index = i)))
      ∧ (p.ready = [] ∨ mayIssue s f = false → exec (.completionWrite fn pair) s = .next s)
      ∧ (∀ c rest, p.ready = c :: rest → mayIssue s f = true →
          ((getFn s f).standbyOk = false ∨ keptCount s (getFn s f).port < 8192) → Does (.completionWrite fn pair) s (fun t =>
            let slot := pairBase p.cr + 32 * c.ticket.index
            (getPair t key).ready = rest ∧ one t ∧ t = { s with pairs := t.pairs, vecs := t.vecs, hmem := t.hmem }
              ∧ readNat t.hmem slot 2 = c.ticket.tag.toNat ∧ readNat t.hmem (slot + 2) 2 = c.status % 65536
              ∧ readNat t.hmem (slot + 6) 2 = c.ticket.index % 65536 ∧ readNat t.hmem (slot + 8) 1 = c.ticket.op.toNat
              ∧ readNat t.hmem (slot + 0x1F) 1 = (if c.ticket.phase then 1 else 0)
              ∧ (∀ a, a < slot ∨ slot + 32 ≤ a → mget t.hmem a = mget s.hmem a)
              ∧ (c.ticket.quiet = false → pairVector p ≠ 0 → (getVec t (2048 * f + pairVector p)).pending =
                  (getVec s (2048 * f + pairVector p)).pending + 1)))
      ∧ (∀ ctl : BitVec 32,
          let stops := barOpen s f = false ∨ pairCount f ≤ pair.toNat ∨ ctl.getLsbD 0 = false ∨ pairEn p = true ∨ pairBusy p = true
            ∨ enableRefused s f pair.toNat ctl = true
          (stops → exec (.ringEnable fn pair ctl) s = .next s)
          ∧ (¬stops → Does (.ringEnable fn pair ctl) s (fun t => t = { s with pairs := t.pairs } ∧ one t ∧ pairEn (getPair t key) = true
              ∧ (getPair t key).head = 0 ∧ (getPair t key).phase = true ∧ (getPair t key).halted = false ∧ (getPair t key).cause = 0
              ∧ pairEngine (getPair t key) = (ctl.extractLsb' 1 4).toNat ∧ pairLog (getPair t key) = (ctl.extractLsb' 5 5).toNat
              ∧ pairPoll (getPair t key) = (ctl.extractLsb' 10 12).toNat)))
      ∧ (barOpen s f = false ∨ pairCount f ≤ pair.toNat → exec (.ringDisable fn pair) s = .next s)
      ∧ (barOpen s f = true → pair.toNat < pairCount f → Does (.ringDisable fn pair) s (fun t => t = { s with pairs := t.pairs } ∧ one t
          ∧ getPair t key = { p with ctl := (getPair t key).ctl } ∧ pairEn (getPair t key) = false
          ∧ ∀ i, 0 < i → (getPair t key).ctl.getLsbD i = p.ctl.getLsbD i))
      ∧ (pair.toNat < pairCount f → Does (.ringReport fn pair) s (fun t => t = { s with pairs := t.pairs } ∧ one t
          ∧ getPair t key = { p with kept := [], reported := (getPair t key).reported } ∧ (p.fetched = [] → (getPair t key).reported = p.head)))

/-- MSIX_SEND sends when the pending count has reached COUNT, or at any completion with COUNT and TIME 0; a vector's TIME sends once
a first completion waits; the event vector sends when an event waits. Sending returns the pending count to 0: one message goes
where the vector is unmasked, and else the pending bit is set. Unmasking sends the message that waits. In every other case, and
while the function's port is out of L0 or it is under an FLR, nothing changes (R345). -/
def Obligations.VectorsSendTheirMessages : Prop :=
  ∀ (s : State) (fn : Fin 32) (vector : BitVec 11), clocksRun s = true →
    let key := 2048 * fn.val + vector.toNat
    let v := getVec s key
    let ev := getVec s (2048 * fn.val)
    let due : Prop := (v.count ≠ 0 ∧ v.count.toNat ≤ v.pending) ∨ (v.count = 0 ∧ v.time = 0 ∧ 0 < v.pending)
    let ok : Prop := vector ≠ 0 ∧ vector.toNat < vecCount fn.val ∧ mayIssue s fn.val = true
    let sends (k : Nat) (x : Vec) (t : State) : Prop := (∀ j, j ≠ k → getVec t j = getVec s j) ∧ (getVec t k).pending = 0
      ∧ (getVec t k).firstUs = none ∧ (x.masked = false → (getVec t k).sent = x.sent + 1 ∧ (getVec t k).pba = x.pba)
      ∧ (x.masked = true → (getVec t k).sent = x.sent ∧ (getVec t k).pba = true)
    (¬ok ∨ ¬due → exec (.msixSend fn vector) s = .next s)
      ∧ (ok → due → Does (.msixSend fn vector) s (fun t => sends key v t ∧ t = { s with vecs := t.vecs }))
      ∧ (¬ok ∨ v.time = 0 ∨ v.pending = 0 ∨ v.firstUs = none → exec (.vectorTimeExpiry fn vector) s = .next s)
      ∧ (∀ u, ok → v.time ≠ 0 → v.pending ≠ 0 → v.firstUs = some u → Does (.vectorTimeExpiry fn vector) s (fun t => sends key v t
          ∧ t.pairs = s.pairs ∧ t.hmem = s.hmem))
      ∧ (ev.pending = 0 ∨ mayIssue s fn.val = false → exec (.eventVector fn) s = .next s)
      ∧ (ev.pending ≠ 0 → mayIssue s fn.val = true → Does (.eventVector fn) s (fun t => sends (2048 * fn.val) ev t ∧ t = { s with vecs := t.vecs }))
      ∧ (barOpen s fn.val = false ∨ vecCount fn.val ≤ vector.toNat → exec (.msixUnmask fn vector) s = .next s)
      ∧ (barOpen s fn.val = true → vector.toNat < vecCount fn.val → Does (.msixUnmask fn vector) s (fun t => t = { s with vecs := t.vecs }
          ∧ getVec t key = { v with masked := false, pba := false, sent := if v.pba then v.sent + 1 else v.sent }))

/-- A reset returns every ring register of the function to its reset value, samples RESIDENT_KEEP, resets its engines and stops the
cores of its regions; a soft one writes FUNCTION_RESET into the slot still owed, an FLR writes nothing, and that of PF0 or the
clearing of VF Enable takes every function. Its end clears RESET_BUSY, and raises RESET_DONE for a soft one only. A failover
moves the function to the other port, rewrites what the standby keeps and raises FAILOVER, or without a standby halts its pairs
and loses its streams. The owner of an engine and a function's HOME change unless refused, and a HOME other than the current
port is a failover (R332, R333, R346, R347, R348, R350, R351, R352, R353, R354). -/
def Obligations.FunctionsResetAndFailOver : Prop :=
  ∀ (s : State) (fn : Fin 32), clocksRun s = true →
    let f := fn.val
    let g := getFn s f
    let reset (n : Nat) (t : State) : Prop := (getFn t n).resetBusy = true ∧ (∀ k, k < 256 → getPair t (pairKey n k) = Pair.init)
    let moved (t : State) : Prop := (getFn t f).port = (!g.port) ∧ (getFn t f).event.getLsbD 1 = true
      ∧ Gains uModule (if g.port then 4 else 3) 1 s t
    let lost (t : State) : Prop := (∀ k, k < 256 → pairEn (getPair s (pairKey f k)) = true → (getPair t (pairKey f k)).halted = true)
      ∧ ∀ n x, getStream s n = some x → x.fn = f → getStream t n = none
    (g.resetBusy = true → exec (.resetSoft fn) s = .next s)
      ∧ (g.resetBusy = false → Does (.resetSoft fn) s (fun t => reset f t ∧ (getFn t f).keepNow = g.keep ∧ (getFn t f).flr = false
          ∧ (∀ e, e ∈ enginesOf s f → (getEngine t e).state = 5 ∧ (getEngine t e).image = none)
          ∧ (∀ v, 0 < v → v < 2048 → (getVec t (2048 * f + v)).count = 0 ∧ (getVec t (2048 * f + v)).time = 0)
          ∧ ∀ k, k < 2 ^ 19 → (getRegion s (keyRegion k)).owned = true → (getRegion s (keyRegion k)).owner.toNat = f → keyCol k < 17 →
              (getCore t k).run = .stopped ∧ (g.keep = true → (getCore t k).istore = (getCore s k).istore)))
      ∧ (∀ k i, k < 256 → g.resetBusy = false → pairsOf s f = [pairKey f k] → (getPair s (pairKey f k)).ready = [] →
          (getPair s (pairKey f k)).owed = [i] → enginesOf s f = [] → (∀ e x, x ∈ (getEngine s e).jobs → x.ticket.fn ≠ f) →
          Does (.resetSoft fn) s (fun t => readNat t.hmem (pairBase (getPair s (pairKey f k)).cr + 32 * i + 2) 2 = stReset))
      ∧ (f ≠ 0 → g.resetBusy = true → Does (.pcieFlr fn) s (fun t => (getFn t f).flr = true ∧ (getFn t f).resetBusy = true
          ∧ t = { s with fns := t.fns, vecs := t.vecs }))
      ∧ (f ≠ 0 → g.resetBusy = false → Does (.pcieFlr fn) s (fun t => reset f t ∧ (getFn t f).flr = true ∧ t.hmem = s.hmem))
      ∧ ((∀ n, n < 32 → (getFn s n).resetBusy = false) → Does (.pcieFlr 0) s (fun t => ∀ n, n < 32 → reset n t))
      ∧ (g.resetBusy = false → exec (.fnResetDone fn) s = .next s)
      ∧ (g.resetBusy = true → Does (.fnResetDone fn) s (fun t => (getFn t f).resetBusy = false ∧ (getFn t f).keep = g.keep
          ∧ (g.flr = true → (getFn t f).event = g.event) ∧ (g.flr = false → (getFn t f).event.getLsbD 3 = true)
          ∧ ∀ e, e < 13 → e ∈ enginesOf s f → (getEngine s e).state = 5 → (getEngine t e).state = 0))
      ∧ (∀ port : Fin 2, ((getHport s port.val).vfEn = false → exec (.vfEnableClear port) s = .next s)
          ∧ ((getHport s port.val).vfEn = true → (∀ n, n < 32 → (getFn s n).resetBusy = false) → Does (.vfEnableClear port) s (fun t =>
              (getHport t port.val).vfEn = false ∧ ∀ n, n < 32 → reset n t))
          ∧ (∀ up, (up = true ∧ ((getHport s port.val).perst = true ∨ s.up.phase ≤ 3) → exec (.hostLinkL0Change port up) s = .next s)
            ∧ (¬(up = true ∧ ((getHport s port.val).perst = true ∨ s.up.phase ≤ 3)) → Does (.hostLinkL0Change port up) s (fun t =>
                (getHport t port.val).l0 = up ∧ ∀ n, n < 32 → (getFn t n).standbyOk = standbyReady t n)))
          ∧ ((getHport s port.val).l0 = true → exec (.linkDownTimeout port) s = .next s)
          ∧ ((getHport s port.val).l0 = false → (∀ n, n < 32 → (getFn s n).standbyOk = standbyReady s n) → g.standbyOk = true →
              g.port = decide (port.val = 1) → fnEnabled s port.val f = true → Does (.linkDownTimeout port) s (fun t => (getFn t f).port = (!g.port))))
      ∧ (bridgeDown s (fnBridge s f) = false → exec (.failover fn) s = .next s)
      ∧ (bridgeDown s (fnBridge s f) = true → g.standbyOk = true → Does (.failover fn) s moved)
      ∧ (∀ k i b, bridgeDown s (fnBridge s f) = true → g.standbyOk = true → pairsOf s f = [pairKey f k] →
          (getPair s (pairKey f k)).kept = [(i, b)] → Does (.failover fn) s (fun t =>
            t.hmem = writeBytes s.hmem (pairBase (getPair s (pairKey f k)).cr + 32 * i) b
              ∧ (getPair t (pairKey f k)).head = (getPair s (pairKey f k)).reported ∧ (getPair t (pairKey f k)).fetched = []))
      ∧ (bridgeDown s (fnBridge s f) = true → g.standbyOk = false → Does (.failover fn) s (fun t => lost t ∧ (getFn t f).port = g.port))
      ∧ (∀ (e : Fin 13) (v : BitVec 32),
          let inUse := e.val = 12 ∨ (getEngine s e.val).image ≠ none ∨ (getEngine s e.val).state = 1 ∨ namingStreams s e.val ≠ []
            ∨ ∃ x ∈ s.pairs, pairEn x.2 = true ∧ pairEngine x.2 = e.val
          (barOpen s 0 = false ∨ inUse → exec (.admEngOwnerWrite e v) s = .next s)
          ∧ (barOpen s 0 = true → ¬inUse → Does (.admEngOwnerWrite e v) s (fun t => t = { s with engines := t.engines }
              ∧ getEngine t e.val = { getEngine s e.val with owner := v.setWidth 5, owned := v.getLsbD 5 }
              ∧ ∀ j, j ≠ e.val → getEngine t j = getEngine s j)))
      ∧ (∀ v : BitVec 32, (barOpen s 0 = false → exec (.admFnCfgWrite fn v) s = .next s)
          ∧ (barOpen s 0 = true → v.getLsbD 0 = g.port → Does (.admFnCfgWrite fn v) s (fun t => t = { s with fns := t.fns }
              ∧ getFn t f = { g with home := v.getLsbD 0, keep := v.getLsbD 1 }))
          ∧ (barOpen s 0 = true → v.getLsbD 0 ≠ g.port → g.standbyOk = true → Does (.admFnCfgWrite fn v) s (fun t => moved t
              ∧ (getFn t f).home = v.getLsbD 0 ∧ (getFn t f).keep = v.getLsbD 1))
          ∧ (barOpen s 0 = true → v.getLsbD 0 ≠ g.port → g.standbyOk = false → Does (.admFnCfgWrite fn v) s lost))

/-- A LIST of a legal address and count puts its first command in hand; a bad one completes RANGE, a read error or a command that no
list may hold BAD_DESCRIPTOR. A FENCE waits for the earlier entries and frames of its ring. A snapshot writes each counter with
OVF and WCOL, 8 bytes each. An engine reset closes the streams that name the engine, unbinds its image, returns its parameters,
completes what ran with FUNCTION_RESET and itself with OK. An unbind is refused while a stream names the engine, waits for the
boundary while tides run, and else frees the image at once. A non-zero reserved byte completes BAD_DESCRIPTOR and a command that
the state does not accept RANGE; where no such command waits to start nothing changes (R7, R360, R361, R362, R364, R384, R386). -/
def Obligations.EnginesRunListsAndSnapshots : Prop :=
  ∀ (s : State) (e : Fin 13) (j : Nat) (x : Job), clocksRun s = true →
    (∀ err, Given s e.val j 0x01 x →
        let n := cmdNat x 4 2
        let addr := cmdNat x 8 8
        (n = 0 ∨ 4096 < n ∨ addr % 32 ≠ 0 → Does (.list e j err) s (Completes e.val j x stRange (listResult { rest := [] }) 0xFFFF noTide s))
        ∧ (0 < n → n ≤ 4096 → addr % 32 = 0 → err = true →
            Does (.list e j err) s (Completes e.val j x stBad (listResult { rest := [] }) 0xFFFF noTide s))
        ∧ (∀ c cs, 0 < n → n ≤ 4096 → addr % 32 = 0 → err = false → listCmds s addr n = c :: cs →
            (unlistable e.val c = true → Does (.list e j err) s (Completes e.val j x stBad (leBytes 2 1 ++ leBytes 2 0 ++ leBytes 2 stBad) 0xFFFF noTide s))
            ∧ (unlistable e.val c = false → Does (.list e j err) s (fun t => t = { s with engines := t.engines }
                ∧ ∃ y, Stands e.val j y t ∧ y.ticket = x.ticket ∧ y.cmd = c ∧ y.lst = some { rest := cs } ∧ y.prog = .fresh))))
      ∧ (((getEngine s e.val).jobs.take j).any (sameRing x) = true ∨ ringFrames s x = true → getJob s e.val j = some x →
          exec (.fence e j) s = .next s)
      ∧ (((getEngine s e.val).jobs.take j).any (sameRing x) = false → ringFrames s x = false → Given s e.val j 0x02 x →
          Does (.fence e j) s (Completes e.val j x stOk [] 0xFFFF noTide s))
      ∧ (Given s e.val j 0x03 x →
          (∀ code, snapUnit s (jobFn x) (cmdNat x 4 1) (cmdNat x 8 4) = .inl code →
            Does (.cntSnap e j) s (fun t => Completes e.val j x code (leBytes 4 0) 0xFFFF noTide s t ∧ t.hmem = s.hmem))
          ∧ (∀ u base valid, snapUnit s (jobFn x) (cmdNat x 4 1) (cmdNat x 8 4) = .inr (u, base, valid) →
            let n := cmdNat x 6 2
            let dst := cmdNat x 0x10 8
            let all := (List.range n).all (fun i => valid (cmdNat x 0x0C 2 + i))
            (n = 0 ∨ 256 < n ∨ dst % 8 ≠ 0 ∨ all = false → Does (.cntSnap e j) s (fun t =>
                Completes e.val j x stRange (leBytes 4 0) 0xFFFF noTide s t ∧ t.hmem = s.hmem))
            ∧ (0 < n → n ≤ 256 → dst % 8 = 0 → all = true → isFrozen s u = false → cmdNat x 5 1 = 0 → Does (.cntSnap e j) s (fun t =>
                Completes e.val j x stOk (leBytes 4 n) 0xFFFF noTide s t ∧ t.cnt.live = s.cnt.live
                ∧ (∀ a, a < dst ∨ dst + 8 * n ≤ a → mget t.hmem a = mget s.hmem a)
                ∧ ∀ i, i < n → let c := getCtr s u (base + cmdNat x 0x0C 2 + i)
                    readNat t.hmem (dst + 8 * i) 8 = c.val.toNat + (if c.ovf then 2 ^ 48 else 0) + (if c.wcol then 2 ^ 49 else 0)))))
      ∧ (Given s e.val j 0x04 x → (getEngine s e.val).jobs.filter (fun y => decide (y.ticket = x.ticket)) = [x] →
          (∀ n y, getStream s n = some y → y.closing ≠ some x.ticket) →
          Does (.engReset e j) s (fun t => (getEngine t e.val).image = none ∧ (getEngine t e.val).params = {}
            ∧ ((getEngine s e.val).image ≠ none → (getEngine t e.val).pins = [])
            ∧ (getEngine t e.val).state = 0 ∧ (∀ n y, getStream s n = some y → y.inEng = e.val ∨ y.outEng = e.val → getStream t n = none)
            ∧ (∃ c ∈ (getPair t (pairKey x.ticket.fn x.ticket.pair)).ready, c.ticket = x.ticket ∧ c.status = stOk)
            ∧ ∀ y ∈ (getEngine s e.val).jobs, y.started = true → y.ticket ≠ x.ticket →
                ((getFn s y.ticket.fn).resetBusy && (getFn s y.ticket.fn).flr) = false →
                ∃ c ∈ (getPair t (pairKey y.ticket.fn y.ticket.pair)).ready, c.ticket = y.ticket))
      ∧ (∀ se : Fin 8, se.val = e.val → Given s e.val j 0x11 x →
          (namingStreams s e.val ≠ [] → Does (.imageUnbind se j) s (Completes e.val j x stRange [] 0xFFFF noTide s))
          ∧ (namingStreams s e.val = [] → tidesRun (getEngine s e.val) = true → Does (.imageUnbind se j) s (fun t =>
              (getEngine t e.val).unbinding = true ∧ (getEngine t e.val).image = (getEngine s e.val).image ∧ t = { s with engines := t.engines }))
          ∧ (namingStreams s e.val = [] → tidesRun (getEngine s e.val) = false → Does (.imageUnbind se j) s (fun t =>
              (getEngine t e.val).image = none ∧ (getEngine t e.val).state = 0
                ∧ ((getEngine s e.val).image ≠ none → (getEngine t e.val).pins = []))))
      ∧ ∀ i op, (i, op) ∈ [(Instr.list e j false, 0x01), (.list e j true, 0x01), (.cntSnap e j, 0x03), (.engReset e j, 0x04)] ++
            (if h : e.val < 8 then [(.imageUnbind ⟨e.val, h⟩ j, 0x11), (.tideBind ⟨e.val, h⟩ j, 0x12), (.streamOpen ⟨e.val, h⟩ j false, 0x13),
              (.streamOpen ⟨e.val, h⟩ j true, 0x13), (.streamClose ⟨e.val, h⟩ j, 0x14), (.checkpoint ⟨e.val, h⟩ j, 0x17),
              (.syncWait ⟨e.val, h⟩ j, 0x18)] else []) →
          (startable s e.val j op = none → exec i s = .next s)
          ∧ (startable s e.val j op = some x → x.lst = none → ((getFn s x.ticket.fn).resetBusy && (getFn s x.ticket.fn).flr) = false →
              (reservedSet x.cmd = true → Does i s (Completes e.val j x stBad [] 0xFFFF noTide s))
              ∧ (reservedSet x.cmd = false → acceptsOp e.val (getEngine s e.val).state.toNat op = false →
                  Does i s (Completes e.val j x stRange [] 0xFFFF noTide s)))

/-- A TIDE_BIND that nothing refuses completes with the next tide and sets the parameters at once, or pends them while tides run; a
refused one changes none. A listed command that is done puts the next in hand or ends the list with OK; one that is not done
ends the list and names its index and status. An open takes the lowest free number and puts both of its engines in STREAMING; a
refused one opens nothing. A close waits for the queue to empty, or closes at once where the stream names a FAULTED engine; one
that names no open stream of the engine completes with its status (R188, R189, R361, R365, R366, R367, R368, R369, R387). -/
def Obligations.TideParametersAndStreamsOpen : Prop :=
  ∀ (s : State) (e : Fin 8) (j : Nat) (x : Job), clocksRun s = true →
    let g := getEngine s e.val
    let codes := bindCodes s e.val x
    let ps := bindParams x
    let n := nextTide s e.val ps
    let busy : Bool := (getFn s x.ticket.fn).resetBusy && (getFn s x.ticket.fn).flr
    (4 < cmdNat x 4 1 → codes ≠ []) ∧ (cmdNat x 0x18 1 = 1 → cmdNat x 0x0C 2 = 0 → codes ≠ [])
      ∧ (Given s e.val j 0x12 x →
          (codes ≠ [] → Does (.tideBind e j) s (fun t => Completes e.val j x (pickStatus codes) [] 0xFFFF noTide s t
              ∧ (getEngine t e.val).params = g.params ∧ (getEngine t e.val).pend = g.pend))
          ∧ (codes = [] → Does (.tideBind e j) s (fun t => Completes e.val j x stOk (leBytes 4 n.toNat) 0xFFFF n s t
              ∧ (tidesRun g = true → (getEngine t e.val).pend = some ps ∧ (getEngine t e.val).params = g.params)
              ∧ (tidesRun g = false → (getEngine t e.val).params = ps ∧ (getEngine t e.val).pend = none)
              ∧ t = { s with engines := t.engines, pairs := t.pairs })))
      ∧ (∀ l : ListRun, startable s e.val j 0x12 = some x → reservedSet x.cmd = false → acceptsOp e.val g.state.toNat 0x12 = true → busy = false →
          x.lst = some l → (∀ c ∈ l.codes, notDone c = false) →
          (codes ≠ [] → Does (.tideBind e j) s (Completes e.val j x (pickStatus (l.codes ++ [pickStatus codes]))
              (leBytes 2 (l.done + 1) ++ leBytes 2 l.codes.length ++ leBytes 2 (pickStatus codes)) 0xFFFF noTide s))
          ∧ (codes = [] → l.rest = [] → Does (.tideBind e j) s (Completes e.val j x (pickStatus (l.codes ++ [stOk]))
              (leBytes 2 (l.done + 1) ++ leBytes 2 0xFFFF ++ leBytes 2 0) 0xFFFF noTide s))
          ∧ (∀ c cs, codes = [] → l.rest = c :: cs → unlistable e.val c = false → Does (.tideBind e j) s (fun t => ∃ y, Stands e.val j y t
              ∧ y.cmd = c ∧ y.prog = .fresh ∧ y.ticket = x.ticket ∧ y.lst = some { rest := cs, done := l.done + 1, codes := l.codes ++ [stOk] })))
      ∧ (∀ err, Given s e.val j 0x13 x →
          let addr := cmdNat x 8 8
          let words := (List.range (cmdNat x 6 2)).map (fun i => readNat s.hmem (addr + 32 + 4 * i) 4)
          let m := freeStream s
          let v : Stream :=
            { engine := e, fn := jobFn x, inEng := cmdNat x 4 1, outEng := cmdNat x 5 1, audio := readBytes s.hmem addr 32
              map := words.map mapEntry, dither := BitVec.ofNat 32 (m + 1) }
          let oc := openCodes s e.val (jobFn x) v words
          (addr % 64 ≠ 0 ∨ 4096 < cmdNat x 6 2 → Does (.streamOpen e j err) s (fun t => Completes e.val j x stRange [] 0xFFFF noTide s t ∧ t.streams = s.streams))
          ∧ (addr % 64 = 0 → cmdNat x 6 2 ≤ 4096 → err = true → Does (.streamOpen e j err) s (fun t =>
              Completes e.val j x stBad [] 0xFFFF noTide s t ∧ t.streams = s.streams))
          ∧ (addr % 64 = 0 → cmdNat x 6 2 ≤ 4096 → err = false →
            (oc ≠ [] → Does (.streamOpen e j err) s (fun t => Completes e.val j x (pickStatus oc) [] 0xFFFF noTide s t ∧ t.streams = s.streams))
            ∧ (oc = [] → getStream s m = none ∧ m < 4096 ∧ (∀ k, k < m → getStream s k ≠ none)
                ∧ Does (.streamOpen e j err) s (fun t => getStream t m = some v ∧ (∀ k, k ≠ m → getStream t k = getStream s k)
                  ∧ (getEngine t v.inEng).state = 3 ∧ (getEngine t v.outEng).state = 3
                  ∧ ∃ first : Word, Completes e.val j x stOk (leBytes 2 m ++ leBytes 2 0 ++ leBytes 4 first.toNat) (BitVec.ofNat 16 m) noTide s t))))
      ∧ (Given s e.val j 0x14 x →
          let k := cmdNat x 4 2
          let code := streamCode s e.val (jobFn x) k
          (code ≠ stOk → Does (.streamClose e j) s (fun t => Completes e.val j x code [] (BitVec.ofNat 16 k) noTide s t ∧ t.streams = s.streams))
          ∧ (∀ y, getStream s k = some y → code = stOk → y.closing ≠ none → Does (.streamClose e j) s (fun t =>
              Completes e.val j x stRange [] (BitVec.ofNat 16 k) noTide s t ∧ t.streams = s.streams))
          ∧ (∀ y, getStream s k = some y → code = stOk → y.closing = none → namesFaulted s y = false → Does (.streamClose e j) s (fun t =>
              getStream t k = some { y with closing := some x.ticket } ∧ (∃ z, Stands e.val j z t ∧ z.started = true ∧ z.ticket = x.ticket)
                ∧ t = { s with streams := t.streams, engines := t.engines }))
          ∧ (∀ y, getStream s k = some y → code = stOk → y.closing = none → namesFaulted s y = true → Does (.streamClose e j) s (fun t =>
              getStream t k = none)))

/-- A frame that its checks allow joins the end of its stream's queue, with the bytes read from IN_ADDR for a FRAME_IN, and its
command leaves the engine. One that breaks a check, finds 8 queued or a closing stream completes RANGE; a read error
BAD_DESCRIPTOR; one of a FAULTED engine the fault status; each is counted and queues nothing. A CHECKPOINT is refused without
CKPT_VALID and else asked for. A taint report of the running tide joins its rows or marks its stream, and a late one is counted.
A policy write keeps STREAM, and pends the policy of an open stream of the function (R370, R371, R373, R387, R390, R391, R394,
R395, R397). -/
def Obligations.FramesQueueOrComplete : Prop :=
  ∀ (s : State) (e : Fin 8) (j : Nat) (x : Job), clocksRun s = true →
    let n := cmdNat x 4 2
    let code := streamCode s e.val (jobFn x) n
    let busy : Bool := (getFn s x.ticket.fn).resetBusy && (getFn s x.ticket.fn).flr
    (∀ (i : Instr) (op : Nat) (err : Bool), (i, op, err) ∈ [(Instr.frameIn e j false, 0x15, false), (.frameIn e j true, 0x15, true), (.frameOut e j, 0x16, false)] →
        let refused (c : Nat) : Prop := Does i s (fun t => Completes e.val j x c (leBytes 4 0 ++ leBytes 4 0) (BitVec.ofNat 16 n) noTide s t
          ∧ Gains (uEngine e.val) eFrames 1 s t ∧ t.streams = s.streams)
        (startable s e.val j op = none → exec i s = .next s)
        ∧ (startable s e.val j op = some x → x.lst = none → busy = false →
          (reservedSet x.cmd = true → refused stBad)
          ∧ (reservedSet x.cmd = false → code ≠ stOk → refused code)
          ∧ (∀ st, reservedSet x.cmd = false → getStream s n = some st → code = stOk →
            let pIn := (getEngine s st.inEng).params.period
            let pOut := (getEngine s st.outEng).params.period
            let good : Prop := st.closing = none ∧ st.queue.length < 8 ∧ cmdNat x 0x10 8 % 64 = 0 ∧ outBytes st pOut ≤ cmdNat x 0x1C 4
              ∧ (op = 0x15 → cmdNat x 8 8 % 64 = 0 ∧ cmdNat x 0x18 4 = inBytes st pIn)
            let takes := acceptsOp e.val (getEngine s e.val).state.toNat op
            ((getEngine s st.inEng).state = 4 → refused (getEngine s st.inEng).faultStatus.toNat)
            ∧ (namesFaulted s st = false → takes = false ∨ ¬good → refused stRange)
            ∧ (namesFaulted s st = false → takes = true → good → err = true → refused stBad)
            ∧ (namesFaulted s st = false → takes = true → good → err = false → Does i s (fun t =>
                (getEngine t e.val).jobs = (getEngine s e.val).jobs.eraseIdx j ∧ t = { s with engines := t.engines, streams := t.streams }
                  ∧ ∃ f : Frame, getStream t n = some { st with queue := st.queue ++ [f] } ∧ f.ticket = x.ticket ∧ f.outAddr.toNat = cmdNat x 0x10 8
                    ∧ f.outCap = cmdNat x 0x1C 4
                    ∧ f.input = if op = 0x15 then some (readBytes s.hmem (cmdNat x 8 8) (cmdNat x 0x18 4)) else none)))))
      ∧ (Given s e.val j 0x17 x →
          ((getEngine s e.val).params.ckptValid = false → Does (.checkpoint e j) s (Completes e.val j x stRange [] 0xFFFF noTide s))
          ∧ ((getEngine s e.val).params.ckptValid = true → Does (.checkpoint e j) s (fun t => (getEngine t e.val).ckptAsked = true
              ∧ t = { s with engines := t.engines } ∧ ∃ y, Stands e.val j y t ∧ y.started = true ∧ y.ticket = x.ticket)))
      ∧ (∀ (tide : Word) (rest : List Ctl),
          let g := getEngine s e.val
          let now : Prop := g.tide.num = tide ∧ g.tide.guard = false ∧ g.tide.active = true
          (∀ (r : Nat) (rows : BitVec 32), s.ctl = .ttaintRows e.val r tide rows :: rest →
            (¬now → Does (.ttaintReceive e) s (fun t => Counted (uEngine e.val) eTtaintLate 1 s t ∧ t = { s with ctl := rest, cnt := t.cnt }))
            ∧ (now → Does (.ttaintReceive e) s (fun t => tget 0 (getEngine t e.val).tide.taintRows r = (tget 0 g.tide.taintRows r ||| rows)
                ∧ t = { s with ctl := rest, engines := t.engines })))
          ∧ (∀ (m : Nat) (st : Nat) (y : Stream), s.ctl = .ttaintStream e.val m tide st 1 :: rest → getStream s st = some y → now →
            (y.policy = 0 → Does (.ttaintReceive e) s (fun t => getStream t st = some { y with tainted := true }))
            ∧ (y.policy ≠ 0 → Does (.ttaintReceive e) s (fun t => getStream t st = some { y with late := true, frame := none }
                ∧ (y.policy = 2 → (getEngine t y.engine.val).tide.halt = true)))))
      ∧ (∀ (fn : Fin 32) (v : BitVec 32),
          let m := v.toNat % 4096
          let pol : BitVec 2 := v.extractLsb' 12 2
          (barOpen s fn.val = false → exec (.strIntPolSet fn v) s = .next s)
          ∧ (barOpen s fn.val = true → Does (.strIntPolSet fn v) s (fun t => (getFn t fn.val).polStream = v.setWidth 12
              ∧ t = { s with fns := t.fns, streams := t.streams }
              ∧ (∀ y, getStream s m = some y →
                  let st := (getEngine s y.engine.val).state
                  (v.getLsbD 14 = true → pol ≠ 3 → y.fn = fn.val → st ≠ 4 → st ≠ 5 → getStream t m = some { y with pendPolicy := some pol })
                  ∧ (v.getLsbD 14 = false ∨ pol = 3 ∨ y.fn ≠ fn.val ∨ st = 4 ∨ st = 5 → t.streams = s.streams)))))

/-- Each sends its request, OP raised by 0x40, with the engine, its bridge and its owner, and waits; a limit, action, count, module
or object out of range completes RANGE, a foreign region NOT_OWNER and a lost home SYNC_LOST, with nothing sent. An ACTION runs
under its own row alone. The answer completes the command that awaits the object with its status, FULL sends the request again,
an answer that nothing awaits is discarded, and a wait ends with TIMEOUT at its limit (R374, R375, R142, R149). -/
def Obligations.EnginesSignalAndWait : Prop :=
  ∀ (s : State) (e : Fin 8) (j : Nat) (x : Job), clocksRun s = true →
    let obj := cmdNat x 4 4
    let o : BitVec 17 := BitVec.ofNat 17 obj
    let code := engSyncCode s (jobFn x) obj
    let sent (op : BitVec 8) (operand : Word) (base : List Ctl) (t : State) : Prop :=
      t.ctl = base ++ [.syncReq (homeOf s o) op o operand (BitVec.ofNat 18 (engineBridge s e.val)) (BitVec.ofNat 4 (ownModule s))
        (BitVec.ofNat 3 e.val) (getEngine s e.val).owner]
      ∧ ∃ y, Stands e.val j y t ∧ y.ticket = x.ticket ∧ y.prog = .sync o (nowUs s)
    let busy : Bool := (getFn s x.ticket.fn).resetBusy && (getFn s x.ticket.fn).flr
    (Given s e.val j 0x18 x →
        let ok : Prop := 1 ≤ cmdNat x 8 4 ∧ cmdNat x 8 4 ≤ 10000000
        (¬ok → Does (.syncWait e j) s (Completes e.val j x stRange [] 0xFFFF noTide s))
        ∧ (ok → code ≠ stOk → Does (.syncWait e j) s (fun t => Completes e.val j x code [] 0xFFFF noTide s t ∧ t.ctl = s.ctl))
        ∧ (ok → code = stOk → Does (.syncWait e j) s (fun t => sent 0x47 0 s.ctl t ∧ t = { s with ctl := t.ctl, engines := t.engines })))
      ∧ (∀ (i : Instr) (action : Nat) (op : BitVec 8),
          (i, action, op) ∈ [(Instr.syncSignalSet e j, 0, 0x45#8), (.syncSignalClear e j, 1, 0x46#8), (.syncSignalRelease e j, 2, 0x43#8)] →
          let units : Bool := decide (action = 2) && (decide (cmdNat x 0x0C 4 = 0) || decide (65535 < cmdNat x 0x0C 4))
          let operand : Word := if action = 2 then BitVec.ofNat 32 (cmdNat x 0x0C 4) else 0
          (startable s e.val j 0x19 = none → exec i s = .next s)
          ∧ (startable s e.val j 0x19 = some x → cmdNat x 8 1 ≠ action → cmdNat x 8 1 ≤ 2 → exec i s = .next s)
          ∧ (Given s e.val j 0x19 x → 2 < cmdNat x 8 1 ∨ (cmdNat x 8 1 = action ∧ units = true) →
              Does i s (Completes e.val j x stRange [] 0xFFFF noTide s))
          ∧ (Given s e.val j 0x19 x → cmdNat x 8 1 = action → units = false →
              (code ≠ stOk → Does i s (fun t => Completes e.val j x code [] 0xFFFF noTide s t ∧ t.ctl = s.ctl))
              ∧ (code = stOk → Does i s (fun t => sent op operand s.ctl t ∧ t = { s with ctl := t.ctl, engines := t.engines }))))
      ∧ (2 ^ 17 ≤ obj → code = stRange)
      ∧ (∀ since, getJob s e.val j = some x → x.prog = .sync o since → x.lst = none → busy = false →
          (opByte x.cmd ≠ 0x18 → exec (.syncWaitTimeout e j) s = .next s)
          ∧ (opByte x.cmd = 0x18 → Does (.syncWaitTimeout e j) s (Completes e.val j x stTimeout [] 0xFFFF noTide s)))
      ∧ (∀ (q : BitVec 17) (r : BitVec 8) (rest : List Ctl), s.ctl = .engAns e.val q r :: rest →
          ((∀ y ∈ (getEngine s e.val).jobs, ∀ since, y.prog ≠ .sync q since) → Does (.engineSyncAnswer e) s (fun t => t = { s with ctl := rest }))
          ∧ (∀ since, getJob s e.val j = some x → x.prog = .sync q since → (∀ i y, i < j → getJob s e.val i = some y → ∀ since', y.prog ≠ .sync q since') →
            x.lst = none → busy = false →
            (r ≠ 5 → Does (.engineSyncAnswer e) s (fun t => Completes e.val j x (answerStatus r) [] 0xFFFF noTide s t ∧ t.ctl = rest))
            ∧ (r = 5 → opByte x.cmd = 0x18 → code = stOk → Does (.engineSyncAnswer e) s (sent 0x47 0 rest))))

/-- A refused COPY moves no byte. One without a Harbour end moves all its bytes, no other, and counts them; one with a Harbour end
sends a READ or a WRITE of its next bytes, an XACK carries it on, and another status ends it. An unanswered packet is sent again
once, under the same REQ_ID, and a second silence ends the command with TIMEOUT. A WEIGHT_PIN whose table is refused moves no
record; else it enters its pins, orders and asks for each. A block whose check matches stands at ADDR; one that fails is not
written, is fetched again once, and then counts in FAILED. Bytes of an overlapping COPY are open (log 19) (R376, R377, R378,
R379, R402, R405, R296). -/
def Obligations.CopiesPinsAndTheirAnswers : Prop :=
  ∀ (s : State) (e : Fin 13) (j : Nat) (x : Job), clocksRun s = true →
    let n := copySize x
    let src := copySrc x
    let dst := copyDst x
    let codes := copyCodes s x
    let busy : Bool := (getFn s x.ticket.fn).resetBusy && (getFn s x.ticket.fn).flr
    let ask (o : Nat) : Xfer :=
      let a := if (src.at o).kind = 1 then src.at o else dst.at o
      { reqId := 0, haddr := BitVec.ofNat 64 a.word, op := if src.kind = 1 then 3 else 1, count := copyChunk x o / 64, use := 0, ref := o
        data := if src.kind = 1 then [] else copyBytes x o (copyRead s (src.at o) (copyChunk x o)), ticket := some x.ticket }
    (∀ err, Given s e.val j 0x20 x →
        (codes ≠ [] → Does (.copy e j err) s (fun t => Completes e.val j x (pickStatus codes) (leBytes 4 0) 0xFFFF noTide s t
            ∧ t = { s with engines := t.engines, pairs := t.pairs }))
        ∧ (codes = [] → src.kind = 0 → err = true → Does (.copy e j err) s (fun t => Completes e.val j x stBad (leBytes 4 0) 0xFFFF noTide s t
            ∧ t = { s with engines := t.engines, pairs := t.pairs }))
        ∧ (codes = [] → err = false → src.kind ≠ 1 → dst.kind = 0 → Does (.copy e j err) s (fun t =>
            Completes e.val j x stOk (leBytes 4 n) 0xFFFF noTide s t ∧ Gains (uEngine e.val) teBytes n s t
              ∧ (copyOverlaps x = false → readBytes t.hmem dst.word n = copyRead s src n)
              ∧ (∀ a, a < dst.word ∨ dst.word + n ≤ a → mget t.hmem a = mget s.hmem a)
              ∧ t = { s with engines := t.engines, pairs := t.pairs, cnt := t.cnt, hmem := t.hmem }))
        ∧ (codes = [] → err = false → src.kind ≠ 1 → dst.kind = 2 → Does (.copy e j err) s (fun t =>
            let k := carrier s dst.core
            Completes e.val j x stOk (leBytes 4 n) 0xFFFF noTide s t ∧ Gains (uEngine e.val) teBytes n s t
              ∧ (copyOverlaps x = false → readBytes (getCore t k).spad dst.addr n = copyRead s src n)
              ∧ (∀ a, a < dst.addr ∨ dst.addr + n ≤ a → mget (getCore t k).spad a = mget (getCore s k).spad a)
              ∧ getCore t k = { getCore s k with spad := (getCore t k).spad } ∧ (∀ i, i ≠ k → getCore t i = getCore s i)
              ∧ t = { s with engines := t.engines, pairs := t.pairs, cnt := t.cnt, cores := t.cores }))
        ∧ (codes = [] → src.kind = 1 ∨ (dst.kind = 1 ∧ (src.kind = 2 ∨ err = false)) → Does (.copy e j err) s (fun t =>
            Requests e.val (ask 0) s t ∧ (∃ y, Stands e.val j y t ∧ y.ticket = x.ticket ∧ y.prog = .copy 0)
              ∧ t = { s with engines := t.engines, packets := t.packets, serial := t.serial, reqId := t.reqId })))
      ∧ (∀ (p : Packet) (h : XferHead) (d : List Byte) (r : Xfer), Answered e.val p h d r s →
          let left (t : State) : Prop := t.packets = s.packets.filter (fun y => y.serial ≠ p.serial)
            ∧ (getEngine t e.val).xfers = (getEngine s e.val).xfers.filter (fun y => y.reqId ≠ r.reqId)
          (r.use = 1 → h.status.toNat = stOk → Does (.xack e) s (fun t => left t ∧ t = { s with engines := t.engines, packets := t.packets }))
          ∧ (r.use = 0 → r.ticket = some x.ticket → jobAt (getEngine s e.val) x.ticket = some j → getJob s e.val j = some x → x.lst = none → busy = false →
              (h.status.toNat ≠ stOk → Does (.xack e) s (fun t => left t ∧ Completes e.val j x h.status.toNat (leBytes 4 r.ref) 0xFFFF noTide s t))
              ∧ (h.status.toNat = stOk → r.op = 3 → dst.kind = 1 → Does (.xack e) s (fun t =>
                  ∃ y ∈ (getEngine t e.val).xfers, y.op = 1 ∧ y.ref = r.ref ∧ y.count = r.count ∧ y.ticket = some x.ticket
                    ∧ (copyOverlaps x = false → y.data = padTo (64 * r.count) d)))
              ∧ (h.status.toNat = stOk → r.op ≠ 3 → n ≤ r.ref + 64 * r.count → Does (.xack e) s (fun t => left t
                  ∧ Completes e.val j x stOk (leBytes 4 (r.ref + 64 * r.count)) 0xFFFF noTide s t ∧ Gains (uEngine e.val) teBytes (64 * r.count) s t))))
      ∧ (∀ (r : Xfer) (rest : List Xfer), (getEngine s e.val).xfers = r :: rest → r.use ≤ 1 →
          (r.resent = false → Does (.xackTimeout e) s (fun t => Gains (uEngine e.val) teResend 1 s t ∧ t.reqId = s.reqId
            ∧ ∃ y ∈ (getEngine t e.val).xfers, y.reqId = r.reqId ∧ y.resent = true ∧ y.haddr = r.haddr ∧ y.data = r.data ∧ y.op = r.op))
          ∧ (r.resent = true → r.use = 0 → r.ticket = some x.ticket → jobAt (getEngine s e.val) x.ticket = some j → getJob s e.val j = some x →
              x.lst = none → busy = false → Does (.xackTimeout e) s (fun t => Gains (uEngine e.val) teTimeout 1 s t
                ∧ Completes e.val j x stTimeout (leBytes 4 r.ref) 0xFFFF noTide s t)))
      ∧ (∀ err, Given s e.val j 0x21 x →
          let b := readBytes s.hmem (cmdNat x 8 8) (cmdNat x 0x10 4)
          let se := cmdNat x 4 1
          let ps := (List.range (field b 0x10 4)).map (pinEntry b x.ticket)
          let bad (i : Nat) : Prop := ∃ p, ps[i]? = some p ∧ pinBad s se b ps i p = true
          (err = true → Does (.weightPin e j err) s (Completes e.val j x (if pinRefused x then stRange else stBad) (pinResult 0 0 none) 0xFFFF noTide s))
          ∧ (err = false → pinCodes s x b ≠ [] →
              Does (.weightPin e j err) s (Completes e.val j x (pickStatus (pinCodes s x b)) (pinResult 0 0 none) 0xFFFF noTide s))
          ∧ (∀ i, err = false → pinCodes s x b = [] → bad i → (∀ i', i' < i → ¬bad i') → Does (.weightPin e j err) s (fun t =>
              Completes e.val j x stRange (pinResult 0 0 (some i)) 0xFFFF noTide s t ∧ t = { s with engines := t.engines, pairs := t.pairs }))
          ∧ (err = false → pinCodes s x b = [] → (∀ i, ¬bad i) →
              ((∃ p ∈ ps, pinMaster s p false = none) → Does (.weightPin e j err) s (Completes e.val j x stHole (pinResult 0 0 none) 0xFFFF noTide s))
              ∧ ((∀ p ∈ ps, pinMaster s p false ≠ none) → Does (.weightPin e j err) s (fun t =>
                  (getEngine t se).pins = (getEngine s se).pins ++ ps ∧ (∃ y, Stands e.val j y t ∧ y.ticket = x.ticket ∧ y.prog = .pin 0 0 none)
                    ∧ t.ctl = s.ctl ++ ps.map (fun p => Ctl.pinOrder (p.core.toNat / 512) se p.core p.tag p.addr)
                    ∧ (getEngine t e.val).xfers.length = (getEngine s e.val).xfers.length + (pinRuns ps).length
                    ∧ t = { s with engines := t.engines, ctl := t.ctl, packets := t.packets, serial := t.serial, reqId := t.reqId }))))
      ∧ (∀ (region : Fin 512) (se : Nat) (core : BitVec 18) (tag : Half) (addr : Nat) (rest : List Ctl),
          s.ctl = .pinOrder region.val se core tag addr :: rest → Does (.pinOrder region) s (fun t =>
            (getEngine t se).pins = (getEngine s se).pins.map (fun p => if p.core = core ∧ p.tag = tag ∧ p.addr = addr then { p with ordered := true } else p)
              ∧ t = { s with ctl := rest, engines := t.engines }))
      ∧ ∀ (c : CoreRef) (p : Packet) (h : BlkHdr) (b : List Byte) (se i : Nat) (q : Pin),
          (atEject s c.key 2).find? (fun p => p.purpose = 2 && !p.poison) = some p → p.payload = .block h b → discards s c.key = false →
          pinFor s ((logicalId s c.key).getD (2 ^ 18)) h.tag = some (se, i, q) →
          (crc32c b = h.check → Does (.pinBlockLand c) s (fun t =>
              (getCore t c.key).spad = writeBytes (getCore s c.key).spad q.addr (padTo 2048 b)
                ∧ (getEngine t se).pins[i]? = some { q with check := h.check, pinned := true, bad := false, fetch := 0, ordered := false, holed := false, job := none }
                ∧ t.packets = s.packets.filter (fun y => y.serial ≠ p.serial)))
          ∧ (crc32c b ≠ h.check → Does (.pinBlockLand c) s (fun t => (∀ k, (getCore t k).spad = (getCore s k).spad)
              ∧ Gains (uRegion c.region.val) rPinFail 1 s t
              ∧ (q.fetch = 2 → q.job = none → (getEngine t se).pins[i]? = some { q with fetch := 3 })
              ∧ (∀ (tk : Ticket) (k te jj : Nat) (m : DWord), q.fetch = 2 → q.job = some (tk, k) → pinJob s tk = some (te, jj) → pinMaster s q true = some m →
                  (getEngine t se).pins[i]? = some { q with fetch := 4 }
                    ∧ ∃ y ∈ (getEngine t te).xfers, y.op = 4 ∧ y.haddr = recordAddr m q.record ∧ y.count = 1 ∧ y.ticket = some tk)
              ∧ (∀ (tk : Ticket) (k te jj : Nat) (y : Job) (a b' : Nat) (f : Option Nat), q.fetch ≠ 2 → q.fetch ≠ 0 → q.job = some (tk, k) → pinJob s tk = some (te, jj) →
                  getJob s te jj = some y → y.prog = .pin a b' f → y.lst = none → 8 ≤ te →
                  (getEngine t se).pins.length + 1 = (getEngine s se).pins.length
                    ∧ (getJob t te jj = some { y with prog := .pin a (b' + 1) (some (min k (f.getD k))) }
                        ∨ ((getEngine t te).jobs.length + 1 = (getEngine s te).jobs.length)))))

/-- An assignment of a region that is bound, held, fenced or retired, or to no function, completes RANGE. One that needs no scrub
gives the region its owner at once and rewrites the owner maps; another starts the scrub under SEED. The scrub zeroes every core
of the region that is not retired, gives the signature of zeros, and on a pass gives the region to the new owner; on a failure
the region is QUARANTINED and has no owner. A release frees it without a scrub. A channel that holds staged blocks, is a target
or is out of use is refused, an unreachable one completes TIMEOUT, and one last held by another function is zeroed first. A
command waits for another of its kind on its target (R36, R37, R38, R39, R40, R123, R291, R292, R359, R381, R382). -/
def Obligations.RegionsAndChannelsChangeOwner : Prop :=
  ∀ (s : State) (j : Nat) (x : Job), clocksRun s = true →
    let n := cmdNat x 4 2
    let fn := cmdNat x 6 1
    let release : Bool := decide (cmdNat x 7 1 = 1)
    let none' := assignResult 0 0 false false
    let maps (t : State) : Prop := ∀ m i, m < 512 → i < 512 →
      (getRegion t m).ownMap.getLsbD i = ((ownerOf t m).isSome && decide (ownerOf t i = ownerOf t m))
    let others (t : State) : Prop := ∀ m, m ≠ n → getRegion t m = { getRegion s m with ownMap := (getRegion t m).ownMap }
    let q := cmdNat x 4 1
    let ch := cmdNat x 5 1
    let k := chanKey q ch
    let c := getChan s k
    (startable s 12 j 0x30 = none → exec (.regionAssign j) s = .next s ∧ exec (.regionRelease j) s = .next s)
      ∧ (startable s 12 j 0x30 = some x → sameTarget s j 0x30 4 2 n = true ∨ release = true → exec (.regionAssign j) s = .next s)
      ∧ (startable s 12 j 0x30 = some x → sameTarget s j 0x30 4 2 n = true ∨ release = false → exec (.regionRelease j) s = .next s)
      ∧ (Given s 12 j 0x30 x → sameTarget s j 0x30 4 2 n = false → release = false →
          (regionRefused s n = true ∨ 32 ≤ fn → Does (.regionAssign j) s (fun t => Completes 12 j x stRange none' 0xFFFF noTide s t
            ∧ t = { s with engines := t.engines, pairs := t.pairs }))
          ∧ (regionRefused s n = false → fn < 32 → needsScrub s n fn = false → Does (.regionAssign j) s (fun t =>
              Completes 12 j x stOk none' 0xFFFF noTide s t ∧ maps t ∧ others t
                ∧ getRegion t n = { getRegion s n with scrubSeed := BitVec.ofNat 32 (cmdNat x 8 4), owner := BitVec.ofNat 5 fn, owned := true,
                                                       last := BitVec.ofNat 5 fn, lastValid := true, clean := false, ownMap := (getRegion t n).ownMap }
                ∧ t = { s with engines := t.engines, pairs := t.pairs, regions := t.regions }))
          ∧ (regionRefused s n = false → fn < 32 → needsScrub s n fn = true → Does (.regionAssign j) s (fun t =>
              (∃ y, Stands 12 j y t ∧ y.ticket = x.ticket ∧ y.cmd = x.cmd ∧ y.prog = .scrub) ∧ (∀ m, m ≠ n → getRegion t m = getRegion s m)
                ∧ getRegion t n = { getRegion s n with scrubSeed := BitVec.ofNat 32 (cmdNat x 8 4), scrubBusy := true }
                ∧ t = { s with engines := t.engines, regions := t.regions })))
      ∧ (Given s 12 j 0x30 x → sameTarget s j 0x30 4 2 n = false → release = true →
          (regionRefused s n = true ∨ (getRegion s n).scrubBusy = true → Does (.regionRelease j) s (fun t =>
            Completes 12 j x stRange none' 0xFFFF noTide s t ∧ t = { s with engines := t.engines, pairs := t.pairs }))
          ∧ (regionRefused s n = false → (getRegion s n).scrubBusy = false → Does (.regionRelease j) s (fun t =>
              Completes 12 j x stOk none' 0xFFFF noTide s t ∧ maps t ∧ others t
                ∧ getRegion t n = { getRegion s n with owned := false, ownMap := (getRegion t n).ownMap }
                ∧ t = { s with engines := t.engines, pairs := t.pairs, regions := t.regions })))
      ∧ (∀ (region : Fin 512) (bad : List (Fin 32 × Fin 17)),
          let m := region.val
          let r := getRegion s m
          let cores := scrubCores s m
          let wrong := (bad.map (fun b => coreKey m b.1.val b.2.val)).filter cores.contains
          (r.scrubBusy = false → exec (.scrubDone region bad) s = .next s)
          ∧ (r.scrubBusy = true → Does (.scrubDone region bad) s (fun t =>
              (∀ key ∈ cores, (getCore t key).spad = [] ∧ (getCore t key).istore = [] ∧ (getCore t key).sreg = [] ∧ (getCore t key).vreg = []
                ∧ (getCore t key).queues = [] ∧ (getCore t key).slots = [] ∧ (getCore t key).tlast = noTide ∧ (getCore t key).psSize = 0
                ∧ (getCore t key).run = .stopped)
              ∧ (∀ key, key ∉ cores → (∀ f, r.ft = some f → key ∉ f.cores) → getCore t key = getCore s key)
              ∧ (getRegion t m).scrubBusy = false ∧ (getRegion t m).scrubDone = true ∧ (getRegion t m).scrubPass = wrong.isEmpty
              ∧ (getRegion t m).scrubCoresOk = BitVec.ofNat 10 (cores.length - wrong.length) ∧ (getRegion t m).sync = []
              ∧ (wrong = [] → (getRegion t m).scrubSig
                  = crc32cSeed r.scrubSeed (cores.flatMap (fun _ => leBytes 4 (crc32cSeed r.scrubSeed (List.replicate 225280 0)).toNat)))
              ∧ (wrong = [] → (getHealth s (uRegion m)).live = 3 → (getHealth t (uRegion m)).live = 0)
              ∧ (wrong ≠ [] → (getHealth t (uRegion m)).live = 3 ∧ (getRegion t m).owned = false)
              ∧ (∀ y i, (getEngine s 12).jobs.findIdx? (fun z => z.prog = .scrub && decide (opByte z.cmd = 0x30) && decide (field z.cmd 4 2 = m)) = some i →
                  getJob s 12 i = some y → y.lst = none → ((getFn s y.ticket.fn).resetBusy && (getFn s y.ticket.fn).flr) = false →
                  Completes 12 i y (if wrong = [] then stOk else stRange)
                    (assignResult (getRegion t m).scrubSig.toNat (getRegion t m).scrubCoresOk.toNat true wrong.isEmpty) 0xFFFF noTide s t
                    ∧ (wrong = [] → (getRegion t m).owned = true ∧ (getRegion t m).owner = BitVec.ofNat 5 (cmdNat y 6 1))))))
      ∧ (∀ i : Instr, i = .hchAssign j ∨ i = .hchRelease j →
          let mine : Bool := decide (i = .hchRelease j)
          (startable s 12 j 0x31 = none → exec i s = .next s)
          ∧ (startable s 12 j 0x31 = some x → release ≠ mine ∨ sameTarget s j 0x31 4 2 (q + 256 * ch) = true → exec i s = .next s)
          ∧ (Given s 12 j 0x31 x → release = mine → sameTarget s j 0x31 4 2 (q + 256 * ch) = false →
              let codes := channelCodes s q ch ++ (if mine = false ∧ 32 ≤ fn then [stRange] else [])
              let only (t : State) : Prop := (∀ i, i ≠ k → getChan t i = getChan s i) ∧ t = { s with engines := t.engines, pairs := t.pairs, hchans := t.hchans }
              (codes ≠ [] → Does i s (fun t => Completes 12 j x (pickStatus codes) (leBytes 1 0) 0xFFFF noTide s t
                ∧ t = { s with engines := t.engines, pairs := t.pairs }))
              ∧ (codes = [] → mine = true → Does i s (fun t => Completes 12 j x stOk (leBytes 1 0) 0xFFFF noTide s t ∧ only t
                  ∧ getChan t k = { c with owned := false }))
              ∧ (codes = [] → mine = false →
                  let zero : Bool := c.lastValid && decide (c.last.toNat ≠ fn)
                  Does i s (fun t => only t ∧ getChan t k = { c with owner := BitVec.ofNat 5 fn, owned := true, last := BitVec.ofNat 5 fn,
                                                                     lastValid := true, zeroing := zero }
                    ∧ (zero = false → Completes 12 j x stOk (leBytes 1 0) 0xFFFF noTide s t)
                    ∧ (zero = true → ∃ y, Stands 12 j y t ∧ y.ticket = x.ticket ∧ y.prog = .scrub)))))

/-- A pass over an engine compares each range that a region can audit: one that differs, or that is BAD, is to be fetched again, and
the others stay. A pass that finds every range good ends at once, is counted, and gives AUDIT its counts. A periodic pass moves
the clock on to its due time and starts nothing while another pass runs. A refetch sends one pin order and one READ_REC of the
record from the master whose turn it is; without a master the entry is BAD. A silence of 200 µs brings the second fetch, or
leaves the entry BAD (R380, R403, R404, R405, R408). -/
def Obligations.AuditsAndRefetches : Prop :=
  ∀ (s : State) (e : Fin 8) (j : Nat) (x : Job), clocksRun s = true →
    let g := getEngine s e.val
    let sum (p : Pin) : Word := crc32c (readBytes (getCore s (carrier s p.core.toNat)).spad p.addr 2048)
    let due (p : Pin) : Prop := audited s p = true ∧ (sum p ≠ p.check ∨ p.bad = true)
    let passed (t : State) : Prop := ∀ (i : Nat) (p : Pin), g.pins[i]? = some p →
      (due p → ∃ p' : Pin, (getEngine t e.val).pins[i]? = some p' ∧ p'.fetch = 1 ∧ p' = { p with fetch := 1, holed := false, fails := p'.fails })
      ∧ (¬due p → (getEngine t e.val).pins[i]? = some p)
    (g.auditRun.isSome = true → exec (.audit e j) s = .next s)
      ∧ (g.auditRun = none → Given s e.val j 0x1A x →
          Does (.audit e j) s passed
          ∧ (g.jobs = [x] → (∀ p ∈ g.pins, p.fetch = 0 ∧ p.bad = false ∧ (audited s p = true → sum p = p.check)) →
              Does (.audit e j) s (fun t =>
                Completes e.val j x stOk (auditResult ((g.pins.filter (audited s)).length, 0, 0)) 0xFFFF noTide s t
                  ∧ (getEngine t e.val).auditRun = none ∧ Gains (uEngine e.val) eAudPasses 1 s t
                  ∧ t.cores = s.cores ∧ t.packets = s.packets ∧ t.hmem = s.hmem)))
      ∧ (g.image = none ∨ g.auditEn = false ∨ g.state.toNat < 2 ∨ 3 < g.state.toNat ∨ g.auditPeriod = 0 → exec (.auditPass e) s = .next s)
      ∧ (g.image ≠ none → g.auditEn = true → 2 ≤ g.state.toNat → g.state.toNat ≤ 3 → g.auditPeriod ≠ 0 →
          let k := (g.auditDone.toNat - g.auditBase.toNat) / (g.auditPeriod.toNat * 24576000) + 1
          Does (.auditPass e) s (fun t => (getEngine t e.val).auditDone = BitVec.ofNat 64 (g.auditBase.toNat + k * g.auditPeriod.toNat * 24576000)
            ∧ (g.auditRun = none → passed t) ∧ (g.auditRun.isSome = true → (getEngine t e.val).pins = g.pins ∧ (getEngine t e.val).auditRun = g.auditRun)))
      ∧ ((∀ p ∈ g.pins, p.fetch ≠ 1 ∧ p.fetch ≠ 3) → exec (.refetch e) s = .next s)
      ∧ (∀ (i : Nat) (p : Pin), g.pins[i]? = some p → (p.fetch = 1 ∨ p.fetch = 3) →
          (∀ i' p', i' < i → g.pins[i']? = some p' → p'.fetch ≠ 1 ∧ p'.fetch ≠ 3) →
          (∀ m, pinMaster s p (decide (p.fetch = 3)) = some m → Does (.refetch e) s (fun t =>
              Requests e.val { reqId := 0, haddr := recordAddr m p.record, op := 4, count := 1, data := [], ret := p.core.setWidth 32, use := 2, ref := p.record } s t
              ∧ t.ctl = s.ctl ++ [.pinOrder (p.core.toNat / 512) e.val p.core p.tag p.addr]
              ∧ (getEngine t e.val).pins[i]? = some { p with fetch := p.fetch + 1, ordered := false, sentUs := nowUs s }
              ∧ t = { s with engines := t.engines, ctl := t.ctl, packets := t.packets, serial := t.serial, reqId := t.reqId }))
          ∧ (pinMaster s p (decide (p.fetch = 3)) = none → mustHave s e.val p = false → Does (.refetch e) s (fun t =>
              (getEngine t e.val).pins[i]? = some { p with fetch := 0, ordered := false, bad := true, holed := true } ∧ t.packets = s.packets))
          ∧ (pinMaster s p (decide (p.fetch = 3)) = none → mustHave s e.val p = true → Does (.refetch e) s (fun t =>
              (getEngine t e.val).state = 4 ∧ (getEngine t e.val).faultStatus = BitVec.ofNat 16 stHole)))
      ∧ (∀ (i : Nat) (p : Pin), g.pins[i]? = some p → p.job = none →
          (∀ i' p', i' < i → g.pins[i']? = some p' → p'.job = none → p'.fetch ≠ 2 ∧ p'.fetch ≠ 4) →
          (p.fetch = 2 → Does (.refetchTimeout e) s (fun t => (getEngine t e.val).pins[i]? = some { p with fetch := 3 }
            ∧ ∀ r ∈ (getEngine t e.val).xfers, ¬(r.use = 2 ∧ r.ret = p.core.setWidth 32 ∧ r.ref = p.record)))
          ∧ (p.fetch = 4 → p.holed = false → Does (.refetchTimeout e) s (fun t =>
              (getEngine t e.val).pins[i]? = some { p with fetch := 0, ordered := false, bad := true })))

/-- A holder takes an update whose epoch is newer: the map view and the epoch of the unit become its values, an exclusion stops a
core and brings a bridge down, and a lowered state opens the self-check, in which the unit stays FENCED. An update with another
epoch changes no state, is logged, and for the units of a region counted; one that lowers RETIRED is rejected. Lighthouse
records a report, fences the unit in the map with the next epoch, and retires it at the third disagreement within 24 h. A self-
check that passes sets the live view IN_SERVICE and resets a core; one that fails leaves it FENCED with a disagreement. No order
waits in these clauses (R412, R414, R415, R416, R417, R418, R419, R420, R488). -/
def Obligations.HealthUpdatesReportsAndSelfChecks : Prop :=
  ∀ (s : State) (unit : BitVec 32) (rest : List Ctl), s.lh.orders = [] →
    let u := unit.toNat
    let h := getHealth s u
    (∀ i : Instr, (i = .hmUpdate unit ∧ unitClass u ≤ 6) ∨ (i = .hbHm unit ∧ 7 ≤ unitClass u) →
        ((∀ v e, Ctl.hmUpdate u v e ∉ s.ctl) → exec i s = .next s)
        ∧ (∀ (v : BitVec 3) (e : Word), s.ctl = .hmUpdate u v e :: rest →
            let d := (e - epochOf s u).toNat
            (d = 0 ∨ 2 ^ 31 ≤ d → Does i s (fun t => t = { s with ctl := rest, logq := t.logq, cnt := t.cnt }
              ∧ (unitClass u ≤ 3 → Gains (uRegion (u % 512)) rHmStale 1 s t) ∧ (3 < unitClass u → t.cnt = s.cnt)))
            ∧ (0 < d → d < 2 ^ 31 → h.map = 4 → v ≠ 4 → Does i s (fun t => t = { s with ctl := rest, logq := t.logq }))
            ∧ (0 < d → d < 2 ^ 31 → h.map ≠ 4 ∨ v = 4 → Does i s (fun t =>
                (getHealth t u).map = v ∧ (getHealth t u).epoch = e ∧ v.toNat ≤ eff t u
                  ∧ (2 ≤ h.map.toNat → v.toNat < 2 → (getHealth t u).checking = true ∧ 2 ≤ eff t u)
                  ∧ (2 ≤ v.toNat → eff s u < 2 → unitClass u = 0 → (getCore t (unitBits u)).run = .stopped ∧ (getCore t (unitBits u)).syncOps = [])
                  ∧ (2 ≤ v.toNat → eff s u < 2 → unitClass u = 4 → (getBridge t (unitBits u)).shiState = 5)
                  ∧ (v = 1 → h.map = 0 → unitClass u = 0 → s.up.dueNow.all (fun x => decide (x.1 ≠ u)) = true →
                      t.up.dueNow = s.up.dueNow ++ [(u, s.tid)])))))
      ∧ (6 < unitClass u → exec (.hmUpdate unit) s = .next s ∧ exec (.liveReport unit) s = .next s)
      ∧ (unitClass u ≤ 6 → exec (.hbHm unit) s = .next s ∧ exec (.hbState unit) s = .next s)
      ∧ (∀ i : Instr, (i = .liveReport unit ∧ unitClass u ≤ 6) ∨ (i = .hbState unit ∧ 7 ≤ unitClass u) →
          (lhRuns s = false → exec i s = .next s)
          ∧ (∀ (v : BitVec 3) (e : Word), lhRuns s = true → s.ctl = .live u v e :: rest →
              let m := (getUnit s u).map
              let sets (w : BitVec 3) (t : State) : Prop := (getUnit t u).map = w ∧ (getUnit t u).live = v ∧ (getUnit t u).epoch = s.lh.epoch + 1
                ∧ t.lh.epoch = s.lh.epoch + 1 ∧ t.ctl = rest ++ [.hmUpdate u w (s.lh.epoch + 1)] ∧ (getFn t 0).event.getLsbD 7 = true
              (v ≠ 2 ∨ m = 4 ∨ (disagreements s u < 3 ∧ 2 ≤ m.toNat) → Does i s (fun t => getUnit t u = { getUnit s u with live := v }
                ∧ t = { s with ctl := rest, lh := { s.lh with map := t.lh.map } }))
              ∧ (v = 2 → m ≠ 4 → 3 ≤ disagreements s u → Does i s (sets 4))
              ∧ (v = 2 → m.toNat < 2 → disagreements s u < 3 → Does i s (sets 2))))
      ∧ (∀ pass, h.checking = false ∨ awaitsPower s u = true → exec (.selfCheck unit pass) s = .next s)
      ∧ (h.checking = true → awaitsPower s u = false → checkHolds s u = true → Does (.selfCheck unit true) s (fun t =>
          (getHealth t u).checking = false ∧ (getHealth t u).live = 0 ∧ (getHealth t u).map = h.map ∧ (getHealth t u).releasedAt = some (nowUs s)
            ∧ eff t u = h.map.toNat ∧ (unitClass u = 0 → getCore t (unitBits u) = coreReset (getCore s (unitBits u)))))
      ∧ (∀ pass, h.checking = true → awaitsPower s u = false → pass = false ∨ checkHolds s u = false → Does (.selfCheck unit pass) s (fun t =>
          (getHealth t u).checking = false ∧ (getHealth t u).live = 2 ∧ 2 ≤ eff t u ∧ disagreements t u = disagreements s u + 1
            ∧ (unitClass u ≤ 3 → Gains (uRegion (u % 512)) rHmDisagree 1 s t)
            ∧ t = { s with health := t.health, ctl := t.ctl, logq := t.logq, cnt := t.cnt }))

/-- A load waits for another one. A misaligned address completes RANGE; a read error or a finding completes with its status, CAUSE
and OFFSET, counts the refusal and touches no region. Else the engine is LOADING, the stage and reserve regions are held for it,
the cores of the stage are stopped with an empty instruction store, and every program flit is on its way to every stage region.
A flit's words go into each core that names the program, and into no other. A region that confirms joins the confirmed ones; the
last one binds the image. One whose check differs, or that is silent for 1 ms, gets its records and programs once more, counted;
the second time the load is refused with TIMEOUT and CAUSE 15 (R168, R169, R170, R171, R174, R177, R178, R179, R180, R363). -/
def Obligations.ImagesLoadConfirmAndBind : Prop :=
  ∀ (s : State) (region : Fin 512), clocksRun s = true →
    let n := region.val
    (∀ (e : Fin 8) (j : Nat) (x : Job) (err : Bool),
        let a := cmdNat x 8 8
        let len := cmdNat x 0x10 4
        let rd := imageReader s a
        let found := verdictOf (imageFindings s (jobFn x) (getEngine s e.val).params.deadline.toNat rd len
          (decide ((imageSum s a len).toNat = rd (len - 4) 4)))
        let refused (st cause off : Nat) : Prop := Does (.imageLoad e j err) s (fun t =>
          Completes e.val j x st (loadResult cause off 0) 0xFFFF noTide s t ∧ Gains (uEngine 12) ceRefused 1 s t
            ∧ t = { s with engines := t.engines, pairs := t.pairs, cnt := t.cnt, logq := t.logq })
        (s.load.isSome = true → exec (.imageLoad e j err) s = .next s)
        ∧ (s.load = none → Given s e.val j 0x10 x →
            (a % 64 ≠ 0 → Does (.imageLoad e j err) s (Completes e.val j x stRange (loadResult 0 0xFFFFFFFF 0) 0xFFFF noTide s))
            ∧ (a % 64 = 0 → err = true → refused stBad 16 0xFFFFFFFF)
            ∧ (∀ st cause off, a % 64 = 0 → err = false → found = some (st, cause, off) → refused st cause off)
            ∧ (a % 64 = 0 → err = false → found = none → Does (.imageLoad e j err) s (fun t =>
                let im := resolveImage s a len
                (∃ l, t.load = some l ∧ l.image = im ∧ l.eng = e.val ∧ l.ticket = x.ticket ∧ l.confirmed = [] ∧ l.resent = [])
                  ∧ (getEngine t e.val).state = 1
                  ∧ (∀ m ∈ im.stage ++ im.reserve, (getRegion t m).held = true ∧ (getRegion t m).heldBy = some e)
                  ∧ (∀ m ∈ im.stage, ∀ k ∈ regionCores m, (getCore t k).run = .stopped ∧ (getCore t k).istore = [])
                  ∧ t.ctl = s.ctl ++ im.stage.flatMap (fun m => (imageFlits im).map (fun f =>
                      Ctl.program m (some (freeGroup s)) f.2.1 f.2.2 f.1))))))
      ∧ (∀ (l : Load) (group : Option Nat) (first prog : Nat) (ws : List Word) (rest : List Ctl), s.load = some l →
          s.ctl = .program n group first ws prog :: rest → Does (.programFlit region) s (fun t =>
            let mine := (regionIds l.image n).filter (fun id => (coreRecOf l.image id).any (fun r => decide (r.prog = prog)))
            (∀ id ∈ mine, ∀ i (_ : i < ws.length), tget 0 (getCore t (carrier s id)).istore (first + i) = ws[i])
              ∧ (∀ id ∈ mine, ∀ w, w < first ∨ first + ws.length ≤ w →
                  tget 0 (getCore t (carrier s id)).istore w = tget 0 (getCore s (carrier s id)).istore w)
              ∧ (∀ k, (∀ id ∈ mine, carrier s id ≠ k) → getCore t k = getCore s k)
              ∧ (getRegion t n).programCheck = crcRun (getRegion s n).programCheck (flitBytes prog first ws)
              ∧ t = { s with ctl := rest, cores := t.cores, regions := t.regions }))
      ∧ (s.load = none → exec (.regionConfirm region false) s = .next s ∧ exec (.confirmTimeout region) s = .next s)
      ∧ ∀ l, s.load = some l →
          let r := getRegion s n
          let good : Prop := l.expect.contains (n, r.recordCheck, r.programCheck) = true
          let again (t : State) : Prop := Gains (uEngine 12) ceResends 1 s t
            ∧ (∃ u, t.load = some { l with resent := l.resent ++ [n], sentUs := u })
            ∧ t.ctl = s.ctl.filter (fun c => match c with
                | .program m _ _ _ _ => decide (m ≠ n)
                | _ => true) ++ (imageFlits l.image).map (fun f => Ctl.program n none f.2.1 f.2.2 f.1)
          let failed (t : State) : Prop := t.load = none ∧ (getEngine t l.eng).state = 0
            ∧ (∀ m ∈ l.image.stage ++ l.image.reserve, (getRegion t m).held = false)
            ∧ ∀ i y, jobAt (getEngine s l.eng) l.ticket = some i → getJob s l.eng i = some y → y.lst = none →
                ((getFn s y.ticket.fn).resetBusy && (getFn s y.ticket.fn).flr) = false →
                Gains (uEngine 12) ceRefused 1 s t ∧ ∃ us, Completes l.eng i y stTimeout (loadResult 15 0xFFFFFFFF us) 0xFFFF noTide s t
          (∀ d, waitsFor l n = false ∨ flitsLeft s n = true ∨ regionOffline s n = true → exec (.regionConfirm region d) s = .next s)
          ∧ (waitsFor l n = true → flitsLeft s n = false → regionOffline s n = false →
              (∀ d, d = true ∨ ¬good → n ∉ l.resent → Does (.regionConfirm region d) s again)
              ∧ (∀ d, d = true ∨ ¬good → n ∈ l.resent → Does (.regionConfirm region d) s failed)
              ∧ (good → (∃ m ∈ l.image.stage, m ≠ n ∧ m ∉ l.confirmed) → Does (.regionConfirm region false) s (fun t =>
                  t = { s with load := some { l with confirmed := l.confirmed ++ [n] } }))
              ∧ (good → (∀ m ∈ l.image.stage, m = n ∨ m ∈ l.confirmed) → l.image.chans = [] → (∀ k, k ≠ l.eng → (getEngine s k).image = none) →
                  Does (.regionConfirm region false) s (fun t => t.load = none ∧ (getEngine t l.eng).state = 2 ∧ (getEngine t l.eng).image = some l.image
                    ∧ (∀ m ∈ l.image.stage, (getRegion t m).engine = some (Fin.ofNat 8 l.eng) ∧ (getRegion t m).held = false)
                    ∧ (∀ id ∈ imageCores l.image, (getCore t (carrier s id)).tlast = noTide)
                    ∧ Gains (uEngine 12) ceLoads 1 s t
                    ∧ ∀ i y, jobAt (getEngine s l.eng) l.ticket = some i → getJob s l.eng i = some y → y.lst = none →
                        ((getFn s y.ticket.fn).resetBusy && (getFn s y.ticket.fn).flr) = false →
                        Completes l.eng i y stOk (loadResult 0 0xFFFFFFFF (nowUs s - l.startUs)) 0xFFFF noTide s t)))
          ∧ (waitsFor l n = false → exec (.confirmTimeout region) s = .next s)
          ∧ (waitsFor l n = true → n ∉ l.resent → Does (.confirmTimeout region) s again)
          ∧ (waitsFor l n = true → n ∈ l.resent → Does (.confirmTimeout region) s failed)

/-- A row with one excluded core that its point does not name slides to that core's column: at once and without a copy in an unbound
region, in the guard in a bound one. Each moved column keeps its instruction store, partition, slots, TLAST and its resident,
persistent and mirror bytes at its new carrier. A row with two excluded cores of an unbound region takes that region FENCED. A
row without an excluded core, and without a test that needs its point, returns to POINT 16. Rebuilding a lost column loads its
program from the retained image and asks for its pins again. Other rows and regions keep their points. No bank of these slides
is damaged (R20, R421, R422, R423, R424, R425, R426, R427). -/
def Obligations.RowsSlideReturnAndRebuild : Prop :=
  ∀ (s : State) (region : Fin 512) (row : Fin 32), clocksRun s = true →
    let n := region.val
    let f := pointOf s n row.val
    let bound : Bool := (getRegion s n).engine.isSome
    let lost := (excludedIn s n row.val).length
    let kept (g : Nat) (t : State) : Prop := ∀ l ∈ movingCols f g,
      let key := coreKey n row.val (carrierCol f l)
      let src := getCore s key
      let dst := getCore t (coreKey n row.val (carrierCol g l))
      excluded s key = false → dst.istore = src.istore ∧ dst.part = src.part ∧ dst.slots = src.slots ∧ dst.tlast = src.tlast
        ∧ dst.psBase = src.psBase ∧ dst.psSize = src.psSize ∧ dst.sel = src.sel ∧ dst.run = .stopped ∧ dst.queues = []
        ∧ (Memory.wf src.spad = true → ∀ a, bankKind src (a / 0x4000) ≠ 0 → mget dst.spad a = mget src.spad a)
    let slid (g : Nat) (t : State) : Prop := slideOf t n row.val = { point := BitVec.ofNat 5 g, temp := false }
      ∧ (∀ r, r ≠ row.val → slideOf t n r = slideOf s n r) ∧ (∀ m, m ≠ n → getRegion t m = getRegion s m)
      ∧ (bound = true → kept g t)
      ∧ (bound = false → (∀ k, getCore t k = { getCore s k with underTest := (getCore t k).underTest, testMode := (getCore t k).testMode }))
    (2 ≤ lost →
        (bound = true ∨ regionOffline s n = true → exec (.rowSlide region row []) s = .next s)
        ∧ (bound = false → regionOffline s n = false → Does (.rowSlide region row []) s (fun t => 2 ≤ eff t (uRegion n))))
      ∧ (lost = 0 ∨ (∃ k, excludedIn s n row.val = [k] ∧ keyCol k = f) → exec (.rowSlide region row []) s = .next s)
      ∧ (∀ k, excludedIn s n row.val = [k] → keyCol k ≠ f →
          (maySlide s n = false ∨ (f = 16 ∧ keyCol k = 16) → exec (.rowSlide region row []) s = .next s)
          ∧ (maySlide s n = true → Does (.rowSlide region row []) s (fun t => slid (keyCol k) t
              ∧ (bound = false → Gains (uRegion n) rSlides 1 s t))))
      ∧ (slidesBack s n row.val = false → exec (.slideBack region row []) s = .next s)
      ∧ (slidesBack s n row.val = true → Does (.slideBack region row []) s (fun t => slid 16 t
          ∧ (bound = false → Gains (uRegion n) rSlideBacks 1 s t)))
      ∧ (bound = false ∨ (getRegion s n).rebuilding.getLsbD row.val = false ∨ (getRegion s n).rebuilt.getLsbD row.val = true →
          ∀ bad, exec (.rowRebuild region row bad) s = .next s)
      ∧ ∀ (e : Fin 8) (im : Image) (bad : BitVec 3), (getRegion s n).engine = some e → (getEngine s e.val).image = some im →
          (getRegion s n).rebuilding.getLsbD row.val = true → (getRegion s n).rebuilt.getLsbD row.val = false →
          Does (.rowRebuild region row bad) s (fun t =>
            ((getRegion t n).rebuilt.getLsbD row.val = true ∨ (getRegion t n).rebuilding.getLsbD row.val = false)
              ∧ ∀ key ∈ rowCores n row.val, (getCore s key).rebuildDue = true → ∀ id, logicalId s key = some id →
                  (getCore t key).istore = imageProgram im id ∧ (getCore t key).rebuildDue = false ∧ (getCore t key).cleanNext = true
                    ∧ ∀ (i : Nat) (p : Pin), (getEngine s e.val).pins[i]? = some p → p.core.toNat = id →
                        ∃ p' : Pin, (getEngine t e.val).pins[i]? = some p' ∧ p'.fetch = 1 ∧ p'.pinned = false)

/-- Each RELOCATION carries the engine's relocation through one phase. The first takes the nearest usable reserve, and without one
the engine faults with REMAP_EXHAUSTED. Then the reserve's cores are cleared, written from the retained image where CHECK
stands, and RGN_RELOC redirects the lost region and every entry that named it, so that none chains. The state of each live core
is moved and the others are restored; every pin of the reserve is fetched again, and then the reserve becomes a stage region and
the lost region is unbound. An attempt fails when the reserve is lost, the confirmation fails or 12 ms have passed; it is
counted, and the next one begins (R150, R180, R300, R429, R430, R431, R432, R434, R438). -/
def Obligations.RelocationsMoveAStage : Prop :=
  ∀ (s : State) (e : Fin 8) (confirmed : Bool) (bad : List (BitVec 18 × Fin 3)), clocksRun s = true →
    let g := getEngine s e.val
    let i := Instr.relocation e confirmed bad
    let fails (r : Reloc) (t : State) : Prop := Gains (uEngine e.val) eRelocFail 1 s t
      ∧ (getEngine t e.val).triedReserves = g.triedReserves ++ [r.reserve]
      ∧ ∃ u, (getEngine t e.val).reloc = some { lost := r.lost, reserve := 512, startUs := u, phase := 0 }
    let faulted (t : State) : Prop := (getEngine t e.val).state = 4 ∧ (getEngine t e.val).faultStatus = BitVec.ofNat 16 stRemap
      ∧ (getEngine t e.val).reloc = none
    let at' (k : Nat) (r : Reloc) (t : State) : Prop := (getEngine t e.val).reloc = some { r with phase := k }
    (g.reloc = none ∨ g.image = none → exec i s = .next s)
      ∧ (g.reloc = none → exec (.relocTimeout e) s = .next s)
      ∧ (∀ r, g.reloc = some r → r.phase = 0 → exec (.relocTimeout e) s = .next s)
      ∧ (∀ r, g.reloc = some r → r.phase ≠ 0 → Does (.relocTimeout e) s (fails r))
      ∧ ∀ (r : Reloc) (im : Image), g.reloc = some r → g.image = some im →
          let moved := movedImage s im r.lost r.reserve
          (r.phase = 0 → chooseReserve s e.val r.lost = none → Does i s faulted)
          ∧ (∀ n, r.phase = 0 → chooseReserve s e.val r.lost = some n →
              n ∈ im.reserve ∧ reserveUsable s n = true ∧ n ∉ g.triedReserves
                ∧ (∀ m ∈ im.reserve, reserveUsable s m = true → m ∉ g.triedReserves → gridDistance r.lost n ≤ gridDistance r.lost m)
                ∧ Does i s (fun t => (getEngine t e.val).reloc = some { r with reserve := n, phase := 1 } ∧ t.packets = s.packets))
          ∧ (r.phase ≠ 0 → reserveUsable s r.reserve = false → Does i s (fails r))
          ∧ (r.phase ≠ 0 → reserveUsable s r.reserve = true →
              (r.phase = 1 → Does i s (fun t => at' 2 r t ∧ ∀ k ∈ regionCores r.reserve, getCore t k = clearCore (getCore s k)))
              ∧ (r.phase = 2 → imageKept s im = false → Does i s faulted)
              ∧ (r.phase = 2 → imageKept s im = true → confirmed = false → Does i s (fails r))
              ∧ (r.phase = 2 → imageKept s im = true → confirmed = true → Does i s (fun t => at' 3 r t
                  ∧ ∀ id ∈ regionIds moved r.reserve, ∃ id' ∈ regionIds moved r.reserve, carrier s id' = carrier s id ∧ (getCore t (carrier s id)).istore = imageProgram moved id'))
              ∧ (r.phase = 3 → Does i s (fun t => at' 4 r t ∧ tget none t.reloc r.lost = some r.reserve
                  ∧ (∀ m o, m ≠ r.lost → tget none s.reloc m = some o → o = r.lost ∨ o ∈ g.triedReserves → tget none t.reloc m = some r.reserve)
                  ∧ (∀ m o, m ≠ r.lost → tget none s.reloc m = some o → o ≠ r.lost → o ∉ g.triedReserves → tget none t.reloc m = some o)
                  ∧ (∀ m, m ≠ r.lost → tget none s.reloc m = none → tget none t.reloc m = none)
                  ∧ (∀ q, q < 4 → tget none (getHarbour t q).rgnEng r.reserve = some e)
                  ∧ (r.lost ≠ r.reserve → ∀ q, q < 4 → tget none (getHarbour t q).rgnEng r.lost = none)))
              ∧ (r.phase = 4 → Does i s (fun t =>
                  let gone := (regionIds im r.lost).filter (fun id => regionOffline s r.lost || excluded s (carrier s id))
                  at' 5 { r with restored := r.restored ++ gone } t))
              ∧ (r.phase = 5 → Does i s (fun t => at' 6 r t ∧ (getEngine t e.val).pins = g.pins.map (fun p =>
                  if p.core.toNat / 512 = r.reserve then { p with pinned := false, fetch := 1, holed := false } else p)
                  ∧ t = { s with engines := t.engines }))
              ∧ (r.phase = 6 → (∃ p ∈ g.pins, p.fetch ≠ 0 ∧ p.core.toNat / 512 = r.reserve) → exec i s = .next s)
              ∧ (r.phase = 6 → (∀ p ∈ g.pins, p.fetch ≠ 0 → p.core.toNat / 512 ≠ r.reserve) → r.lost ≠ r.reserve → Does i s (fun t =>
                  (getEngine t e.val).image = some moved ∧ (getEngine t e.val).reloc = none ∧ (getEngine t e.val).triedReserves = []
                    ∧ (getRegion t r.reserve).engine = some e ∧ (getRegion t r.reserve).joinedAt = s.cclk + 8192 ∧ (getRegion t r.lost).engine = none
                    ∧ Gains (uEngine e.val) eRelocDone 1 s t)))

/-- A due core of an unbound region is tested at its due time; in a bound, unslid row its row slides to it in a guard, or the spare
is tested while the row runs; a granted row's window set is tested together. The cores under test stop and lose their mirror. A
pass is counted and makes the core due again, a fail that the scan overrules counts as both, and another one fences the core. A
test slide without a verdict in time is abandoned and its row returns. A row overdue by 48 h is starved and reported, a grant
takes one starved row and any other is counted, a region overdue by 72 h is SUSPECT, and INTERVAL takes 60 to 1,440 alone (R459,
R460, R461, R462, R463, R464, R465, R466, R467, R468). -/
def Obligations.FieldTestsRunAndAreJudged : Prop :=
  ∀ (s : State) (region : Fin 512), clocksRun s = true → s.phase < 50 →
    let n := region.val
    let r := getRegion s n
    let tide := (r.engine.map (fun e => (getEngine s e.val).tide.num)).getD noTide
    (r.ft = none →
        (r.engine = none → mayTest s n = false → exec (.ftDue region) s = .next s)
        ∧ (∀ k, r.engine = none → mayTest s n = true → earliest s n 0 = some k → dueTime s k < 2 ^ 64 →
            Does (.ftDue region) s (fun t => TestRuns n 0 [k] noTide t ∧ dueTime s k ≤ t.tid.toNat ∧ ∀ i, i ≠ k → getCore t i = getCore s i))
        ∧ (r.engine ≠ none → grantedRow s n = none → exec (.ftDue region) s = .next s)
        ∧ (∀ row, r.engine ≠ none → grantedRow s n = some row →
            (mayTest s n = false ∨ maySlide s n = false → exec (.ftDue region) s = .next s)
            ∧ (mayTest s n = true → maySlide s n = true → Does (.ftDue region) s (fun t => TestRuns n 3 (windowSet s n row) tide t
                ∧ Gains (uRegion n) rFtDropwin 1 s t ∧ t.lh.starved = (starvedRows s).map (fun x => if x = (n, row, true) then (n, row, false) else x)
                ∧ (∀ i, i ∉ windowSet s n row → getCore t i = getCore s i)))))
      ∧ (dueCore s n 1 = none ∨ r.engine = none ∨ maySlide s n = false → exec (.testSlide region []) s = .next s)
      ∧ (∀ k, dueCore s n 1 = some k → r.engine ≠ none → maySlide s n = true → Does (.testSlide region []) s (fun t =>
          TestRuns n 1 [k] tide t ∧ slideOf t n (keyRow k) = { point := BitVec.ofNat 5 (keyCol k), temp := true }))
      ∧ (dueCore s n 2 = none ∨ r.engine = none → exec (.spareTest region) s = .next s)
      ∧ (∀ k (e : Fin 8), dueCore s n 2 = some k → r.engine = some e →
          let g := getEngine s e.val
          let starts : Prop := g.tide.active = true ∧ g.tide.guard = false ∧ dueTime s k ≤ g.tide.start.toNat
          (¬starts → exec (.spareTest region) s = .next s)
          ∧ (starts → Does (.spareTest region) s (fun t => TestRuns n 2 [k] tide t ∧ t = { s with cores := t.cores, regions := t.regions }
              ∧ ∀ i, i ≠ k → getCore t i = getCore s i)))
      ∧ (∀ (c : CoreRef) (fail : Option (Fin 8 × Fin 2 × Bool)), c.region = region →
          let k := c.key
          (r.ft = none → exec (.ftVerdict c fail) s = .next s)
          ∧ (∀ f, r.ft = some f → f.cores.contains k = false ∨ f.verdicts.any (fun v => v.1 = k) = true ∨ testExpired s n f = true →
              exec (.ftVerdict c fail) s = .next s)
          ∧ (∀ f, r.ft = some f → f.cores.contains k = true → f.verdicts.any (fun v => v.1 = k) = false → testExpired s n f = false →
              (f.kind = 0 ∨ f.kind = 2) →
              (fail = none → Does (.ftVerdict c fail) s (fun t => (getRegion t n).ft = none ∧ (getCore t k).underTest = false
                ∧ Gains (uRegion n) rFtPass 1 s t ∧ tget none t.up.lastPass k = some t.tid ∧ (∀ x ∈ t.up.dueNow, x.1 ≠ k)
                ∧ (lhRuns s = true → (getUnit s (uCore k)).map = 1 → (getUnit t (uCore k)).map = 0)))
              ∧ (∀ sect seed, fail = some (sect, seed, true) → Does (.ftVerdict c fail) s (fun t => (getRegion t n).ft = none
                ∧ Gains (uRegion n) rFtPass 1 s t ∧ Gains (uRegion n) rFtOverruled 1 s t ∧ tget none t.up.lastPass k = some s.tid))
              ∧ (∀ sect seed, fail = some (sect, seed, false) → Does (.ftVerdict c fail) s (fun t => (getRegion t n).ft = none
                ∧ Gains (uRegion n) rFtFail 1 s t ∧ 2 ≤ eff t (uCore k) ∧ (getCore t k).run = .stopped ∧ t.up = s.up))))
      ∧ (r.ft = none → ∀ bad, exec (.ftAbandon region bad) s = .next s)
      ∧ (∀ f bad, r.ft = some f → testExpired s n f = false ∨ maySlide s n = false → exec (.ftAbandon region bad) s = .next s)
      ∧ (∀ f k, r.ft = some f → f.cores = [k] → testExpired s n f = true → maySlide s n = true → Does (.ftAbandon region []) s (fun t =>
          (getRegion t n).ft = none ∧ (getCore t k).underTest = false
            ∧ (pointOf s n (keyRow k) ≠ 16 → excludedIn s n (keyRow k) = [] → slideOf t n (keyRow k) = { point := 16, temp := false })))
      ∧ (∀ row : Fin 32,
          (r.engine = none ∨ pointOf s n row.val = 16 ∨ lhRuns s = false → exec (.testStarved region row) s = .next s)
          ∧ (r.engine ≠ none → pointOf s n row.val ≠ 16 → lhRuns s = true → overdueCores s n row.val 48 ≠ [] →
              ((∃ b, (n, row.val, b) ∈ starvedRows s) → Does (.testStarved region row) s (fun t => t = { s with lh := { s.lh with starved := starvedRows s } }))
              ∧ ((∀ b, (n, row.val, b) ∉ starvedRows s) → Does (.testStarved region row) s (fun t =>
                  t.lh = { s.lh with starved := starvedRows s ++ [(n, row.val, false)] } ∧ (getFn t 0).event.getLsbD 6 = true
                    ∧ t = { s with lh := t.lh, logq := t.logq, fns := t.fns, vecs := t.vecs }))))
      ∧ (∀ slid, slid = (List.range 32).filter (fun x => decide (pointOf s n x ≠ 16)) →
          (r.engine = none ∨ slid = [] ∨ lhRuns s = false → exec (.overdueSuspect region) s = .next s)
          ∧ (r.engine ≠ none → lhRuns s = true → slid.flatMap (fun x => overdueCores s n x 72) ≠ [] → Does (.overdueSuspect region) s (fun t =>
              (∀ k ∈ slid.flatMap (fun x => overdueCores s n x 72), k ∈ t.lh.overdue)
                ∧ ((getUnit s (uRegion n)).map = 0 → (getUnit t (uRegion n)).map = 1) ∧ ((getUnit s (uRegion n)).map ≠ 0 → t.lh.map = s.lh.map))))
      ∧ ∀ v : BitVec 32,
          let m := (v.extractLsb' 0 9).toNat
          let row := (v.extractLsb' 9 5).toNat
          let i := v.extractLsb' 0 11
          (barOpen s 0 = false ∨ v.getLsbD 14 = false → exec (.ftGrant v) s = .next s)
            ∧ (barOpen s 0 = true → v.getLsbD 14 = true → (m, row, false) ∈ starvedRows s → Does (.ftGrant v) s (fun t =>
                t.lh.starved = (starvedRows s).map (fun x => if x = (m, row, false) then (m, row, true) else x)
                  ∧ t = { s with lh := t.lh, logq := t.logq }))
            ∧ (barOpen s 0 = true → v.getLsbD 14 = true → (m, row, false) ∉ starvedRows s → Does (.ftGrant v) s (fun t =>
                Counted (uRegion m) rFtGrantRefused 1 s t ∧ t = { s with cnt := t.cnt }))
            ∧ (barOpen s 0 = false ∨ i.toNat < 60 ∨ 1440 < i.toNat → exec (.ftCtlWrite v) s = .next s)
            ∧ (barOpen s 0 = true → 60 ≤ i.toNat → i.toNat ≤ 1440 → Does (.ftCtlWrite v) s (fun t => t.up.interval = i
                ∧ t.up.lastPass = s.up.lastPass ∧ (i ≠ s.up.interval → t.up.dueNow = []) ∧ t.lh = { s.lh with starved := starvedRows t }
                ∧ t = { s with up := t.up, lh := t.lh }))

/-- An input out of range holds the supply cause and is counted, and its return releases it. Beyond the lockout limits the bus stops
and the wafer and bridges keep nothing, while host memory, Harbours and Lighthouse do. A wave of the ramp powers its 32 regions
but those not in regulation, which are FENCED. A lost root or reference stops the clocks with all state as it stands. A region
at 110 °C, or whose regulator faults, is dark and FENCED; a neighbour of a region whose power-good has fallen takes it offline;
a bridge at 115 °C is down. TL and G rise, hold and fall as R512 and R513 say, and every region takes G (R499, R500, R502, R503,
R506, R507, R512, R513, R515, R516, R517, R518). -/
def Obligations.SuppliesTripsAndThrottleLevels : Prop :=
  ∀ (s : State),
    (∀ id, outOfRange s = some id →
        (s.power.supply = false → Does .supplyRange s (fun t => t.power = { s.power with supply := true, supplyBy := id }
          ∧ Counted uModule 11 1 s t ∧ t = { s with power := t.power, cnt := t.cnt, logq := t.logq }))
        ∧ (s.power.supply = true → Does .supplyRange s (fun t => t = { s with power := { s.power with supply := true, supplyBy := id } })))
      ∧ (outOfRange s = none →
          (s.power.supply = true → Does .supplyRange s (fun t => t = { s with power := { s.power with supply := false }, logq := t.logq }))
          ∧ (s.power.supply = false → exec .supplyRange s = .next s))
      ∧ (beyondLockout s = none ∨ s.power.bus = false → exec .lockout s = .next s)
      ∧ (beyondLockout s ≠ none → s.power.bus = true → Does .lockout s (fun t =>
          t.power.bus = false ∧ t.power.stopped = true ∧ t.cores = [] ∧ t.routers = [] ∧ t.engines = [] ∧ t.ctl = []
            ∧ (∀ n, getRegion t n = getRegion State.reset n) ∧ (∀ b, getBridge t b = getBridge State.reset b)
            ∧ t.hmem = s.hmem ∧ t.hchans = s.hchans ∧ t.harbours = s.harbours ∧ t.lh = s.lh ∧ t.nodes = s.nodes ∧ t.cclk = s.cclk
            ∧ (∀ p ∈ t.packets, p ∈ s.packets)))
      ∧ (∀ bad : List (Fin 32 × Fin 2 × BitVec 32 × BitVec 32),
          let w := s.up.waves
          (s.up.phase ≠ 2 ∨ s.power.bus = false ∨ 16 ≤ w → exec (.rampWave bad) s = .next s)
          ∧ (s.up.phase = 2 → s.power.bus = true → w < 16 → Does (.rampWave bad) s (fun t => t.up.waves = w + 1 ∧ t.up.phase = 2
              ∧ (∀ i, i < 32 → (∀ x ∈ bad, x.1.val ≠ i) → getRegion t (32 * w + i) = { getRegion s (32 * w + i) with powered := true, pg := true })
              ∧ (∀ i, i < 32 → (∃ x ∈ bad, x.1.val = i) → getRegion t (32 * w + i) = getRegion s (32 * w + i) ∧ 2 ≤ eff t (uRegion (32 * w + i))
                  ∧ uRegion (32 * w + i) ∈ t.up.bad)
              ∧ (∀ n, n < 32 * w ∨ 32 * w + 32 ≤ n → getRegion t n = getRegion s n))))
      ∧ (s.power.root = false → exec .rootLockLoss s = .next s ∧ Does .referenceStop s (fun t => t = { s with power := { s.power with backup := true } }))
      ∧ (s.power.root = true → ∀ i b, (i, b) ∈ [(Instr.rootLockLoss, s.power.backup), (.referenceStop, true)] → Does i s (fun t =>
          t.power = { s.power with root := false, stopped := true, backup := b } ∧ clocksRun t = false ∧ Counted uModule 11 1 s t
            ∧ (getHport t 0).l0 = false ∧ (getHport t 1).l0 = false
            ∧ t.cores = s.cores ∧ t.packets = s.packets ∧ t.ctl = s.ctl ∧ t.engines = s.engines ∧ t.regions = s.regions ∧ t.bridges = s.bridges))
      ∧ (∀ region : Fin 512,
          let n := region.val
          let r := getRegion s n
          let dark (t : State) : Prop := (getRegion t n).powered = false ∧ (getRegion t n).pg = false ∧ 2 ≤ eff t (uRegion n)
            ∧ (∀ k ∈ regionCores n, getCore t k = {}) ∧ (getRegion t n).sync = [] ∧ t.hmem = s.hmem
          let trips : Prop := r.powered = true ∧ atLeast s (sensorId 1 n) 1100 = true
          (¬trips → exec (.regionTrip region) s = .next s)
          ∧ (trips → Does (.regionTrip region) s (fun t => dark t ∧ (getRegion t n).tripped = true))
          ∧ (∀ hot, regulatorFault s n hot = none ∨ r.powered = false → exec (.regulatorFault region hot) s = .next s)
          ∧ (∀ hot, regulatorFault s n hot ≠ none → r.powered = true → Does (.regulatorFault region hot) s (fun t => dark t
              ∧ (getRegion t n).tripped = r.tripped))
          ∧ (offSetpoint s n 0 5 = true ∨ offSetpoint s n 1 5 = true ∨ 5 ≤ r.overA → ∀ hot, regulatorFault s n hot ≠ none)
          ∧ (clocksRun s = true → ∀ dir : Fin 4,
              let quiet (m : Nat) : Bool := powerGood s m || regionOffline s m || !r.powered
              (regionBeside n dir.val = none ∨ (∃ m, regionBeside n dir.val = some m ∧ quiet m = true) → exec (.neighbourPgFall region dir) s = .next s)
              ∧ (∀ m, regionBeside n dir.val = some m → quiet m = false → Does (.neighbourPgFall region dir) s (fun t => 2 ≤ eff t (uRegion m))))
          ∧ (clocksRun s = true →
              let hot := atLeast s (sensorId 1 n) 950
              let cool := atMost s (sensorId 1 n) 920
              let tl : BitVec 4 := if hot = true then (if r.tl.toNat < 12 then r.tl + 1 else r.tl)
                else if cool = true ∧ r.tl ≠ 0 ∧ r.quiet = 9 then r.tl - 1 else r.tl
              (r.powered = false → exec (.tlUpdate region) s = .next s)
              ∧ (r.powered = true → Does (.tlUpdate region) s (fun t => (getRegion t n).tl = tl
                  ∧ (tl ≠ r.tl → Counted (uRegion n) rThrChanges 1 s t) ∧ (tl = r.tl → t.cnt = s.cnt)
                  ∧ (getRegion t n).overA = (if above s (sensorId 4 n) 800 then r.overA + 1 else 0)
                  ∧ (∀ m, m ≠ n → getRegion t m = getRegion s m) ∧ t = { s with regions := t.regions, cnt := t.cnt, logq := t.logq }))))
      ∧ (lhUp s = false → exec .gUpdate s = .next s)
      ∧ (lhUp s = true → Does .gUpdate s (fun t =>
          let p := t.power
          p.g = max (if s.power.supply then 12 else 0) (max p.cool p.cap)
            ∧ ((atLeast s (sensorId 7 0) 450 || atLeast s (sensorId 7 1) 550) = true → p.cool = min 12 (s.power.cool + 1))
            ∧ ((atLeast s (sensorId 7 0) 450 || atLeast s (sensorId 7 1) 550) = false → p.cool = s.power.cool
                ∨ (p.cool + 1 = s.power.cool ∧ s.power.coolQuiet = 9 ∧ (atMost s (sensorId 7 0) 420 && atMost s (sensorId 7 1) 520) = true))
            ∧ (s.power.capEn = false → p.cap = s.power.cap ∨ (p.cap + 1 = s.power.cap ∧ s.power.capQuiet = 9))
            ∧ (∀ n, n < 512 → getRegion t n = { getRegion s n with gl := BitVec.ofNat 4 p.g })
            ∧ (p.g ≠ s.power.g → Counted uModule 10 1 s t) ∧ (p.g = s.power.g → t.cnt = s.cnt)
            ∧ t = { s with power := t.power, regions := t.regions, cnt := t.cnt, logq := t.logq }))
      ∧ ∀ (b : Fin 32) (id : Nat),
          let hot := (List.range 4).map (fun i => sensorId 6 (4 * b.val + i))
          ((∀ x ∈ hot, atLeast s x 1150 = false) ∨ (getBridge s b.val).shiState = 5 ∨ lhUp s = false → exec (.bridgeTrip b) s = .next s)
            ∧ (id ∈ hot → atLeast s id 1150 = true → (getBridge s b.val).shiState ≠ 5 → lhUp s = true → Does (.bridgeTrip b) s (fun t =>
                (getBridge t b.val).shiState = 5 ∧ (getBridge t b.val).cause = 4 ∧ (∀ i, i ≠ b.val → getBridge t i = getBridge s i)
                  ∧ t = { s with bridges := t.bridges, logq := t.logq }))

/-- A phase ends with what it finds: the self-test, the bus, the root and the two host bridges decide whether the bring-up goes on.
Phase 2 waits for its 16 waves; phase 3 starts the root and TID_TIME at 0; phase 4 takes down every bridge that has not trained.
In phase 6 a core that both testers fail is FENCED, one that both pass stays, and any other is scanned; the scan decides. Phase
7 gives Lighthouse its map at epoch 1. Phase 10 scrubs every region in service and gives READY. A phase that reaches its maximum
time takes its exit: the regions that have not ramped and the cores that no scan has decided are FENCED (R443, R444, R447, R448,
R449, R450, R451, R455, R456, R457, R458). -/
def Obligations.BringUpPhasesEndAndFail : Prop :=
  ∀ (s : State) (f : PhaseFinds),
    let fatal (t : State) : Prop := t.up.fatal = true ∧ t.up.fatalPhase = s.up.phase ∧ t.up.phase = s.up.phase ∧ t.up.ready = s.up.ready
    let next' (t : State) : Prop := t.up.phase = s.up.phase + 1 ∧ t.up.fatal = s.up.fatal ∧ t.up.ready = s.up.ready
    let down (b : Nat) : Prop := (getBridge s b).shiState ≠ 4 ∨ b ∈ badOf f 4
    let i := Instr.bringupPhase f
    let ks := (List.range 512).flatMap (fun n => (regionCores n).filter (tested s))
    (comingUp s = false → exec i s = .next s)
      ∧ (comingUp s = true → s.up.phase = 2 → s.power.bus = false → s.up.phaseUs + 1000 * min f.ms 70 ≤ nowUs s →
          (f.fatal = true ∨ beyondLockout s ≠ none → Does i s fatal)
          ∧ (f.fatal = false → beyondLockout s = none → Does i s (fun t => t = { s with power := { s.power with bus := true } })))
      ∧ (comingUp s = true → s.up.phase = 2 → s.power.bus = true → s.up.waves < 16 → exec i s = .next s)
      ∧ (comingUp s = true → s.up.phase = 2 → s.power.bus = true → 16 ≤ s.up.waves → Does i s next')
      ∧ (comingUp s = true → s.up.phase = 1 →
          (s.lh.stage = 4 ∨ f.fatal = true → Does i s fatal) ∧ (s.lh.stage ≠ 4 → f.fatal = false → Does i s next'))
      ∧ (comingUp s = true → s.up.phase = 3 →
          (f.fatal = true → Does i s fatal)
          ∧ (f.fatal = false → Does i s (fun t => next' t ∧ t.power.root = true ∧ t.tid = 0 ∧ t.phase = 0)))
      ∧ (comingUp s = true → s.up.phase = 4 →
          (down 8 → down 24 → Does i s fatal) ∧ (¬down 8 ∨ ¬down 24 → Does i s next')
            ∧ Does i s (fun t => ∀ b, b < 32 → (down b → (getBridge t b).shiState = 5) ∧ (¬down b → getBridge t b = getBridge s b)))
      ∧ (comingUp s = true → s.up.phase = 6 → s.up.tested = false → Does i s (fun t => t.up.tested = true ∧ t.up.phase = 6
          ∧ (∀ k ∈ ks, verdictsOn s f k = [false, false] → 2 ≤ eff t (uCore k) ∧ k ∉ t.up.scans)
          ∧ (∀ k ∈ ks, verdictsOn s f k = [true, true] → k ∉ t.up.scans)
          ∧ (∀ k ∈ ks, verdictsOn s f k ≠ [false, false] → verdictsOn s f k ≠ [true, true] → k ∈ t.up.scans)
          ∧ (∀ u, (∀ k ∈ ks, verdictsOn s f k = [false, false] → uCore k ≠ u) → getHealth t u = getHealth s u)))
      ∧ (comingUp s = true → s.up.phase = 6 → s.up.tested = true → (s.up.scans ≠ [] → exec i s = .next s) ∧ (s.up.scans = [] → Does i s next'))
      ∧ (comingUp s = true → s.up.phase = 7 → Does i s (fun t => next' t ∧ t.lh.epoch = 1 ∧ t.lh.stage = 3))
      ∧ (comingUp s = true → s.up.phase = 8 → Does i s next')
      ∧ (comingUp s = true → s.up.phase = 9 →
          let good (h : Nat) : Prop := (getBridge s (hostBridge (h = 1))).shiState ≠ 5 ∧ hostBridge (h = 1) ∉ badOf f 4 ∧ usable s (uHost h) = true ∧ h ∉ badOf f 6
          (good 0 ∨ good 1 → badOf f 0 = [] → badOf f 3 = [] → Does i s next') ∧ (¬good 0 → ¬good 1 → badOf f 0 = [] → badOf f 3 = [] → Does i s fatal))
      ∧ (comingUp s = true → s.up.phase = 10 → Does i s (fun t => t.up.ready = true ∧ t.up.readyTid = t.tid
          ∧ (∀ n ∈ liveRegions s, (getRegion t n).scrubDone = true ∧ (getRegion t n).scrubSeed = f.seed)
          ∧ (∀ n ∈ liveRegions s, (∀ k ∈ badOf f 0, keyRegion k ≠ n) → (getRegion t n).scrubPass = true)))
      ∧ (s.up.ready = true ∨ s.up.fatal = true ∨ s.power.stopped = true → exec (.phaseTimeout f) s = .next s)
      ∧ (s.up.ready = false → s.up.fatal = false → s.power.stopped = false →
          (s.up.phase = 1 ∨ s.up.phase = 3 ∨ (s.up.phase = 2 ∧ s.power.bus = false) → Does (.phaseTimeout f) s fatal)
          ∧ (s.up.phase = 2 → s.power.bus = true → Does (.phaseTimeout f) s (fun t => next' t
              ∧ ∀ n, n < 512 → 32 * s.up.waves ≤ n → 2 ≤ eff t (uRegion n) ∧ uRegion n ∈ t.up.bad))
          ∧ (s.up.phase = 6 → s.up.tested = true → Does (.phaseTimeout f) s (fun t => next' t ∧ t.up.scans = []
              ∧ ∀ k ∈ s.up.scans, 2 ≤ eff t (uCore k) ∧ uCore k ∈ t.up.bad)))
      ∧ ∀ (c : CoreRef) (pass : Bool) (run : Fin 8 × Fin 2), clocksRun s = true →
          let k := c.key
          (s.up.phase ≠ 6 ∨ s.up.tested = false ∨ k ∉ s.up.scans → exec (.tieBreakScan c pass run) s = .next s)
          ∧ (s.up.phase = 6 → s.up.tested = true → k ∈ s.up.scans → Does (.tieBreakScan c pass run) s (fun t => k ∉ t.up.scans
              ∧ (∀ x ∈ s.up.scans, x ≠ k → x ∈ t.up.scans)
              ∧ (∀ x ∈ overruled s k pass, x ≠ k → (getHealth s (uCore x)).live = 0 → x ∈ t.up.scans)
              ∧ (pass = true → t.health = s.health) ∧ (pass = false → 2 ≤ eff t (uCore k) ∧ uCore k ∈ t.up.bad)))

/-- A good frame is taken once and answered each time; its body writes a register, starts a scrub, slides a row back or makes a core
due. Reports give Lighthouse the filtered values, and 64 ms without one marks them silent. A node silent for 10 ms is reached
through IJTAG, and after 100 ms more its region is FENCED, or its bridge down. A record leaves its unit's queue for the log, and
for the journal at SEV 2 or 3; lost records are reported when room returns. The map is saved, and recovered with an epoch above
every holder's. A plausible sample joins the last five, the eighth implausible one fails the sensor and the fifth in range
returns it (R439, R471, R472, R473, R474, R475, R477, R478, R479, R484, R487, R488). -/
def Obligations.LighthouseHearsAndRecords : Prop :=
  ∀ (s : State),
    (∀ (f : SwFrame),
        let src := nodeKey f.src
        let dst := nodeKey f.dst
        let dead : Prop := f.good = false ∨ nodeTakes s f.dst = false ∨ (src == 1022) = (dst == 1022)
        let acked : SwNode := { getNode s dst with lastAck := nowUs s, ijtag := none }
        (dead ∨ f.body = .other 4 ∨ f.body = .other 8 → exec (.seawallFrame f) s = .next s)
        ∧ (¬dead → f.body ≠ .other 4 → f.body ≠ .other 8 →
            ((src, f.seq.toNat) ∈ (getNode s dst).seen → Does (.seawallFrame f) s (fun t => getNode t dst = acked ∧ t = { s with nodes := t.nodes }))
            ∧ ((src, f.seq.toNat) ∉ (getNode s dst).seen → Does (.seawallFrame f) s (fun t => (src, f.seq.toNat) ∈ (getNode t dst).seen
                ∧ (getNode t dst).lastAck = nowUs s
                ∧ (∀ seed, f.body = .scrub seed → dst < 512 → (getRegion s dst).engine = none → (getRegion s dst).scrubBusy = false →
                    s.dbg.coreSib.getLsbD dst = false → (getRegion t dst).scrubBusy = true ∧ (getRegion t dst).scrubSeed = seed)
                ∧ (∀ row col, f.body = .test row col → dst < 512 → ∃ x ∈ t.up.dueNow, x.1 = coreKey dst row.val col.val)
                ∧ (∀ w space unit off wide v m, f.body = .reg w space unit off wide v m → dst ≠ 1022 → nodeHas dst space.val unit.toNat = false →
                    (getNode t dst).answer = some (BitVec.ofNat 16 stRange, 0))))))
      ∧ (∀ src dst : Node,
          let go : Prop := unacked s (nodeKey src) (nodeKey dst) = true ∧ (lhUp s = true ∨ src ≠ .lighthouse)
          (¬go → exec (.frameResend src dst) s = .next s)
          ∧ (go → Does (.frameResend src dst) s (fun t => t.lh = s.lh ∧ t.ctl = s.ctl ∧ t.nodes = s.nodes ∧ t.packets = s.packets
              ∧ (clocksRun s = false → nowUs t = nowUs s + 1000 ∧ Gains uModule 6 1 s t))))
      ∧ (∀ src : Node,
          (lhUp s = false ∨ src = .lighthouse → exec (.telemetry src) s = .next s ∧ exec (.telemetryTimeout src) s = .next s)
          ∧ (lhUp s = true → src ≠ .lighthouse →
              Does (.telemetry src) s (fun t => t = { s with lh := { s.lh with telem := t.lh.telem } } ∧ tget Telemetry.init t.lh.telem (nodeKey src)
                = { vals := (nodeSensors src).map (fun i => (sensed s i).getD 0), failed := (nodeSensors src).map (fun i => (getSensor s i).failed), us := nowUs s })
              ∧ Does (.telemetryTimeout src) s (fun t => tget Telemetry.init t.lh.telem (nodeKey src)
                = { tget Telemetry.init s.lh.telem (nodeKey src) with silent := true } ∧ t.sensors = s.sensors)))
      ∧ (∀ quad : Fin 4, let ids := (List.range 32).map (fun c => sensorId 9 (32 * quad.val + c))
          (lhRuns s = false → exec (.hbSensors quad) s = .next s)
          ∧ (lhRuns s = true → Does (.hbSensors quad) s (fun t => t = { s with lh := { s.lh with telem := t.lh.telem } }
              ∧ (tget Telemetry.init t.lh.telem (1024 + quad.val)).vals = ids.map (fun i => (sensed s i).getD 0))))
      ∧ (∀ (i : Instr) (k : Nat) (out : State → Prop), ((∃ n : Fin 512, i = .mgmtEscalation n ∧ k = n.val ∧
              out = fun t => 2 ≤ eff t (uRegion n.val) ∧ 2 ≤ (getUnit t (uRegion n.val)).map.toNat)
            ∨ (∃ b : Fin 32, i = .monitorEscalation b ∧ k = 512 + b.val ∧ out = fun t => (getBridge t b.val).shiState = 5)) →
          (lhRuns s = false → exec i s = .next s)
          ∧ (lhRuns s = true → (getNode s k).ijtag = none → Does i s (fun t => (getNode t k).ijtag = some (nowUs t)
              ∧ t.health = s.health ∧ t.lh = s.lh ∧ t.bridges = s.bridges))
          ∧ (lhRuns s = true → (getNode s k).ijtag ≠ none → Does i s (fun t => out t ∧ (getNode t k).ijtag = none)))
      ∧ (∀ (i : Instr) (u : Nat), ((∃ v : BitVec 32, i = .eventRecord v ∧ u = v.toNat ∧ ¬(7 ≤ unitClass u ∧ unitClass u ≤ 9))
            ∨ (∃ q : Fin 4, i = .hbEvent q ∧ u = uHarbour q.val)) →
          ((getLogq s u).recs = [] ∨ lhRuns s = false → exec i s = .next s)
          ∧ (∀ r rest, (getLogq s u).recs = r :: rest → lhRuns s = true → Does i s (fun t =>
              let x : LogEntry := { body := r, seq := s.lh.seq, time := nowUs s - s.lh.bootUs, boot := s.lh.boot }
              t.lh = { s.lh with seq := s.lh.seq + 1, log := (s.lh.log ++ [x]).drop (s.lh.log.length - 1048575), journal := t.lh.journal }
                ∧ t.lh.journal = (if 2 ≤ r.sev.toNat then (s.lh.journal ++ [x]).drop (s.lh.journal.length - 65535) else s.lh.journal)
                ∧ getLogq t u = { getLogq s u with recs := rest } ∧ t = { s with lh := t.lh, logq := t.logq })))
      ∧ (∀ v : BitVec 32, let q := getLogq s v.toNat
          (7 ≤ unitClass v.toNat → unitClass v.toNat ≤ 9 → exec (.eventRecord v) s = .next s)
          ∧ (q.lost = 0 ∨ 64 ≤ q.recs.length → exec (.eventLost v) s = .next s)
          ∧ (q.lost ≠ 0 → q.recs.length < 64 → Does (.eventLost v) s (fun t => Counted uModule 7 q.lost s t ∧ t = { s with logq := t.logq, cnt := t.cnt }
              ∧ ∃ r, getLogq t v.toNat = { q with recs := q.recs ++ [r], lost := 0 } ∧ r.typ = 0x1005 ∧ r.data = leBytes 4 q.lost)))
      ∧ (∀ (cage : Fin 16) (bytes : List (BitVec 8)),
          (bytes.length ≠ 64 → exec (.peerNotice cage bytes) s = .refused .illFormed)
          ∧ (bytes.length = 64 → lhRuns s = false ∨ (getPort s cage.val).partner = 2 → exec (.peerNotice cage bytes) s = .next s)
          ∧ (bytes.length = 64 → lhRuns s = true → (getPort s cage.val).partner ≠ 2 → Does (.peerNotice cage bytes) s (fun t =>
              t = { s with lh := t.lh } ∧ t.lh.seq = s.lh.seq + 1 ∧ ∃ x : LogEntry, t.lh.log.getLast? = some x ∧ x.body = recordOf bytes ∧ x.seq = s.lh.seq)))
      ∧ (lhRuns s = false → exec .healthPersist s = .next s)
      ∧ (lhRuns s = true → Does .healthPersist s (fun t => t = { s with lh := { s.lh with savedMap := s.lh.map, savedRetired := s.lh.retired } }))
      ∧ (∀ node : Node,
          (s.lh.stage ≠ 2 ∨ node = .lighthouse → exec (.epochQuery node) s = .next s)
          ∧ (s.lh.stage = 2 → node ≠ .lighthouse → Does (.epochQuery node) s (fun t => t = { s with lh := { s.lh with epochSeen := t.lh.epochSeen }, nodes := t.nodes }
              ∧ (getNode t (nodeKey node)).lastAck = nowUs s ∧ s.lh.epochSeen.toNat ≤ t.lh.epochSeen.toNat
              ∧ ∀ x ∈ s.health, unitNode x.1 = some (nodeKey node) → x.2.epoch.toNat ≤ t.lh.epochSeen.toNat)))
      ∧ (s.lh.stage ≠ 2 → exec .lhRecovery s = .next s)
      ∧ (s.lh.stage = 2 → s.lh.orders = [] → Does .lhRecovery s (fun t => t.lh.stage = 3 ∧ t.lh.map = s.lh.savedMap ∧ t.lh.retired = s.lh.savedRetired
          ∧ t.lh.epoch = BitVec.ofNat 32 (max (greatestEpoch s (fun _ => true)) s.lh.epochSeen.toNat + 1)
          ∧ (∀ x ∈ s.health, x.2.live ≠ 0 → ∃ v, Ctl.live x.1 x.2.live v ∈ t.ctl) ∧ t = { s with lh := t.lh, ctl := t.ctl }))
      ∧ (∀ (id : BitVec 16) (v : Word),
          let g := getSensor s id.toNat
          let sampled (g' : Sensor) : Prop := Does (.sensorSample id v) s (fun t => getSensor t id.toNat = g'
            ∧ (∀ i, i ≠ id.toNat → getSensor t i = getSensor s i) ∧ t = { s with sensors := t.sensors, lh := t.lh, logq := t.logq })
          (isSensor id.toNat = false → exec (.sensorSample id v) s = .next s)
          ∧ (isSensor id.toNat = true →
              (g.failed = false → plausible s id.toNat v = true → sampled { g with vals := (g.vals ++ [v]).drop (g.vals.length - 4), lastUs := nowUs s, bad := 0 })
              ∧ (g.failed = false → plausible s id.toNat v = false → g.bad < 7 → sampled { g with bad := g.bad + 1 })
              ∧ (g.failed = false → plausible s id.toNat v = false → 7 ≤ g.bad → Does (.sensorSample id v) s (fun t =>
                  (getSensor t id.toNat).failed = true ∧ (getSensor t id.toNat).last = (sensed s id.toNat).getD 0 ∧ Counted uModule 8 1 s t))
              ∧ (g.failed = true → inRange id.toNat v = false → sampled { g with good := 0 })
              ∧ (g.failed = true → inRange id.toNat v = true → g.good < 4 → sampled { g with good := g.good + 1 })
              ∧ (g.failed = true → inRange id.toNat v = true → 4 ≤ g.good → sampled { vals := [v], lastUs := nowUs s })))
      ∧ ∀ (via : Via) (id : BitVec 16) (eid : BitVec 8),
          (lhRuns s = false ∨ pldmOk via = false → exec (.setEventReceiver via eid) s = .next s ∧ exec (.getSensorReading via id) s = .next s)
          ∧ (isSensor id.toNat = false → exec (.getSensorReading via id) s = .next s)
          ∧ (lhRuns s = true → pldmOk via = true →
              Does (.setEventReceiver via eid) s (fun t => t = { s with lh := { s.lh with receiver := some eid } })
              ∧ (isSensor id.toNat = true → Does (.getSensorReading via id) s (fun t => t = { s with lh := { s.lh with
                  out := s.lh.out ++ [.reading via id.toNat (lhSensor s id.toNat).1 (lhSensor s id.toNat).2] } })))

/-- A boot takes the preferred bank where it verifies, the other one where not, or none; a running Lighthouse does not boot. A
restart clears what its memory held, is counted, and changes neither cores, bridges, engines nor Harbours. A trial that is not
confirmed in time, or that the watchdog ends, is a failed trial; the third invalidates the bank. An update runs alone, writes
the inactive bank, is judged at the end and makes the new bank preferred and on trial. GO is ignored while BUSY and answered at
once where LEN is out of range; after 100 ms the mailbox answers TIMEOUT (R469, R470, R489, R491, R492, R493, R494, R495, R496,
R497). -/
def Obligations.LighthouseBootsAndUpdates : Prop :=
  ∀ (s : State),
    let same (t : State) : Prop := t.cores = s.cores ∧ t.bridges = s.bridges ∧ t.engines = s.engines ∧ t.hchans = s.hchans ∧ t.harbours = s.harbours
      ∧ t.health = s.health ∧ t.hmem = s.hmem ∧ t.ctl = s.ctl
    let restarts (t : State) : Prop := t.lh.stage = 1 ∧ t.lh.epoch = 0 ∧ t.lh.map = [] ∧ t.lh.orders = [] ∧ t.lh.updating = false ∧ t.lh.telem = []
      ∧ t.lh.log = s.lh.log ∧ t.lh.savedMap = s.lh.savedMap ∧ same t
    let on := s.lh.runB
    (∀ straps : Fin 4,
        (2 ≤ s.lh.stage → exec (.lhBoot straps) s = .next s)
        ∧ (s.lh.stage < 2 → bootBank s = none → Does (.lhBoot straps) s (fun t => t.lh.stage = 4 ∧ t.lh.boot = s.lh.boot + 1 ∧ t = { s with lh := t.lh }))
        ∧ (∀ b, s.lh.stage < 2 → bootBank s = some b → Does (.lhBoot straps) s (fun t => t.lh.stage = 2 ∧ t.lh.runB = b ∧ t.lh.boot = s.lh.boot + 1
            ∧ t.lh.bootUs = nowUs s ∧ t.lh.smbAddr = BitVec.ofNat 7 (0x64 + straps.val) ∧ t.lh.retired = s.lh.savedRetired
            ∧ t = { s with lh := t.lh, logq := t.logq })))
      ∧ (∀ p, p = s.lh.prefB → s.lh.bootOther = false →
          (bankVerifies s (bankOf s p) = true → bootBank s = some p)
          ∧ (bankVerifies s (bankOf s p) = false → bankVerifies s (bankOf s (!p)) = true → bootBank s = some (!p))
          ∧ (bankVerifies s (bankOf s p) = false → bankVerifies s (bankOf s (!p)) = false → bootBank s = none))
      ∧ (onTrial s = false → exec .trialTimeout s = .next s)
      ∧ (onTrial s = true → Does .trialTimeout s (fun t => t.lh.stage = 1
          ∧ (s.lh.trialFails < 2 → t.lh.trialFails = s.lh.trialFails + 1 ∧ t.lh.bootOther = true ∧ bankOf t on = bankOf s on)
          ∧ (2 ≤ s.lh.trialFails → t.lh.trialFails = 0 ∧ (bankOf t on).invalid = true ∧ t.lh.prefB = !on)))
      ∧ (s.lh.stage = 0 → exec .lhWatchdog s = .next s)
      ∧ (s.lh.stage ≠ 0 → Does .lhWatchdog s (fun t => restarts t ∧ Counted uModule 5 1 s t
          ∧ (onTrial s = false → t.lh.bankA = s.lh.bankA ∧ t.lh.bankB = s.lh.bankB)
          ∧ (onTrial s = true → 2 ≤ s.lh.trialFails → (bankOf t on).invalid = true ∧ t.lh.prefB = !on)))
      ∧ (∀ (via : Via) (image : FwImage) (now : Bool),
          let open' : Prop := pldmOk via = true ∧ (lhRuns s = true ∨ s.lh.stage = 4)
          let good := bankVerifies s { image := image }
          (¬(open' ∧ s.lh.updating = false) → exec (.requestUpdate via) s = .next s)
          ∧ (open' → s.lh.updating = false → Does (.requestUpdate via) s (fun t => t.lh.updating = true ∧ (bankOf t (!on)).invalid = true
              ∧ bankOf t on = bankOf s on ∧ t = { s with lh := t.lh }))
          ∧ (¬(open' ∧ s.lh.updating = true) → exec (.verifyComplete via image) s = .next s)
          ∧ (open' → s.lh.updating = true → Does (.verifyComplete via image) s (fun t => bankOf t (!on) = { image := image, invalid := !good }
              ∧ bankOf t on = bankOf s on ∧ t = { s with lh := t.lh, logq := t.logq }))
          ∧ (¬(open' ∧ s.lh.updating = true ∧ (bankOf s (!on)).invalid = false) → exec (.activateFirmware via now) s = .next s)
          ∧ (open' → s.lh.updating = true → (bankOf s (!on)).invalid = false → Does (.activateFirmware via now) s (fun t =>
              t.lh.prefB = !on ∧ bankOf t (!on) = { bankOf s (!on) with trial := true } ∧ t.lh.trialFails = 0 ∧ t.lh.updating = false
                ∧ (now = true → restarts t) ∧ (now = false → t = { s with lh := t.lh } ∧ t.lh.stage = s.lh.stage)))
          ∧ (image.signed = false ∨ image.target = false ∨ image.svn.toNat < s.lh.rollback.toNat ∨ s.lh.revoked.getLsbD image.key.val = true → good = false))
      ∧ (clocksRun s = true →
          let m := s.lh.mbx
          let code := (mget m.req 0).toNat
          let tag := ofBytes (readBytes m.req 2 2)
          let done (st : Nat) (t : State) : Prop := t.lh.mbx = { m with busy := false, done := true, taken := false, rspLen := 8, rsp := rspBytes code tag st [] }
            ∧ (getFn t 0).event.getLsbD 5 = true
          (m.busy = true → exec .mbxGo s = .next s)
          ∧ (m.busy = false → m.len.toNat < 8 ∨ 28672 < m.len.toNat → Does .mbxGo s (fun t => done stRange t ∧ t = { s with lh := t.lh, fns := t.fns, vecs := t.vecs }))
          ∧ (m.busy = false → 8 ≤ m.len.toNat → m.len.toNat ≤ 28672 → Does .mbxGo s (fun t =>
              t = { s with lh := { s.lh with mbx := { m with busy := true, taken := false, goUs := nowUs s } } }))
          ∧ (m.busy = false → exec .mbxTimeout s = .next s)
          ∧ (m.busy = true → Does .mbxTimeout s (fun t => done stTimeout t ∧ Gains uModule 9 1 s t ∧ t.lh = { s.lh with
              mbx := t.lh.mbx
              orders := s.lh.orders.map (fun o => if o.via = .mailbox then { o with dropped := true } else o) })))

/-- A message that Lighthouse does not take changes nothing. One that breaks the header's or its own rules is answered with the
status and no body. GET_HEALTH, HEALTH_SINCE, GET_LOG, GET_SENSORS and GET_FW answer from Lighthouse's own state. UNIT_ORDER
sets the map state with the next epoch and waits for the holder, or is answered at once where it changes nothing or is refused.
PORT_ORDER acts and is answered. HB_RELAY hands on the Harbour's response. LH_RESTART is answered before the restart, and MODE 1
begins a bring-up from phase 2 only where the module is stopped. No order waits in these clauses (R231, R269, R352, R475, R478,
R486, R488, R489, R490, R491, R500). -/
def Obligations.MessagesAreAnsweredAndOrdersTaken : Prop :=
  ∀ (s : State) (m : LhMsg), s.lh.orders = [] →
    let b := msgData s m
    let body := b.drop 8
    let tag := field b 2 2
    let n := b.length - 8
    let act := field body 4 1
    let kind := field body 0 1
    let u := field body 0 4
    let x := (getUnit s u).map
    let only (t : State) : Prop := t = { s with lh := t.lh, fns := t.fns, vecs := t.vecs }
    let ok (code : Nat) (bytes : List Byte) (t : State) : Prop := Answers m.via (rspBytes code tag stOk bytes) s t
    let rows : List (Instr × Nat × Nat × Bool × List Nat) :=
      [(.getHealth m, 1, 8, true, reserved (field body 1 1 ≠ 0) ++ range (9 < kind ∨ field body 2 2 = 0 ∨ 4094 < field body 2 2)),
       (.healthSince m, 2, 4, true, []),
       (.getLog m, 3, 8, true, reserved (field body 7 1 ≠ 0) ++ range (field body 4 2 = 0 ∨ 511 < field body 4 2 ∨ 1 < field body 6 1)),
       (.unitOrderFence m, 4, 5, decide (act = 1), range (!isUnit u)), (.unitOrderRelease m, 4, 5, decide (act = 2), range (!isUnit u)),
       (.unitOrderRetire m, 4, 5, decide (act = 3), range (!isUnit u)),
       (.unitOrderSuspect m, 4, 5, decide (act = 0 ∨ 3 < act), range (!isUnit u || decide (act ≠ 4))),
       (.portOrderBridgeDown m, 5, 3, decide (kind = 1), []), (.portOrderXlDown m, 5, 3, decide (kind = 2), []),
       (.portOrderXlRetrain m, 5, 3, decide (kind = 3), []), (.portOrderFailover m, 5, 3, decide (kind = 0 ∨ 3 < kind), range (kind ≠ 4)),
       (.getSensors m, 6, 4, true, range (field body 2 2 = 0 ∨ 1024 < field body 2 2)), (.getFw m, 7, 0, true, []),
       (.hbRelay m none, 8, max n 10, true, reserved (field body 1 1 ≠ 0) ++ range (3 < kind)),
       (.lhRestart m, 9, 4, decide (kind ≠ 1), reserved (field body 1 3 ≠ 0) ++ range (1 < kind)),
       (.lhRestartBringup m, 9, 4, decide (kind = 1), reserved (field body 1 3 ≠ 0) ++ range (!s.power.stopped))]
    (∀ r ∈ rows,
        (msgTaken s m = false ∨ b.length < 8 ∨ field b 0 1 ≠ r.2.1 ∨ r.2.2.2.1 = false → exec r.1 s = .next s)
        ∧ (msgTaken s m = true → 8 ≤ b.length → field b 0 1 = r.2.1 → r.2.2.2.1 = true → msgCodes b r.2.2.1 r.2.2.2.2 ≠ [] →
            Does r.1 s (fun t => Answers m.via (rspBytes r.2.1 tag (pickStatus (msgCodes b r.2.2.1 r.2.2.2.2)) []) s t ∧ only t)))
      ∧ (Asked m 1 8 (reserved (field body 1 1 ≠ 0) ++ range (9 < kind ∨ field body 2 2 = 0 ∨ 4094 < field body 2 2)) s →
          Does (.getHealth m) s (fun t => only t ∧ ok 1 (leBytes 4 s.lh.epoch.toNat
            ++ (((unitsOf kind).drop (field body 4 4)).take (field body 2 2)).flatMap (healthEntry s)) t))
      ∧ (Asked m 2 4 [] s → Does (.healthSince m) s (fun t => only t ∧
          let all := changedSince s (BitVec.ofNat 32 u)
          (all.length ≤ 4094 → ok 2 (leBytes 4 s.lh.epoch.toNat ++ leBytes 2 all.length ++ leBytes 1 0 ++ [0] ++ all.flatMap (fun y => healthEntry s y.1)) t)))
      ∧ (Asked m 3 8 (reserved (field body 7 1 ≠ 0) ++ range (field body 4 2 = 0 ∨ 511 < field body 4 2 ∨ 1 < field body 6 1)) s →
          let xs := ((if field body 6 1 = 1 then s.lh.journal else s.lh.log).filter (fun e =>
            decide ((e.seq - BitVec.ofNat 32 u).toNat < 2 ^ 31))).take (field body 4 2)
          Does (.getLog m) s (fun t => only t ∧ ∃ first, ok 3 (leBytes 4 first ++ leBytes 2 xs.length ++ [0, 0] ++ xs.flatMap logBytes) t))
      ∧ (Asked m 6 4 (range (field body 2 2 = 0 ∨ 1024 < field body 2 2)) s →
          let ids := (((List.range 0xA000).filter isSensor).filter (fun i => decide (field body 0 2 ≤ i))).take (field body 2 2)
          Does (.getSensors m) s (fun t => only t ∧ ok 6 (ids.flatMap (fun i =>
            leBytes 2 i ++ leBytes 1 (if (lhSensor s i).1 then 1 else 0) ++ [0] ++ leBytes 4 ((lhSensor s i).2.getD 0).toNat)) t))
      ∧ (Asked m 7 0 [] s → Does (.getFw m) s (fun t => only t ∧ ok 7 ([false, true].flatMap (fun w =>
          leBytes 4 (bankOf s w).image.version.toNat ++ leBytes 2 (bankOf s w).image.svn.toNat ++ leBytes 1 (bankState s w) ++ [0])
            ++ leBytes 2 s.lh.rollback.toNat) t))
      ∧ (Asked m 8 (max n 10) (reserved (field body 1 1 ≠ 0) ++ range (3 < kind)) s →
          (∀ r, Does (.hbRelay m (some r)) s (fun t => only t ∧ ok 8 r t)) ∧ Does (.hbRelay m none) s (fun t => only t ∧ t.lh.out = s.lh.out))
      ∧ (Asked m 4 5 (range (!isUnit u)) s →
          let sets (v : BitVec 3) (t : State) : Prop := (getUnit t u).map = v ∧ (getUnit t u).epoch = s.lh.epoch + 1 ∧ t.lh.epoch = s.lh.epoch + 1
            ∧ t.ctl = s.ctl ++ [.hmUpdate u v (s.lh.epoch + 1)] ∧ t = { s with lh := t.lh, ctl := t.ctl, fns := t.fns, vecs := t.vecs }
          let waits (a : Nat) (t : State) : Prop := t.lh.orders = [{ via := m.via, tag := tag, action := a, unit := u, begun := true }] ∧ t.lh.out = s.lh.out
          let idle (t : State) : Prop := only t ∧ t.lh.map = s.lh.map ∧ t.lh.epoch = s.lh.epoch ∧ ok 4 (leBytes 4 s.lh.epoch.toNat ++ leBytes 1 (effNow s u)) t
          let refused (t : State) : Prop := only t ∧ t.lh.map = s.lh.map ∧ Answers m.via (rspBytes 4 tag stRange []) s t
          (act = 1 → (2 ≤ x.toNat → Does (.unitOrderFence m) s idle) ∧ (x.toNat < 2 → Does (.unitOrderFence m) s (fun t => sets 2 t ∧ waits 1 t)))
            ∧ (act = 3 → (x = 4 → Does (.unitOrderRetire m) s idle) ∧ (x ≠ 4 → Does (.unitOrderRetire m) s (fun t => sets 4 t ∧ waits 3 t)))
            ∧ (act = 2 →
                let held : Prop := x = 4 ∨ unitClass u = 4 ∨ tripHolds s u = true ∨ scanHolds s u = true
                (x.toNat < 2 → Does (.unitOrderRelease m) s idle) ∧ (2 ≤ x.toNat → held → Does (.unitOrderRelease m) s refused)
                  ∧ (2 ≤ x.toNat → ¬held → Does (.unitOrderRelease m) s (fun t => sets 0 t ∧ waits 2 t)))
            ∧ (act = 4 → (x ≠ 0 ∨ effNow s u ≠ 0 → Does (.unitOrderSuspect m) s refused)
                ∧ (x = 0 → effNow s u = 0 → Does (.unitOrderSuspect m) s (fun t => sets 1 t ∧ t.lh.orders = []
                    ∧ ok 4 (leBytes 4 (s.lh.epoch + 1).toNat ++ leBytes 1 0) t))))
      ∧ (Asked m 5 3 [] s →
          let p := field body 1 1
          let answered (st : Nat) (t : State) : Prop := Answers m.via (rspBytes 5 tag st []) s t ∧ t.lh.orders = []
          (kind = 1 → (p < 32 → Does (.portOrderBridgeDown m) s (fun t => answered stOk t ∧ (getBridge t p).shiState = 5))
              ∧ (32 ≤ p → Does (.portOrderBridgeDown m) s (fun t => answered stRange t ∧ t.bridges = s.bridges)))
            ∧ (kind = 2 → (p < 16 → Does (.portOrderXlDown m) s (fun t => answered stOk t ∧ (getPort t p).stayDown = true))
              ∧ (16 ≤ p → Does (.portOrderXlDown m) s (fun t => answered stRange t ∧ t.ports = s.ports)))
            ∧ (kind = 3 → (p < 16 → Does (.portOrderXlRetrain m) s (fun t => answered stOk t
                ∧ ((getPort s p).pstate = 6 → (getPort t p).pstate = 1) ∧ ((getPort s p).pstate ≠ 6 → getPort t p = getPort s p)))
              ∧ (16 ≤ p → Does (.portOrderXlRetrain m) s (fun t => answered stRange t ∧ t.ports = s.ports)))
            ∧ (kind = 4 → (32 ≤ field body 2 1 → Does (.portOrderFailover m) s (answered stRange))
              ∧ (field body 2 1 < 32 → Does (.portOrderFailover m) s (answered stOk))))
      ∧ (Asked m 9 4 (reserved (field body 1 3 ≠ 0) ++ range (1 < kind)) s → kind ≠ 1 → Does (.lhRestart m) s (fun t => ok 9 [] t ∧ t.lh.stage = 1
          ∧ t.lh.map = [] ∧ t.cores = s.cores ∧ t.bridges = s.bridges ∧ t.engines = s.engines ∧ t.health = s.health ∧ t.up = s.up))
      ∧ (Asked m 9 4 (reserved (field body 1 3 ≠ 0) ++ range (!s.power.stopped)) s → kind = 1 → Does (.lhRestartBringup m) s (fun t => ok 9 [] t
          ∧ t.lh.stage = 1 ∧ t.up.phase = 2 ∧ t.up.ready = false ∧ t.power.bus = false ∧ t.power.root = false ∧ t.power.stopped = false
          ∧ t.cores = [] ∧ t.hmem = s.hmem ∧ t.hchans = s.hchans))

/-- A register command whose SPACE, SIZE or UNIT is wrong, whose offset is not aligned or lists no register, or that writes a
register of the hardware completes RANGE and changes no register. A read of registers completes OK with their values and changes
nothing else; the low word of a counter reads with a snapshot. A write of RGN_SCRUB_SEED takes VALUE under MASK; one of
RGN_CHW_CTL with a limit below 1024 is refused. A unit that does not answer leaves its command waiting until the timeout.
HB_REG, while Lighthouse runs and the Harbour has power, leaves its answer at the Harbour's node. Which unit answers is a
reading of R383 that the log names (R153, R383, R488, R544, R555, R556, R557, R558, R563, R564). -/
def Obligations.RegistersReadAndWrite : Prop :=
  (∀ (s : State) (j : Nat) (x : Job), clocksRun s = true →
    let sp := cmdNat x 4 1
    let u := cmdNat x 8 4
    let off := cmdNat x 12 4
    let wide := decide (cmdNat x 5 1 = 1)
    let v := BitVec.ofNat 32 (cmdNat x 0x10 8)
    let m := BitVec.ofNat 32 (cmdNat x 0x18 8)
    let size := if wide then 8 else 4
    let only (t : State) : Prop := t = { s with engines := t.engines, pairs := t.pairs }
    let ends (code value : Nat) (t : State) : Prop := Completes 12 j x code (leBytes 8 value) 0xFFFF noTide s t
    (∀ (i : Instr) (op : Nat), (i = .regRead j ∧ op = 0x32) ∨ (i = .regWrite j ∧ op = 0x33) →
        (startable s 12 j op = none → exec i s = .next s)
        ∧ (Given s 12 j op x →
            (regCodesOk x = false → Does i s (fun t => ends stRange 0 t ∧ only t))
            ∧ (regCodesOk x = true → unitAnswers s sp u = false →
                Does i s (fun t => Stands 12 j { x with started := true, since := nowUs s, prog := .wait } t ∧ only t))
            ∧ (regCodesOk x = true → unitAnswers s sp u = true → off % size ≠ 0 → Does i s (fun t => ends stRange 0 t ∧ only t))
            ∧ (regCodesOk x = true → unitAnswers s sp u = true → off % size = 0 → off < 0x8000 → covered s sp u off wide = [] →
                Does i s (fun t => ends stRange 0 t ∧ only t))
            ∧ (regCodesOk x = true → unitAnswers s sp u = true → off % size = 0 → 0x8000 ≤ off →
                windowCounter s sp u ((off - 0x8000) / 8) = none → Does i s (fun t => ends stRange 0 t ∧ only t))))
      ∧ (Given s 12 j 0x32 x → regCodesOk x = true → unitAnswers s sp u = true → off % size = 0 →
          (off < 0x8000 → covered s sp u off wide ≠ [] →
            Does (.regRead j) s (fun t => ends stOk (regsValue s sp u off wide).toNat t ∧ only t))
          ∧ (∀ cu cn, 0x8000 ≤ off → windowCounter s sp u ((off - 0x8000) / 8) = some (cu, cn) → wide = false → off % 8 = 0 →
            Does (.regRead j) s (fun t => ends stOk ((ctrRead s cu cn).toNat % 2 ^ 32) t
              ∧ tget 0 t.cnt.snap (snapKey cu 0) = ctrRead s cu cn ∧ t.cnt = { s.cnt with snap := t.cnt.snap }
              ∧ t = { s with engines := t.engines, pairs := t.pairs, cnt := t.cnt })))
      ∧ (Given s 12 j 0x33 x → regCodesOk x = true → unitAnswers s sp u = true → off % size = 0 → physRefused s sp u = false →
          (off < 0x8000 → (∃ r ∈ covered s sp u off wide, r.hw = true) →
            Does (.regWrite j) s (fun t => ends stRange (regsValue s sp u off wide).toNat t ∧ only t))
          ∧ (sp = 0 → off = 4 → wide = false →
            let new := (((getRegion s u).scrubSeed &&& ~~~m) ||| (v &&& m))
            Does (.regWrite j) s (fun t => ends stOk new.toNat t ∧ getRegion t u = { getRegion s u with scrubSeed := new }
              ∧ (∀ n, n ≠ u → getRegion t n = getRegion s n)
              ∧ t = { s with engines := t.engines, pairs := t.pairs, regions := t.regions }))
          ∧ (sp = 0 → off = 0x10 → wide = false → m = BitVec.allOnes 32 →
            (v.toNat % 2 ^ 24 < 1024 → Does (.regWrite j) s (fun t =>
                ends stRange ((getRegion s u).chwLimit.toNat + 2 ^ 24 * (getRegion s u).chwEn.toNat) t ∧ only t))
            ∧ (1024 ≤ v.toNat % 2 ^ 24 → Does (.regWrite j) s (fun t =>
                getRegion t u = { getRegion s u with chwLimit := v.setWidth 24, chwEn := v.getLsbD 24 }
                ∧ ends stOk (v.toNat % 2 ^ 25) t
                ∧ t = { s with engines := t.engines, pairs := t.pairs, regions := t.regions }))))
      ∧ (getJob s 12 j = none → exec (.regTimeout j) s = .next s)
      ∧ (getJob s 12 j = some x →
          (x.started = false ∨ x.prog ≠ .wait ∨ (opByte x.cmd ≠ 0x32 ∧ opByte x.cmd ≠ 0x33) → exec (.regTimeout j) s = .next s)
          ∧ (x.started = true → x.prog = .wait → opByte x.cmd = 0x32 ∨ opByte x.cmd = 0x33 → x.lst = none →
              ((getFn s x.ticket.fn).resetBusy && (getFn s x.ticket.fn).flr) = false →
              Does (.regTimeout j) s (fun t => ends stTimeout 0 t ∧ t.bridges = s.bridges ∧ t.hmem = s.hmem ∧ t.packets = s.packets))))
  ∧ (∀ (s : State) (write wide : Bool) (unit off : BitVec 32) (value mask : BitVec 64),
      let q := unit.toNat / 32 % 4
      let r := regAccess 1 4 unit.toNat off.toNat wide write value mask s
      (lhRuns s = false ∨ (getHarbour s q).powered = false → exec (.hbReg write unit off wide value mask) s = .next s)
      ∧ (lhRuns s = true → (getHarbour s q).powered = true →
          Does (.hbReg write unit off wide value mask) s (fun t =>
            getNode t (1024 + q) = { getNode s (1024 + q) with answer := some (BitVec.ofNat 16 r.1, r.2.1) }
              ∧ (∀ k, k ≠ 1024 + q → getNode t k = getNode s k)
              ∧ (unitOk 4 unit.toNat = false ∨ off.toNat % 4 ≠ 0 → r.1 = stRange ∧ t = { s with nodes := t.nodes })
              ∧ (∀ ch, unit.toNat = 32 * q + ch → ch < 32 → off = 8 → wide = false → write = true → mask = 0xFFFFFFFF#64 →
                  (value.toNat % 2 ^ 15 < 768 ∨ 24576 < value.toNat % 2 ^ 15 → r.1 = stRange ∧ t = { s with nodes := t.nodes })
                  ∧ (768 ≤ value.toNat % 2 ^ 15 → value.toNat % 2 ^ 15 ≤ 24576 → r.1 = stOk
                      ∧ getChan t (chanKey q ch) = { getChan s (chanKey q ch) with limit := value.setWidth 15 })))))

/-- A misaligned write, one to the administration block by a virtual function, one to an offset without a register and one during a
function reset change nothing. EVENT is W1C and EVENT_EN takes the value. PWR_CTL takes a cap of 8 to 23 kW only. The mailbox
length stands while BUSY. A read returns what a write has left; it reads 0 when it is misaligned, in the administration block
for a virtual function, and in the block of an engine of another function. A ring register stands while its pair is enabled or
busy. DOM_CTL stands while a stream is open or an image is bound. NumVFs above 31, or while VF Enable is 1, changes nothing.
PERST_N takes a link out of L0. A host read that times out halts its pair with CAUSE 5, or ends its command TIMEOUT. SMBus and
MCTP timeouts are counted while Lighthouse is up. The loss of input power leaves host memory, Harbours, flash and fuses (R8,
R327, R330, R331, R335, R343, R470, R491, R544, R545, R549, R574). -/
def Obligations.HostWritesPinsAndPower : Prop :=
  (∀ (s : State) (fn : Fin 32) (off : BitVec 20) (v : BitVec 64), clocksRun s = true →
    let a := off.toNat
    let w : BitVec 32 := v.setWidth 32
    let i : Instr := .registerWrite (.bar fn off false v)
    let k := (a - 0x1000) / 32
    let p := getPair s (pairKey fn.val k)
    (a % 8 ≠ 0 → exec (.registerWrite (.bar fn off true v)) s = .next s)
      ∧ (a % 4 ≠ 0 ∨ (fn ≠ 0 ∧ 0x20000 ≤ a) ∨ (a < 0x40000 ∧ barOpen s fn.val = false) ∨ (a < 0x400 ∧ a ≠ 0xC ∧ a ≠ 0x10) ∨ 0x50000 ≤ a →
          exec i s = .next s)
      ∧ (barOpen s fn.val = true → a = 0xC → Does i s (fun t =>
          getFn t fn.val = { getFn s fn.val with event := (getFn s fn.val).event &&& ~~~(w.setWidth 8) }
            ∧ (∀ f, f ≠ fn.val → getFn t f = getFn s f) ∧ t = { s with fns := t.fns }))
      ∧ (barOpen s fn.val = true → a = 0x10 → Does i s (fun t =>
          getFn t fn.val = { getFn s fn.val with eventEn := w.setWidth 8 } ∧ barReadWord t fn.val a = (w.setWidth 8).setWidth 32
            ∧ (∀ f, f ≠ fn.val → getFn t f = getFn s f) ∧ t = { s with fns := t.fns }))
      ∧ (barOpen s 0 = true → fn = 0 → a = 0x20110 →
          let cap := w.toNat % 32
          (cap < 8 ∨ 23 < cap → exec i s = .next s)
          ∧ (8 ≤ cap → cap ≤ 23 → Does i s (fun t =>
              t = { s with power := { s.power with capKw := w.setWidth 5, capEn := w.getLsbD 5 } } ∧ barReadWord t 0 a = (w.setWidth 6).setWidth 32)))
      ∧ (fn = 0 → a = 0x40004 →
          (s.lh.mbx.busy = true → exec i s = .next s)
          ∧ (s.lh.mbx.busy = false → Does i s (fun t =>
              t = { s with lh := { s.lh with mbx := { s.lh.mbx with len := w.setWidth 15 } } } ∧ barReadWord t 0 a = (w.setWidth 15).setWidth 32)))
      ∧ (0x1000 ≤ a → a < 0x3000 → a % 4 = 0 → barOpen s fn.val = true →
          (pairCount fn.val ≤ k ∨ pairEn p = true ∨ pairBusy p = true → exec i s = .next s)
          ∧ (k < pairCount fn.val → pairEn p = false → pairBusy p = false →
              let takes (q : Pair) (t : State) : Prop := getPair t (pairKey fn.val k) = q
                ∧ (∀ x, x ≠ pairKey fn.val k → getPair t x = getPair s x) ∧ t = { s with pairs := t.pairs }
              (a % 32 = 0 → Does i s (takes { p with sr := (p.sr.extractLsb' 32 32 ++ w : BitVec 64) &&& 0xFFFFFFFFFFFFF000#64 }))
              ∧ (a % 32 = 4 → Does i s (takes { p with sr := (w ++ p.sr.setWidth 32 : BitVec 64) &&& 0xFFFFFFFFFFFFF000#64 }))
              ∧ (a % 32 = 0x18 → w.getLsbD 0 = false → Does i s (fun t => takes { p with ctl := w &&& 0x003FFFFF#32 } t
                  ∧ barReadWord t fn.val a = w &&& 0x003FFFFF#32))
              ∧ (a % 32 = 0x18 → w.getLsbD 0 = true → Does i s (takes p))))
      ∧ (fn = 0 → a = 0x20200 → barOpen s 0 = true →
          (domWritable s = false → exec i s = .next s)
          ∧ (domWritable s = true → (∀ q, (getPort s q).pstate = 5 → (getPort s q).partner ≠ 1) → Does i s (fun t =>
              t = { s with dom := t.dom, ports := t.ports } ∧ t.dom.id = w.setWidth 16 ∧ t.dom.module = w.extractLsb' 16 4
                ∧ t.dom.size = w.extractLsb' 20 4 ∧ t.dom.priority = w.extractLsb' 24 4 ∧ t.dom.en = w.getLsbD 28
                ∧ t.dom.dstate = (if w.getLsbD 28 then 1 else 0) ∧ t.dom.funcMap = s.dom.funcMap))))
  ∧ (∀ (s : State) (fn : Fin 32) (e : Fin 13) (a o : Nat) (wide : Bool),
      let g := getEngine s e.val
      let mine : Prop := g.owned = true ∧ g.owner.toNat = fn.val
      (fn ≠ 0 → 0x20000 ≤ a → barRead s fn.val a wide = 0)
      ∧ (a % 4 ≠ 0 ∨ 0x50000 ≤ a → barRead s fn.val a wide = 0)
      ∧ (a % 8 = 0 → barRead s fn.val a true = (barReadWord s fn.val (a + 4) ++ barReadWord s fn.val a : BitVec 64))
      ∧ (o < 64 → ¬mine → barReadWord s fn.val (0x400 + 64 * e.val + o) = 0)
      ∧ (4 ≤ o → o < 64 → 8 ≤ e.val → barReadWord s fn.val (0x400 + 64 * e.val + o) = 0)
      ∧ (mine → (barReadWord s fn.val (0x400 + 64 * e.val)).extractLsb' 0 4 = (1#1 ++ g.state : BitVec 4)
          ∧ (g.state ≠ 4 → (barReadWord s fn.val (0x400 + 64 * e.val)).extractLsb' 16 16 = 0))
      ∧ (∀ f : Fin 32, (barReadWord s fn.val 0).extractLsb' 8 24 = 0x551201#24 ∧ barReadWord s fn.val 0 = barReadWord s f.val 0))
  ∧ (∀ (s : State) (port : Fin 2) (num : BitVec 16) (low : Bool), clocksRun s = true →
      let h := getHport s port.val
      let only (t : State) : Prop := t = { s with hports := t.hports, fns := t.fns, vecs := t.vecs, logq := t.logq }
        ∧ ∀ q, q ≠ port.val → getHport t q = getHport s q
      (h.vfEn = false → exec (.registerWrite (.srIov port false num)) s = .next s)
      ∧ (h.vfEn = true ∨ 31 < num.toNat → exec (.registerWrite (.srIov port true num)) s = .next s)
      ∧ (h.vfEn = false → num.toNat ≤ 31 → Does (.registerWrite (.srIov port true num)) s (fun t =>
          getHport t port.val = { h with vfEn := true, vfs := num.setWidth 5 } ∧ only t))
      ∧ (low = false ∨ h.l0 = false → Does (.perstN port low) s (fun t =>
          getHport t port.val = { h with perst := low } ∧ only t ∧ t = { s with hports := t.hports }))
      ∧ (low = true → h.l0 = true → Does (.perstN port low) s (fun t =>
          getHport t port.val = { h with perst := true, l0 := false, downUs := nowUs s } ∧ only t)))
  ∧ (∀ (s : State) (fn : Fin 32) (pair : BitVec 8) (e : Fin 13) (j : Nat) (x : Job), clocksRun s = true →
      let p := getPair s (pairKey fn.val pair.toNat)
      let halts (t : State) : Prop := (getPair t (pairKey fn.val pair.toNat)).halted = true
        ∧ (getPair t (pairKey fn.val pair.toNat)).cause = 5 ∧ (getPair t (pairKey fn.val pair.toNat)).reading = false
        ∧ (getFn t fn.val).event.getLsbD 0 = true ∧ t = { s with pairs := t.pairs, fns := t.fns, vecs := t.vecs, logq := t.logq }
      (p.reading = false → exec (.hostReadTimeout (.doorbell fn pair)) s = .next s)
      ∧ (p.reading = true → pairRuns s fn.val pair.toNat = true → Does (.hostReadTimeout (.doorbell fn pair)) s halts)
      ∧ (p.reading = true → pairRuns s fn.val pair.toNat = false → Does (.hostReadTimeout (.doorbell fn pair)) s (fun t =>
          getPair t (pairKey fn.val pair.toNat) = { p with reading := false } ∧ t = { s with pairs := t.pairs }))
      ∧ (pairRuns s fn.val pair.toNat = true → p.head ≠ p.prod → fetchCount p ≠ 0 → Does (.hostReadTimeout (.entries fn pair)) s halts)
      ∧ (pairRuns s fn.val pair.toNat = false ∨ p.head = p.prod ∨ fetchCount p = 0 → exec (.hostReadTimeout (.entries fn pair)) s = .next s)
      ∧ (getJob s e.val j = none → exec (.hostReadTimeout (.command e j)) s = .next s)
      ∧ (Given s e.val j 0x20 x → copyCodes s x = [] → (copySrc x).kind = 0 → Does (.hostReadTimeout (.command e j)) s (fun t =>
          Completes e.val j x stTimeout (leBytes 4 0) 0xFFFF noTide s t ∧ t = { s with engines := t.engines, pairs := t.pairs }))
      ∧ (Given s e.val j 0x01 x → 0 < cmdNat x 4 2 → cmdNat x 4 2 ≤ 4096 → cmdNat x 8 8 % 32 = 0 →
          Does (.hostReadTimeout (.command e j)) s (fun t =>
            Completes e.val j x stTimeout (leBytes 2 0 ++ leBytes 2 0xFFFF ++ leBytes 2 0) 0xFFFF noTide s t
              ∧ t = { s with engines := t.engines, pairs := t.pairs })))
  ∧ (∀ (s : State) (via : Via),
      (lhUp s = false → exec .smbClockLowTimeout s = .next s ∧ exec (.mctpGapTimeout via) s = .next s)
      ∧ (via = .mailbox → exec (.mctpGapTimeout via) s = .next s)
      ∧ (lhUp s = true → Does .smbClockLowTimeout s (fun t => Counted uModule 12 1 s t ∧ t = { s with cnt := t.cnt }))
      ∧ (lhUp s = true → via ≠ .mailbox → Does (.mctpGapTimeout via) s (fun t => Counted uModule 12 1 s t ∧ t = { s with cnt := t.cnt }))
      ∧ Does .inputPowerRemoval s (fun t => t.power = State.reset.power ∧ t.up = State.reset.up ∧ t.dbg = State.reset.dbg
          ∧ t.cores = State.reset.cores ∧ t.regions = State.reset.regions ∧ t.engines = State.reset.engines ∧ t.pairs = State.reset.pairs
          ∧ t.sensors = State.reset.sensors ∧ t.nodes = State.reset.nodes ∧ t.lh.stage = 0 ∧ t.lh.log = State.reset.lh.log
          ∧ t.lh.mbx = State.reset.lh.mbx ∧ t.lh.journal = s.lh.journal ∧ t.lh.bankA = s.lh.bankA ∧ t.lh.bankB = s.lh.bankB
          ∧ t.lh.rollback = s.lh.rollback ∧ t.lh.revoked = s.lh.revoked ∧ t.lh.savedMap = s.lh.savedMap
          ∧ t.hmem = s.hmem ∧ t.hchans = s.hchans ∧ t.harbours = s.harbours ∧ t.pending = s.pending))

/-- A TAP that the master scans takes the instruction with what its data register captures, and only an accepted EXTEST drives pins.
While the external TAP does not drive the chain its scans reach the stub. Lighthouse takes the chain at once, and the loss is
logged. TRST_N resets the TAPs that the connector reaches. REGACC opens its segment, answers with STATUS and DATA, and a write
from outside to an owned or quarantined region is refused. CORE_SIB opens on a clean region only, stops its cores, and resets
every core when it closes, with a forfeit notice of each to every other region. SND_SEL refuses a signal that its source has
not, and a third region pin (R143, R525, R526, R527, R528, R529, R530, R531, R532, R534, R537, R538). -/
def Obligations.DebugAccessOnTheChain : Prop :=
  (∀ (s : State) (ext : Bool) (tap : Fin 33) (pins data : BitVec 32),
    let k := tap.val
    let byp : BitVec 8 × Word × Option (BitVec 32) := (0xFF, 0, none)
    let reg := tget 0 s.dbg.boundary k
    let part : Nat := if k = 32 then 0xA512 else 0xB512
    let accepts : Bool := decide (k < 32) && (bridgeDown s k || s.up.fatal)
    let rows : List (Instr × Bool × (BitVec 8 × Word × Option (BitVec 32))) :=
      [(.extest ext tap, false, if accepts then (0x00, reg, some reg) else byp),
       (.samplePreload ext tap pins data, false, if k < 32 then (0x01, pins &&& cellMask k, none) else byp),
       (.idcode ext tap, true, (0x02, idcodeOf part, none)),
       (.ijsel ext tap, false, if k = 32 then (0x10, 0, none) else byp), (.bypass ext tap, false, byp)]
    (∀ r ∈ rows,
        (ext = true → extDrives s = false →
          (s.dbg.trst = true → exec r.1 s = .next s)
          ∧ (s.dbg.trst = false → Does r.1 s (fun t => t = { s with dbg := { s.dbg with stubIr := t.dbg.stubIr, dr := t.dbg.dr } }
              ∧ t.dbg.stubIr = (if r.2.1 then 1 else 3) ∧ tget 0 t.dbg.dr 33 = (if r.2.1 then idcodeOf 0xC512 else 0)
              ∧ ∀ x, x ≠ 33 → tget 0 t.dbg.dr x = tget 0 s.dbg.dr x)))
        ∧ (ext = false ∨ extDrives s = true → mayScan ext s = false ∨ inChain s k = false → exec r.1 s = .next s)
        ∧ (mayScan ext s = true → inChain s k = true → Does r.1 s (fun t =>
            irOf t k = r.2.2.1 ∧ tget 0 t.dbg.dr k = r.2.2.2.1 ∧ tget none t.dbg.driven k = r.2.2.2.2
              ∧ (∀ x, x ≠ k → irOf t x = irOf s x ∧ tget 0 t.dbg.dr x = tget 0 s.dbg.dr x ∧ tget none t.dbg.driven x = tget none s.dbg.driven x)
              ∧ (∀ x, x ≠ k → tget 0 t.dbg.boundary x = tget 0 s.dbg.boundary x)
              ∧ (r.1 ≠ .samplePreload ext tap pins data → t.dbg.boundary = s.dbg.boundary)
              ∧ t = { s with dbg := { s.dbg with ir := t.dbg.ir, dr := t.dbg.dr, driven := t.dbg.driven, boundary := t.dbg.boundary, chain := t.dbg.chain } }
              ∧ ∀ b, b < 32 → t.dbg.chain.getLsbD b = decide ((getBridge s b).shiState ≠ 5))))
      ∧ (mayScan ext s = true → inChain s k = true → k < 32 → Does (.samplePreload ext tap pins data) s (fun t =>
          tget 0 t.dbg.boundary k = data &&& cellMask k))
      ∧ (idcodeOf part).extractLsb' 0 12 = 0x58B ∧ (idcodeOf part).extractLsb' 12 16 = BitVec.ofNat 16 part)
  ∧ (∀ (s : State) (v : BitVec 32) (release low : Bool),
      let on : Bool := v.getLsbD 0 && s.up.ready && !s.dbg.lhHold
      let pre := w1c s.dbg.preempted (v.getLsbD 3) false
      let lost (by' : Nat) (src : Nat) (d : Debug) (t : State) : Prop :=
        t.logq = (debugSession by' src 0xFFFF s).logq ∧ t = { s with dbg := t.dbg, logq := t.logq } ∧ t.dbg.ir = [] ∧ t.dbg.driven = []
          ∧ tget 0 t.dbg.dr 33 = tget 0 s.dbg.dr 33
          ∧ t.dbg = { d with ir := t.dbg.ir, driven := t.dbg.driven, dr := t.dbg.dr, chain := t.dbg.chain, stubIr := 1 }
      let found (d : Debug) (t : State) : Prop :=
        t.logq = (debugSession 0 1 0xFFFF s).logq ∧ t = { s with dbg := t.dbg, logq := t.logq } ∧ t.dbg = { d with chain := t.dbg.chain }
          ∧ ∀ b, b < 32 → t.dbg.chain.getLsbD b = decide ((getBridge s b).shiState ≠ 5)
      let d1 : Debug := { s.dbg with extEn := v.getLsbD 0, preempted := pre }
      (clocksRun s = true →
        (barOpen s 0 = false → exec (.dbgCtlWrite v) s = .next s)
        ∧ (barOpen s 0 = true → extDrives s = on → Does (.dbgCtlWrite v) s (fun t => t = { s with dbg := d1 }))
        ∧ (barOpen s 0 = true → extDrives s = true → on = false → Does (.dbgCtlWrite v) s (lost 1 1 d1))
        ∧ (barOpen s 0 = true → extDrives s = false → on = true → Does (.dbgCtlWrite v) s (found d1)))
      ∧ (lhUp s = false → exec (.lhPreempt release) s = .next s)
      ∧ (lhUp s = true → extDrives s = true → Does (.lhPreempt false) s (lost 2 0 { s.dbg with lhHold := true, preempted := true }))
      ∧ (lhUp s = true → extDrives s = false → Does (.lhPreempt false) s (fun t => t = { s with dbg := { s.dbg with lhHold := true } }))
      ∧ (lhUp s = true → extDrives s = false → s.dbg.extEn = true → s.up.ready = true →
          Does (.lhPreempt true) s (found { s.dbg with lhHold := false }))
      ∧ (lhUp s = true → extDrives s = true ∨ s.dbg.extEn = false ∨ s.up.ready = false →
          Does (.lhPreempt true) s (fun t => t = { s with dbg := { s.dbg with lhHold := false } }))
      ∧ (low = false → Does (.trstN low) s (fun t => t = { s with dbg := { s.dbg with trst := false } }))
      ∧ (low = true → extDrives s = false → Does (.trstN low) s (fun t => t = { s with dbg := { s.dbg with trst := true, stubIr := 1 } }))
      ∧ (low = true → extDrives s = true → Does (.trstN low) s (fun t => t.dbg.trst = true ∧ t.dbg.ir = [] ∧ t.dbg.driven = []
          ∧ t = { s with dbg := t.dbg } ∧ t.dbg.stubIr = s.dbg.stubIr)))
  ∧ (∀ (s : State) (ext : Bool) (region : Fin 512) (space : Fin 4) (row col : BitVec 5) (off : BitVec 16) (data : BitVec 64),
      let n := region.val
      let opens : Bool := netOpen ext s && segOpens s n
      let rd : Instr := .regaccRead ext region space row col off
      let wr : Instr := .regaccWrite ext region space row col off data
      let r := getRegion s n
      let answers (a : BitVec 2 × BitVec 64) (t : State) : Prop := tget (0, 0) t.dbg.acc n = a
        ∧ t.dbg.seg = setBit s.dbg.seg n ∧ t.dbg.ctlSib = setBit s.dbg.ctlSib n ∧ (∀ x, x ≠ n → tget (0, 0) t.dbg.acc x = tget (0, 0) s.dbg.acc x)
        ∧ t.dbg = { s.dbg with seg := t.dbg.seg, ctlSib := t.dbg.ctlSib, acc := t.dbg.acc }
      let still (t : State) : Prop := t = { s with dbg := t.dbg }
      (opens = false → exec rd s = .next s ∧ exec wr s = .next s ∧ exec (.coreSibOpen ext region) s = .next s)
      ∧ (opens = true →
          (localUnit n space row col = none → Does rd s (fun t => answers (1, 0) t ∧ still t) ∧ Does wr s (fun t => answers (1, 0) t ∧ still t))
          ∧ (ext = true → r.owned = true ∨ eff s (uRegion n) = 3 → Does wr s (fun t => answers (1, 0) t ∧ still t))
          ∧ (space = 0 → row = 0 → col = 0 → off = 4 →
              Does rd s (fun t => answers (0, r.scrubSeed.setWidth 64) t ∧ still t)
              ∧ (ext = false ∨ (r.owned = false ∧ eff s (uRegion n) ≠ 3) → Does wr s (fun t =>
                  answers (0, (data.setWidth 32).setWidth 64) t ∧ getRegion t n = { r with scrubSeed := data.setWidth 32 }
                    ∧ (∀ m, m ≠ n → getRegion t m = getRegion s m) ∧ t = { s with dbg := t.dbg, regions := t.regions })))
          ∧ (regionClean s n = false ∨ s.dbg.coreSib.getLsbD n = true → exec (.coreSibOpen ext region) s = .next s)
          ∧ (regionClean s n = true → s.dbg.coreSib.getLsbD n = false → Does (.coreSibOpen ext region) s (fun t =>
              t.dbg = { s.dbg with seg := setBit s.dbg.seg n, coreSib := setBit s.dbg.coreSib n }
                ∧ (∀ k ∈ regionCores n, (getCore t k).run = .stopped)
                ∧ (r.ft = none → (∀ k ∈ regionCores n, getCore t k = { getCore s k with run := .stopped })
                    ∧ (∀ k, k ∉ regionCores n → getCore t k = getCore s k)
                    ∧ t.logq = (debugSession 3 (if ext then 1 else 0) n s).logq ∧ t = { s with cores := t.cores, dbg := t.dbg, logq := t.logq }))))
      ∧ (netOpen ext s = false ∨ s.dbg.coreSib.getLsbD n = false → exec (.coreSibClose ext region) s = .next s)
      ∧ (netOpen ext s = true → s.dbg.coreSib.getLsbD n = true → Does (.coreSibClose ext region) s (fun t =>
          t.dbg = { s.dbg with coreSib := clearBit s.dbg.coreSib n } ∧ (getRegion t n).clean = false ∧ (getRegion t n).scanned = true
            ∧ (∀ m, m ≠ n → getRegion t m = getRegion s m)
            ∧ (∀ k ∈ regionCores n, ∀ id x, logicalId s k = some id → x < 512 → x ≠ n →
                Ctl.forfeitCore x (BitVec.ofNat 18 id) (BitVec.ofNat 4 (ownModule s)) ∈ t.ctl)
            ∧ (∀ k ∈ regionCores n, getCore t k = coreReset (getCore s k) ∧ (getCore t k).run = .stopped ∧ (getCore t k).spad = (getCore s k).spad
                ∧ (getCore t k).sreg = [] ∧ (getCore t k).queues = [])
            ∧ (∀ k, k ∉ regionCores n → getCore t k = getCore s k) ∧ t.logq = (debugSession 4 (if ext then 1 else 0) n s).logq
            ∧ t = { s with cores := t.cores, regions := t.regions, dbg := t.dbg, logq := t.logq, cnt := t.cnt, ctl := t.ctl })))
  ∧ (∀ (s : State) (k : Fin 8) (v : BitVec 32), clocksRun s = true →
      let sig := v.toNat / 2048 % 64
      let src := v.toNat % 4
      (barOpen s 0 = false ∨ (src = 1 ∧ 5 < sig) ∨ (src = 2 ∧ (sig < 0x10 ∨ 0x18 < sig ∨ 32 ≤ v.toNat / 4 % 512)) ∨ (src = 3 ∧ (sig < 0x20 ∨ 0x28 < sig))
          ∨ (src = 3 ∧ 2 ≤ regionPins s k.val) → exec (.sndSelWrite k v) s = .next s)
      ∧ (barOpen s 0 = true → sndOk v = true → ¬(src = 3 ∧ 2 ≤ regionPins s k.val) → Does (.sndSelWrite k v) s (fun t =>
          tget 0 t.dbg.snd k.val = v &&& 0x3FFFF#32 ∧ (∀ x, x ≠ k.val → tget 0 t.dbg.snd x = tget 0 s.dbg.snd x)
            ∧ t = { s with dbg := { s.dbg with snd := t.dbg.snd }, logq := t.logq })))

/-- The front command leaves the queue and the step's outcome is that of exec on the state with the rest. With nothing waiting, one
cycle of the idle module passes (the model's choice, log 1): the queue stays empty, cclk goes on by 1 where no step of the
timebase is due, and nothing else moves while the clocks stand (R184, R500). -/
def Obligations.StepRunsTheFrontCommand : Prop :=
  (∀ (c : Instr) (rest : List Instr) (s : State), step { s with pending := c :: rest } = exec c { s with pending := rest })
  ∧ (∀ s : State, s.pending = [] → ∃ t, step s = .next t ∧ t.pending = [] ∧ (s.dom.step = none → t.cclk = s.cclk + 1)
      ∧ (clocksRun s = false → t = { s with cclk := s.cclk + 1 }))

/-- A command whose operands are well formed is neither refused nor ends in a fault, in any state. The two rows whose operand types
admit more than the spec lets their sender give are refused by one name: a word given as illegal that R50 calls legal, and a
peer's record that has not 64 bytes (R49, R50, R478, R545). -/
def Obligations.EveryWellFormedCommandCompletes : Prop :=
  ∀ (i : Instr) (s : State),
    (i.wellFormed = true → ∃ t, exec i s = .next t)
      ∧ (i.wellFormed = false → exec i s = .refused .illFormed
          ∧ ((∃ c w, i = .illegal c w ∧ illegalWord w = false) ∨ (∃ p b, i = .peerNotice p b ∧ b.length ≠ 64)))

/-- Reset is the first phase of the bring-up, with nothing powered, no command waiting and no packet in flight (the model's choice
of the moment, log 5 and log 6). The registers below have the reset values of the spec's tables, and the invariant holds (R20,
R45, R83, R200, R294, R345, R446, R519, R526, R544, R556, R571). -/
def Obligations.ResetStandsAtItsValues : Prop :=
  Inv State.reset ∧ State.reset.pending = [] ∧ State.reset.packets = [] ∧ State.reset.up.phase = 1 ∧ State.reset.up.ready = false
    ∧ clocksRun State.reset = false
    ∧ (∀ k, (getCore State.reset k).run = .stopped ∧ (getCore State.reset k).fault.valid = false ∧ (getCore State.reset k).tlast = 0xFFFFFFFF
        ∧ (∀ r, sGet (getCore State.reset k) r = 0) ∧ (∀ i, (getSlot (getCore State.reset k) i).channel = 0xFFF ∧ (getSlot (getCore State.reset k) i).kind = 0))
    ∧ (∀ n, (getRegion State.reset n).chwLimit = 0x010000 ∧ (getRegion State.reset n).chwEn = true ∧ (getRegion State.reset n).w1 = 8
        ∧ (getRegion State.reset n).w2 = 8 ∧ (getRegion State.reset n).owned = false ∧ ∀ r, pointOf State.reset n r = 16)
    ∧ (∀ b, (getBridge State.reset b).tailTimeout = 64 ∧ (getBridge State.reset b).tailBurst = 16 ∧ (getBridge State.reset b).wmHigh = 768
        ∧ (getBridge State.reset b).wmLow = 256)
    ∧ (∀ c, (getChan State.reset c).limit = 24576 ∧ (getChan State.reset c).mode = false)
    ∧ (∀ f, (getFn State.reset f).eventEn = 0xFF ∧ (getFn State.reset f).resetBusy = false) ∧ (∀ v, (getVec State.reset v).masked = true)
    ∧ State.reset.power.capKw = 23 ∧ State.reset.power.capEn = true ∧ State.reset.dom.priority = 15 ∧ State.reset.up.interval = 360
    ∧ State.reset.dbg.extEn = false

/-- From every state that keeps the invariant, reached or not, every step that answers a next state, of any command or of the idle
module, gives a state that keeps it: host memory and the table of cores stay in the one canonical form, so that equal machines
are equal data, and the count of CCLK cycles inside one ACLK step stays below 50 (R4, R9, R184, R330). -/
def Obligations.StepKeepsTheInvariant : Prop :=
  ∀ (s t : State), Inv s → step s = .next t → Inv t

/-- A command whose step answers a next state leaves behind it the rest of the queue, unchanged and in its order: no command adds to
the queue, drops a waiting command or reorders it, not the loss of power either (the queue is the model's own, log 1). With n
commands waiting, n steps that all answer next states serve each once (R49, R545). -/
def Obligations.CommandsLeaveTheQueueInOrder : Prop :=
  (∀ (s t : State) (c : Instr) (rest : List Instr), s.pending = c :: rest → step s = .next t → t.pending = rest)
    ∧ ∀ (n : Nat) (f : Nat → State), (∀ k, k < n → step (f k) = .next (f (k + 1))) → n ≤ (f 0).pending.length →
        (f n).pending = (f 0).pending.drop n

/-- From every state in which at most two pins select region signals, every step that answers a next state leaves at most two. A
write of SND_SEL that would make a third changes nothing (R538). -/
def Obligations.RegionSignalsReachTwoPinsAtMost : Prop :=
  (∀ (s t : State), regionSelects s ≤ 2 → step s = .next t → regionSelects t ≤ 2)
    ∧ (∀ (s : State) (k : Fin 8) (v : BitVec 32), v.extractLsb' 0 2 = 3#2 → regionPins s k.val = 2 →
        exec (.sndSelWrite k v) s = .next s)

/-- The data register of a TAP that takes IDCODE captures MINOR of ID_DEV in [31:28], the part in [27:12], 0x2C5 in [11:1] and 1 in
[0]: of the wafer, a bridge, or the stub that the connector reaches while it does not drive the chain (R529). -/
def Obligations.IdcodeNamesPartAndMaker : Prop :=
  ∀ (s : State) (ext : Bool) (tap : Fin 33),
    let minor := BitVec.ofNat 4 (Config.idStepMinor.toNat / 16)
    let reads (w : BitVec 32) (part : BitVec 16) : Prop :=
      w.extractLsb' 28 4 = minor ∧ w.extractLsb' 12 16 = part ∧ w.extractLsb' 1 11 = 0x2C5 ∧ w.extractLsb' 0 1 = 1
    (mayScan ext s = true → inChain s tap.val = true → Does (.idcode ext tap) s (fun t =>
        reads (tget 0 t.dbg.dr tap.val) (if tap.val = 32 then 0xA512 else 0xB512)
          ∧ (tap.val < 32 → minor = 0 → tget 0 t.dbg.dr tap.val = 0x0B51258B)))
      ∧ (extDrives s = false → s.dbg.trst = false → Does (.idcode true tap) s (fun t => reads (tget 0 t.dbg.dr 33) 0xC512))
end

