-- ==== Sys2Proof/Laws/Tables.lean ====
section
/-! SUPPORT. Laws/Tables.lean: what the sparse tables and memories answer after a write, and that every operation on them keeps
the canonical form. -/

namespace Sys2Proof.Machine

open Sys2Proof

variable {α : Type}

theorem tget_terase_self (d : α) (t : Tbl α) (k : Nat) : tget d (terase k t) k = d := by
  induction t with
  | nil => rfl
  | cons e t ih =>
    obtain ⟨k', v'⟩ := e
    by_cases h : k = k' <;> simp [terase, tget, h, ih]
    simpa [h] using ih

theorem tget_terase_ne (d : α) (t : Tbl α) (k j : Nat) (h : j ≠ k) : tget d (terase k t) j = tget d t j := by
  induction t with
  | nil => rfl
  | cons e t ih =>
    obtain ⟨k', v'⟩ := e
    by_cases h1 : k = k'
    · subst h1; simp [terase, tget, h, ih]
    · simp [terase, tget, h1, ih]

theorem tget_tins_self (d : α) (t : Tbl α) (k : Nat) (v : α) : tget d (tins k v t) k = v := by
  induction t with
  | nil => simp [tins, tget]
  | cons e t ih =>
    obtain ⟨k', v'⟩ := e
    by_cases h1 : k < k'
    · simp [tins, tget, h1]
    · by_cases h2 : k = k' <;> simp [tins, tget, h1, h2, ih]

theorem tget_tins_ne (d : α) (t : Tbl α) (k j : Nat) (v : α) (h : j ≠ k) : tget d (tins k v t) j = tget d t j := by
  induction t with
  | nil => simp [tins, tget, h]
  | cons e t ih =>
    obtain ⟨k', v'⟩ := e
    by_cases h1 : k < k'
    · simp [tins, tget, h1, h]
    · by_cases h2 : k = k'
      · subst h2; simp [tins, tget, h]
      · simp [tins, tget, h1, h2, ih]

/-- A key that was written reads as what was written. -/
@[simp] theorem tget_tset_self [DecidableEq α] (d : α) (t : Tbl α) (k : Nat) (v : α) : tget d (tset d t k v) k = v := by
  unfold tset
  split
  · rename_i h; rw [h, tget_terase_self]
  · exact tget_tins_self d t k v

/-- Every other key reads as before. -/
theorem tget_tset_ne [DecidableEq α] (d : α) (t : Tbl α) (k j : Nat) (v : α) (h : j ≠ k) :
    tget d (tset d t k v) j = tget d t j := by
  unfold tset
  split
  · exact tget_terase_ne d t k j h
  · exact tget_tins_ne d t k j v h

/-- The keys of a table in canonical form are at least `n`. -/
def TblFrom [DecidableEq α] (d : α) (n : Nat) (t : Tbl α) : Prop :=
  twf d t = true ∧ ∀ e ∈ t.head?, n ≤ e.1

theorem tblFrom_cons [DecidableEq α] (d : α) (n k : Nat) (v : α) (t : Tbl α) :
    TblFrom d n ((k, v) :: t) ↔ v ≠ d ∧ n ≤ k ∧ TblFrom d (k + 1) t := by
  cases t with
  | nil => simp [TblFrom, twf, and_comm]
  | cons e t => obtain ⟨k', v'⟩ := e; simp only [TblFrom, twf, List.head?_cons, Option.mem_def, Option.some.injEq, Bool.and_eq_true, decide_eq_true_eq]; grind

theorem tblFrom_mono [DecidableEq α] (d : α) (m n : Nat) (t : Tbl α) (h : m ≤ n) (ht : TblFrom d n t) : TblFrom d m t :=
  ⟨ht.1, fun e he => Nat.le_trans h (ht.2 e he)⟩

theorem tblFrom_terase [DecidableEq α] (d : α) (n k : Nat) (t : Tbl α) (ht : TblFrom d n t) : TblFrom d n (terase k t) := by
  induction t generalizing n with
  | nil => exact ht
  | cons e t ih =>
    obtain ⟨k', v'⟩ := e
    have h := (tblFrom_cons d n k' v' t).1 ht
    by_cases h1 : k = k'
    · simpa [terase, h1] using tblFrom_mono d n (k' + 1) _ (by omega) (h1 ▸ ih (k' + 1) h.2.2)
    · simpa [terase, h1] using (tblFrom_cons d n k' v' _).2 ⟨h.1, h.2.1, ih (k' + 1) h.2.2⟩

theorem tblFrom_tins [DecidableEq α] (d : α) (n k : Nat) (v : α) (t : Tbl α) (hn : n ≤ k) (hv : v ≠ d)
    (ht : TblFrom d n t) : TblFrom d n (tins k v t) := by
  induction t generalizing n with
  | nil => exact (tblFrom_cons d n k v []).2 ⟨hv, hn, by simp [TblFrom, twf]⟩
  | cons e t ih =>
    obtain ⟨k', v'⟩ := e
    have h := (tblFrom_cons d n k' v' t).1 ht
    by_cases h1 : k < k'
    · simpa [tins, h1] using (tblFrom_cons d n k v _).2 ⟨hv, hn, (tblFrom_cons d (k + 1) k' v' t).2 ⟨h.1, by omega, h.2.2⟩⟩
    · by_cases h2 : k = k'
      · subst h2; simpa [tins] using (tblFrom_cons d n k v t).2 ⟨hv, hn, h.2.2⟩
      · simpa [tins, h1, h2] using (tblFrom_cons d n k' v' _).2 ⟨h.1, h.2.1, ih (k' + 1) (by omega) h.2.2⟩

/-- Writing keeps the canonical form of a table. -/
theorem twf_tset [DecidableEq α] (d : α) (t : Tbl α) (k : Nat) (v : α) (h : twf d t = true) : twf d (tset d t k v) = true := by
  have h0 : TblFrom d 0 t := ⟨h, fun _ _ => Nat.zero_le _⟩
  unfold tset
  split
  · exact (tblFrom_terase d 0 k t h0).1
  · rename_i hv; exact (tblFrom_tins d 0 k v t (Nat.zero_le _) hv h0).1

/-! ### Memories -/

theorem mget_mset_self (m : Mem) (a : Nat) (v : Byte) : mget (mset m a v) a = v := tget_tset_self 0 m a v

theorem mget_mset_ne (m : Mem) (a b : Nat) (v : Byte) (h : b ≠ a) : mget (mset m a v) b = mget m b :=
  tget_tset_ne 0 m a b v h

theorem wf_mset (m : Mem) (a : Nat) (v : Byte) (h : Memory.wf m = true) : Memory.wf (mset m a v) = true := twf_tset 0 m a v h

/-- Every memory write keeps the canonical form. -/
theorem wf_writeBytes (bs : List Byte) (m : Mem) (a : Nat) (h : Memory.wf m = true) :
    Memory.wf (writeBytes m a bs) = true := by
  induction bs generalizing m a with
  | nil => exact h
  | cons b t ih => exact ih _ _ (wf_mset m a b h)

/-- A byte outside the range written reads as before. -/
theorem mget_writeBytes_out (bs : List Byte) (m : Mem) (a b : Nat) (h : b < a ∨ a + bs.length ≤ b) :
    mget (writeBytes m a bs) b = mget m b := by
  induction bs generalizing m a with
  | nil => rfl
  | cons c t ih =>
    simp only [List.length_cons] at h
    rw [writeBytes, ih (mset m a c) (a + 1) (by omega), mget_mset_ne _ _ _ _ (by omega)]

/-- A byte of the range written reads as what was written there. -/
theorem mget_writeBytes_in (bs : List Byte) (m : Mem) (a i : Nat) (h : i < bs.length) :
    mget (writeBytes m a bs) (a + i) = bs[i] := by
  induction bs generalizing m a i with
  | nil => simp at h
  | cons c t ih =>
    cases i with
    | zero => rw [writeBytes, mget_writeBytes_out _ _ _ _ (by omega)]; exact mget_mset_self m a c
    | succ i =>
      have := ih (mset m a c) (a + 1) i (by simpa using h)
      rw [writeBytes, show a + (i + 1) = a + 1 + i by omega, this]; rfl

@[simp] theorem length_readBytes (m : Mem) (a n : Nat) : (readBytes m a n).length = n := by
  induction n generalizing a with
  | zero => rfl
  | succ n ih => simp [readBytes, ih]

/-- What was written is read back. -/
theorem readBytes_writeBytes (bs : List Byte) (m : Mem) (a : Nat) : readBytes (writeBytes m a bs) a bs.length = bs := by
  induction bs generalizing m a with
  | nil => rfl
  | cons c t ih =>
    show mget (writeBytes (mset m a c) (a + 1) t) a :: readBytes (writeBytes (mset m a c) (a + 1) t) (a + 1) t.length = _
    rw [ih, mget_writeBytes_out _ _ _ _ (by omega), mget_mset_self]

@[simp] theorem length_leBytes (n v : Nat) : (leBytes n v).length = n := by
  induction n generalizing v with
  | zero => rfl
  | succ n ih => simp [leBytes, ih]

/-- A number written as little-endian bytes reads back, modulo its size. -/
theorem ofBytes_leBytes (n v : Nat) : ofBytes (leBytes n v) = v % 256 ^ n := by
  induction n generalizing v with
  | zero => simp [leBytes, ofBytes, Nat.mod_one]
  | succ n ih =>
    simp only [leBytes, ofBytes, ih, BitVec.toNat_ofNat]
    have h : v % 256 ^ (n + 1) = v % 256 + 256 * (v / 256 % 256 ^ n) := by
      rw [Nat.pow_succ', Nat.mod_mul]
    rw [h]

end Sys2Proof.Machine
end

