-- ==== Sys2Proof/Laws/State.lean ====
section
/-! SUPPORT. Laws/State.lean: what each named update of State leaves alone, field by field, and what it gives back when it is
read. -/

namespace Sys2Proof.Machine

open Sys2Proof

/-! ### setCore -/

@[simp] theorem setCore_pending (s : State) (k : Nat) (v : Core) : (setCore s k v).pending = s.pending := rfl
@[simp] theorem setCore_cclk (s : State) (k : Nat) (v : Core) : (setCore s k v).cclk = s.cclk := rfl
@[simp] theorem setCore_routers (s : State) (k : Nat) (v : Core) : (setCore s k v).routers = s.routers := rfl
@[simp] theorem setCore_regions (s : State) (k : Nat) (v : Core) : (setCore s k v).regions = s.regions := rfl
@[simp] theorem setCore_packets (s : State) (k : Nat) (v : Core) : (setCore s k v).packets = s.packets := rfl
@[simp] theorem setCore_serial (s : State) (k : Nat) (v : Core) : (setCore s k v).serial = s.serial := rfl
@[simp] theorem setCore_ctl (s : State) (k : Nat) (v : Core) : (setCore s k v).ctl = s.ctl := rfl
@[simp] theorem setCore_cnt (s : State) (k : Nat) (v : Core) : (setCore s k v).cnt = s.cnt := rfl
@[simp] theorem setCore_health (s : State) (k : Nat) (v : Core) : (setCore s k v).health = s.health := rfl
@[simp] theorem setCore_logq (s : State) (k : Nat) (v : Core) : (setCore s k v).logq = s.logq := rfl
@[simp] theorem setCore_dom (s : State) (k : Nat) (v : Core) : (setCore s k v).dom = s.dom := rfl
@[simp] theorem setCore_reloc (s : State) (k : Nat) (v : Core) : (setCore s k v).reloc = s.reloc := rfl
@[simp] theorem setCore_tid (s : State) (k : Nat) (v : Core) : (setCore s k v).tid = s.tid := rfl
@[simp] theorem setCore_phase (s : State) (k : Nat) (v : Core) : (setCore s k v).phase = s.phase := rfl
@[simp] theorem setCore_engines (s : State) (k : Nat) (v : Core) : (setCore s k v).engines = s.engines := rfl
@[simp] theorem setCore_bridges (s : State) (k : Nat) (v : Core) : (setCore s k v).bridges = s.bridges := rfl
@[simp] theorem setCore_ports (s : State) (k : Nat) (v : Core) : (setCore s k v).ports = s.ports := rfl
@[simp] theorem setCore_hmem (s : State) (k : Nat) (v : Core) : (setCore s k v).hmem = s.hmem := rfl
@[simp] theorem setCore_hports (s : State) (k : Nat) (v : Core) : (setCore s k v).hports = s.hports := rfl
@[simp] theorem setCore_fns (s : State) (k : Nat) (v : Core) : (setCore s k v).fns = s.fns := rfl
@[simp] theorem setCore_pairs (s : State) (k : Nat) (v : Core) : (setCore s k v).pairs = s.pairs := rfl
@[simp] theorem setCore_vecs (s : State) (k : Nat) (v : Core) : (setCore s k v).vecs = s.vecs := rfl
@[simp] theorem setCore_streams (s : State) (k : Nat) (v : Core) : (setCore s k v).streams = s.streams := rfl
@[simp] theorem setCore_load (s : State) (k : Nat) (v : Core) : (setCore s k v).load = s.load := rfl
@[simp] theorem setCore_reqId (s : State) (k : Nat) (v : Core) : (setCore s k v).reqId = s.reqId := rfl
@[simp] theorem setCore_hchans (s : State) (k : Nat) (v : Core) : (setCore s k v).hchans = s.hchans := rfl
@[simp] theorem setCore_harbours (s : State) (k : Nat) (v : Core) : (setCore s k v).harbours = s.harbours := rfl
@[simp] theorem setCore_sensors (s : State) (k : Nat) (v : Core) : (setCore s k v).sensors = s.sensors := rfl
@[simp] theorem setCore_nodes (s : State) (k : Nat) (v : Core) : (setCore s k v).nodes = s.nodes := rfl
@[simp] theorem setCore_lh (s : State) (k : Nat) (v : Core) : (setCore s k v).lh = s.lh := rfl
@[simp] theorem setCore_power (s : State) (k : Nat) (v : Core) : (setCore s k v).power = s.power := rfl
@[simp] theorem setCore_up (s : State) (k : Nat) (v : Core) : (setCore s k v).up = s.up := rfl
@[simp] theorem setCore_dbg (s : State) (k : Nat) (v : Core) : (setCore s k v).dbg = s.dbg := rfl

/-! ### updCore -/

@[simp] theorem updCore_pending (s : State) (k : Nat) (f : Core → Core) : (updCore s k f).pending = s.pending := rfl
@[simp] theorem updCore_cclk (s : State) (k : Nat) (f : Core → Core) : (updCore s k f).cclk = s.cclk := rfl
@[simp] theorem updCore_routers (s : State) (k : Nat) (f : Core → Core) : (updCore s k f).routers = s.routers := rfl
@[simp] theorem updCore_regions (s : State) (k : Nat) (f : Core → Core) : (updCore s k f).regions = s.regions := rfl
@[simp] theorem updCore_packets (s : State) (k : Nat) (f : Core → Core) : (updCore s k f).packets = s.packets := rfl
@[simp] theorem updCore_serial (s : State) (k : Nat) (f : Core → Core) : (updCore s k f).serial = s.serial := rfl
@[simp] theorem updCore_ctl (s : State) (k : Nat) (f : Core → Core) : (updCore s k f).ctl = s.ctl := rfl
@[simp] theorem updCore_cnt (s : State) (k : Nat) (f : Core → Core) : (updCore s k f).cnt = s.cnt := rfl
@[simp] theorem updCore_health (s : State) (k : Nat) (f : Core → Core) : (updCore s k f).health = s.health := rfl
@[simp] theorem updCore_logq (s : State) (k : Nat) (f : Core → Core) : (updCore s k f).logq = s.logq := rfl
@[simp] theorem updCore_dom (s : State) (k : Nat) (f : Core → Core) : (updCore s k f).dom = s.dom := rfl
@[simp] theorem updCore_reloc (s : State) (k : Nat) (f : Core → Core) : (updCore s k f).reloc = s.reloc := rfl
@[simp] theorem updCore_tid (s : State) (k : Nat) (f : Core → Core) : (updCore s k f).tid = s.tid := rfl
@[simp] theorem updCore_phase (s : State) (k : Nat) (f : Core → Core) : (updCore s k f).phase = s.phase := rfl
@[simp] theorem updCore_engines (s : State) (k : Nat) (f : Core → Core) : (updCore s k f).engines = s.engines := rfl
@[simp] theorem updCore_bridges (s : State) (k : Nat) (f : Core → Core) : (updCore s k f).bridges = s.bridges := rfl
@[simp] theorem updCore_ports (s : State) (k : Nat) (f : Core → Core) : (updCore s k f).ports = s.ports := rfl
@[simp] theorem updCore_hmem (s : State) (k : Nat) (f : Core → Core) : (updCore s k f).hmem = s.hmem := rfl
@[simp] theorem updCore_hports (s : State) (k : Nat) (f : Core → Core) : (updCore s k f).hports = s.hports := rfl
@[simp] theorem updCore_fns (s : State) (k : Nat) (f : Core → Core) : (updCore s k f).fns = s.fns := rfl
@[simp] theorem updCore_pairs (s : State) (k : Nat) (f : Core → Core) : (updCore s k f).pairs = s.pairs := rfl
@[simp] theorem updCore_vecs (s : State) (k : Nat) (f : Core → Core) : (updCore s k f).vecs = s.vecs := rfl
@[simp] theorem updCore_streams (s : State) (k : Nat) (f : Core → Core) : (updCore s k f).streams = s.streams := rfl
@[simp] theorem updCore_load (s : State) (k : Nat) (f : Core → Core) : (updCore s k f).load = s.load := rfl
@[simp] theorem updCore_reqId (s : State) (k : Nat) (f : Core → Core) : (updCore s k f).reqId = s.reqId := rfl
@[simp] theorem updCore_hchans (s : State) (k : Nat) (f : Core → Core) : (updCore s k f).hchans = s.hchans := rfl
@[simp] theorem updCore_harbours (s : State) (k : Nat) (f : Core → Core) : (updCore s k f).harbours = s.harbours := rfl
@[simp] theorem updCore_sensors (s : State) (k : Nat) (f : Core → Core) : (updCore s k f).sensors = s.sensors := rfl
@[simp] theorem updCore_nodes (s : State) (k : Nat) (f : Core → Core) : (updCore s k f).nodes = s.nodes := rfl
@[simp] theorem updCore_lh (s : State) (k : Nat) (f : Core → Core) : (updCore s k f).lh = s.lh := rfl
@[simp] theorem updCore_power (s : State) (k : Nat) (f : Core → Core) : (updCore s k f).power = s.power := rfl
@[simp] theorem updCore_up (s : State) (k : Nat) (f : Core → Core) : (updCore s k f).up = s.up := rfl
@[simp] theorem updCore_dbg (s : State) (k : Nat) (f : Core → Core) : (updCore s k f).dbg = s.dbg := rfl

/-! ### updRouter -/

@[simp] theorem updRouter_pending (s : State) (k : Nat) (f : Router → Router) : (updRouter s k f).pending = s.pending := rfl
@[simp] theorem updRouter_cclk (s : State) (k : Nat) (f : Router → Router) : (updRouter s k f).cclk = s.cclk := rfl
@[simp] theorem updRouter_cores (s : State) (k : Nat) (f : Router → Router) : (updRouter s k f).cores = s.cores := rfl
@[simp] theorem updRouter_regions (s : State) (k : Nat) (f : Router → Router) : (updRouter s k f).regions = s.regions := rfl
@[simp] theorem updRouter_packets (s : State) (k : Nat) (f : Router → Router) : (updRouter s k f).packets = s.packets := rfl
@[simp] theorem updRouter_serial (s : State) (k : Nat) (f : Router → Router) : (updRouter s k f).serial = s.serial := rfl
@[simp] theorem updRouter_ctl (s : State) (k : Nat) (f : Router → Router) : (updRouter s k f).ctl = s.ctl := rfl
@[simp] theorem updRouter_cnt (s : State) (k : Nat) (f : Router → Router) : (updRouter s k f).cnt = s.cnt := rfl
@[simp] theorem updRouter_health (s : State) (k : Nat) (f : Router → Router) : (updRouter s k f).health = s.health := rfl
@[simp] theorem updRouter_logq (s : State) (k : Nat) (f : Router → Router) : (updRouter s k f).logq = s.logq := rfl
@[simp] theorem updRouter_dom (s : State) (k : Nat) (f : Router → Router) : (updRouter s k f).dom = s.dom := rfl
@[simp] theorem updRouter_reloc (s : State) (k : Nat) (f : Router → Router) : (updRouter s k f).reloc = s.reloc := rfl
@[simp] theorem updRouter_tid (s : State) (k : Nat) (f : Router → Router) : (updRouter s k f).tid = s.tid := rfl
@[simp] theorem updRouter_phase (s : State) (k : Nat) (f : Router → Router) : (updRouter s k f).phase = s.phase := rfl
@[simp] theorem updRouter_engines (s : State) (k : Nat) (f : Router → Router) : (updRouter s k f).engines = s.engines := rfl
@[simp] theorem updRouter_bridges (s : State) (k : Nat) (f : Router → Router) : (updRouter s k f).bridges = s.bridges := rfl
@[simp] theorem updRouter_ports (s : State) (k : Nat) (f : Router → Router) : (updRouter s k f).ports = s.ports := rfl
@[simp] theorem updRouter_hmem (s : State) (k : Nat) (f : Router → Router) : (updRouter s k f).hmem = s.hmem := rfl
@[simp] theorem updRouter_hports (s : State) (k : Nat) (f : Router → Router) : (updRouter s k f).hports = s.hports := rfl
@[simp] theorem updRouter_fns (s : State) (k : Nat) (f : Router → Router) : (updRouter s k f).fns = s.fns := rfl
@[simp] theorem updRouter_pairs (s : State) (k : Nat) (f : Router → Router) : (updRouter s k f).pairs = s.pairs := rfl
@[simp] theorem updRouter_vecs (s : State) (k : Nat) (f : Router → Router) : (updRouter s k f).vecs = s.vecs := rfl
@[simp] theorem updRouter_streams (s : State) (k : Nat) (f : Router → Router) : (updRouter s k f).streams = s.streams := rfl
@[simp] theorem updRouter_load (s : State) (k : Nat) (f : Router → Router) : (updRouter s k f).load = s.load := rfl
@[simp] theorem updRouter_reqId (s : State) (k : Nat) (f : Router → Router) : (updRouter s k f).reqId = s.reqId := rfl
@[simp] theorem updRouter_hchans (s : State) (k : Nat) (f : Router → Router) : (updRouter s k f).hchans = s.hchans := rfl
@[simp] theorem updRouter_harbours (s : State) (k : Nat) (f : Router → Router) : (updRouter s k f).harbours = s.harbours := rfl
@[simp] theorem updRouter_sensors (s : State) (k : Nat) (f : Router → Router) : (updRouter s k f).sensors = s.sensors := rfl
@[simp] theorem updRouter_nodes (s : State) (k : Nat) (f : Router → Router) : (updRouter s k f).nodes = s.nodes := rfl
@[simp] theorem updRouter_lh (s : State) (k : Nat) (f : Router → Router) : (updRouter s k f).lh = s.lh := rfl
@[simp] theorem updRouter_power (s : State) (k : Nat) (f : Router → Router) : (updRouter s k f).power = s.power := rfl
@[simp] theorem updRouter_up (s : State) (k : Nat) (f : Router → Router) : (updRouter s k f).up = s.up := rfl
@[simp] theorem updRouter_dbg (s : State) (k : Nat) (f : Router → Router) : (updRouter s k f).dbg = s.dbg := rfl

/-! ### updRegion -/

@[simp] theorem updRegion_pending (s : State) (n : Nat) (f : Region → Region) : (updRegion s n f).pending = s.pending := rfl
@[simp] theorem updRegion_cclk (s : State) (n : Nat) (f : Region → Region) : (updRegion s n f).cclk = s.cclk := rfl
@[simp] theorem updRegion_cores (s : State) (n : Nat) (f : Region → Region) : (updRegion s n f).cores = s.cores := rfl
@[simp] theorem updRegion_routers (s : State) (n : Nat) (f : Region → Region) : (updRegion s n f).routers = s.routers := rfl
@[simp] theorem updRegion_packets (s : State) (n : Nat) (f : Region → Region) : (updRegion s n f).packets = s.packets := rfl
@[simp] theorem updRegion_serial (s : State) (n : Nat) (f : Region → Region) : (updRegion s n f).serial = s.serial := rfl
@[simp] theorem updRegion_ctl (s : State) (n : Nat) (f : Region → Region) : (updRegion s n f).ctl = s.ctl := rfl
@[simp] theorem updRegion_cnt (s : State) (n : Nat) (f : Region → Region) : (updRegion s n f).cnt = s.cnt := rfl
@[simp] theorem updRegion_health (s : State) (n : Nat) (f : Region → Region) : (updRegion s n f).health = s.health := rfl
@[simp] theorem updRegion_logq (s : State) (n : Nat) (f : Region → Region) : (updRegion s n f).logq = s.logq := rfl
@[simp] theorem updRegion_dom (s : State) (n : Nat) (f : Region → Region) : (updRegion s n f).dom = s.dom := rfl
@[simp] theorem updRegion_reloc (s : State) (n : Nat) (f : Region → Region) : (updRegion s n f).reloc = s.reloc := rfl
@[simp] theorem updRegion_tid (s : State) (n : Nat) (f : Region → Region) : (updRegion s n f).tid = s.tid := rfl
@[simp] theorem updRegion_phase (s : State) (n : Nat) (f : Region → Region) : (updRegion s n f).phase = s.phase := rfl
@[simp] theorem updRegion_engines (s : State) (n : Nat) (f : Region → Region) : (updRegion s n f).engines = s.engines := rfl
@[simp] theorem updRegion_bridges (s : State) (n : Nat) (f : Region → Region) : (updRegion s n f).bridges = s.bridges := rfl
@[simp] theorem updRegion_ports (s : State) (n : Nat) (f : Region → Region) : (updRegion s n f).ports = s.ports := rfl
@[simp] theorem updRegion_hmem (s : State) (n : Nat) (f : Region → Region) : (updRegion s n f).hmem = s.hmem := rfl
@[simp] theorem updRegion_hports (s : State) (n : Nat) (f : Region → Region) : (updRegion s n f).hports = s.hports := rfl
@[simp] theorem updRegion_fns (s : State) (n : Nat) (f : Region → Region) : (updRegion s n f).fns = s.fns := rfl
@[simp] theorem updRegion_pairs (s : State) (n : Nat) (f : Region → Region) : (updRegion s n f).pairs = s.pairs := rfl
@[simp] theorem updRegion_vecs (s : State) (n : Nat) (f : Region → Region) : (updRegion s n f).vecs = s.vecs := rfl
@[simp] theorem updRegion_streams (s : State) (n : Nat) (f : Region → Region) : (updRegion s n f).streams = s.streams := rfl
@[simp] theorem updRegion_load (s : State) (n : Nat) (f : Region → Region) : (updRegion s n f).load = s.load := rfl
@[simp] theorem updRegion_reqId (s : State) (n : Nat) (f : Region → Region) : (updRegion s n f).reqId = s.reqId := rfl
@[simp] theorem updRegion_hchans (s : State) (n : Nat) (f : Region → Region) : (updRegion s n f).hchans = s.hchans := rfl
@[simp] theorem updRegion_harbours (s : State) (n : Nat) (f : Region → Region) : (updRegion s n f).harbours = s.harbours := rfl
@[simp] theorem updRegion_sensors (s : State) (n : Nat) (f : Region → Region) : (updRegion s n f).sensors = s.sensors := rfl
@[simp] theorem updRegion_nodes (s : State) (n : Nat) (f : Region → Region) : (updRegion s n f).nodes = s.nodes := rfl
@[simp] theorem updRegion_lh (s : State) (n : Nat) (f : Region → Region) : (updRegion s n f).lh = s.lh := rfl
@[simp] theorem updRegion_power (s : State) (n : Nat) (f : Region → Region) : (updRegion s n f).power = s.power := rfl
@[simp] theorem updRegion_up (s : State) (n : Nat) (f : Region → Region) : (updRegion s n f).up = s.up := rfl
@[simp] theorem updRegion_dbg (s : State) (n : Nat) (f : Region → Region) : (updRegion s n f).dbg = s.dbg := rfl

/-! ### updHealth -/

@[simp] theorem updHealth_pending (s : State) (u : Nat) (f : Health → Health) : (updHealth s u f).pending = s.pending := rfl
@[simp] theorem updHealth_cclk (s : State) (u : Nat) (f : Health → Health) : (updHealth s u f).cclk = s.cclk := rfl
@[simp] theorem updHealth_cores (s : State) (u : Nat) (f : Health → Health) : (updHealth s u f).cores = s.cores := rfl
@[simp] theorem updHealth_routers (s : State) (u : Nat) (f : Health → Health) : (updHealth s u f).routers = s.routers := rfl
@[simp] theorem updHealth_regions (s : State) (u : Nat) (f : Health → Health) : (updHealth s u f).regions = s.regions := rfl
@[simp] theorem updHealth_packets (s : State) (u : Nat) (f : Health → Health) : (updHealth s u f).packets = s.packets := rfl
@[simp] theorem updHealth_serial (s : State) (u : Nat) (f : Health → Health) : (updHealth s u f).serial = s.serial := rfl
@[simp] theorem updHealth_ctl (s : State) (u : Nat) (f : Health → Health) : (updHealth s u f).ctl = s.ctl := rfl
@[simp] theorem updHealth_cnt (s : State) (u : Nat) (f : Health → Health) : (updHealth s u f).cnt = s.cnt := rfl
@[simp] theorem updHealth_logq (s : State) (u : Nat) (f : Health → Health) : (updHealth s u f).logq = s.logq := rfl
@[simp] theorem updHealth_dom (s : State) (u : Nat) (f : Health → Health) : (updHealth s u f).dom = s.dom := rfl
@[simp] theorem updHealth_reloc (s : State) (u : Nat) (f : Health → Health) : (updHealth s u f).reloc = s.reloc := rfl
@[simp] theorem updHealth_tid (s : State) (u : Nat) (f : Health → Health) : (updHealth s u f).tid = s.tid := rfl
@[simp] theorem updHealth_phase (s : State) (u : Nat) (f : Health → Health) : (updHealth s u f).phase = s.phase := rfl
@[simp] theorem updHealth_engines (s : State) (u : Nat) (f : Health → Health) : (updHealth s u f).engines = s.engines := rfl
@[simp] theorem updHealth_bridges (s : State) (u : Nat) (f : Health → Health) : (updHealth s u f).bridges = s.bridges := rfl
@[simp] theorem updHealth_ports (s : State) (u : Nat) (f : Health → Health) : (updHealth s u f).ports = s.ports := rfl
@[simp] theorem updHealth_hmem (s : State) (u : Nat) (f : Health → Health) : (updHealth s u f).hmem = s.hmem := rfl
@[simp] theorem updHealth_hports (s : State) (u : Nat) (f : Health → Health) : (updHealth s u f).hports = s.hports := rfl
@[simp] theorem updHealth_fns (s : State) (u : Nat) (f : Health → Health) : (updHealth s u f).fns = s.fns := rfl
@[simp] theorem updHealth_pairs (s : State) (u : Nat) (f : Health → Health) : (updHealth s u f).pairs = s.pairs := rfl
@[simp] theorem updHealth_vecs (s : State) (u : Nat) (f : Health → Health) : (updHealth s u f).vecs = s.vecs := rfl
@[simp] theorem updHealth_streams (s : State) (u : Nat) (f : Health → Health) : (updHealth s u f).streams = s.streams := rfl
@[simp] theorem updHealth_load (s : State) (u : Nat) (f : Health → Health) : (updHealth s u f).load = s.load := rfl
@[simp] theorem updHealth_reqId (s : State) (u : Nat) (f : Health → Health) : (updHealth s u f).reqId = s.reqId := rfl
@[simp] theorem updHealth_hchans (s : State) (u : Nat) (f : Health → Health) : (updHealth s u f).hchans = s.hchans := rfl
@[simp] theorem updHealth_harbours (s : State) (u : Nat) (f : Health → Health) : (updHealth s u f).harbours = s.harbours := rfl
@[simp] theorem updHealth_sensors (s : State) (u : Nat) (f : Health → Health) : (updHealth s u f).sensors = s.sensors := rfl
@[simp] theorem updHealth_nodes (s : State) (u : Nat) (f : Health → Health) : (updHealth s u f).nodes = s.nodes := rfl
@[simp] theorem updHealth_lh (s : State) (u : Nat) (f : Health → Health) : (updHealth s u f).lh = s.lh := rfl
@[simp] theorem updHealth_power (s : State) (u : Nat) (f : Health → Health) : (updHealth s u f).power = s.power := rfl
@[simp] theorem updHealth_up (s : State) (u : Nat) (f : Health → Health) : (updHealth s u f).up = s.up := rfl
@[simp] theorem updHealth_dbg (s : State) (u : Nat) (f : Health → Health) : (updHealth s u f).dbg = s.dbg := rfl

/-! ### updEngine -/

@[simp] theorem updEngine_pending (s : State) (e : Nat) (f : Engine → Engine) : (updEngine s e f).pending = s.pending := rfl
@[simp] theorem updEngine_cclk (s : State) (e : Nat) (f : Engine → Engine) : (updEngine s e f).cclk = s.cclk := rfl
@[simp] theorem updEngine_cores (s : State) (e : Nat) (f : Engine → Engine) : (updEngine s e f).cores = s.cores := rfl
@[simp] theorem updEngine_routers (s : State) (e : Nat) (f : Engine → Engine) : (updEngine s e f).routers = s.routers := rfl
@[simp] theorem updEngine_regions (s : State) (e : Nat) (f : Engine → Engine) : (updEngine s e f).regions = s.regions := rfl
@[simp] theorem updEngine_packets (s : State) (e : Nat) (f : Engine → Engine) : (updEngine s e f).packets = s.packets := rfl
@[simp] theorem updEngine_serial (s : State) (e : Nat) (f : Engine → Engine) : (updEngine s e f).serial = s.serial := rfl
@[simp] theorem updEngine_ctl (s : State) (e : Nat) (f : Engine → Engine) : (updEngine s e f).ctl = s.ctl := rfl
@[simp] theorem updEngine_cnt (s : State) (e : Nat) (f : Engine → Engine) : (updEngine s e f).cnt = s.cnt := rfl
@[simp] theorem updEngine_health (s : State) (e : Nat) (f : Engine → Engine) : (updEngine s e f).health = s.health := rfl
@[simp] theorem updEngine_logq (s : State) (e : Nat) (f : Engine → Engine) : (updEngine s e f).logq = s.logq := rfl
@[simp] theorem updEngine_dom (s : State) (e : Nat) (f : Engine → Engine) : (updEngine s e f).dom = s.dom := rfl
@[simp] theorem updEngine_reloc (s : State) (e : Nat) (f : Engine → Engine) : (updEngine s e f).reloc = s.reloc := rfl
@[simp] theorem updEngine_tid (s : State) (e : Nat) (f : Engine → Engine) : (updEngine s e f).tid = s.tid := rfl
@[simp] theorem updEngine_phase (s : State) (e : Nat) (f : Engine → Engine) : (updEngine s e f).phase = s.phase := rfl
@[simp] theorem updEngine_bridges (s : State) (e : Nat) (f : Engine → Engine) : (updEngine s e f).bridges = s.bridges := rfl
@[simp] theorem updEngine_ports (s : State) (e : Nat) (f : Engine → Engine) : (updEngine s e f).ports = s.ports := rfl
@[simp] theorem updEngine_hmem (s : State) (e : Nat) (f : Engine → Engine) : (updEngine s e f).hmem = s.hmem := rfl
@[simp] theorem updEngine_hports (s : State) (e : Nat) (f : Engine → Engine) : (updEngine s e f).hports = s.hports := rfl
@[simp] theorem updEngine_fns (s : State) (e : Nat) (f : Engine → Engine) : (updEngine s e f).fns = s.fns := rfl
@[simp] theorem updEngine_pairs (s : State) (e : Nat) (f : Engine → Engine) : (updEngine s e f).pairs = s.pairs := rfl
@[simp] theorem updEngine_vecs (s : State) (e : Nat) (f : Engine → Engine) : (updEngine s e f).vecs = s.vecs := rfl
@[simp] theorem updEngine_streams (s : State) (e : Nat) (f : Engine → Engine) : (updEngine s e f).streams = s.streams := rfl
@[simp] theorem updEngine_load (s : State) (e : Nat) (f : Engine → Engine) : (updEngine s e f).load = s.load := rfl
@[simp] theorem updEngine_reqId (s : State) (e : Nat) (f : Engine → Engine) : (updEngine s e f).reqId = s.reqId := rfl
@[simp] theorem updEngine_hchans (s : State) (e : Nat) (f : Engine → Engine) : (updEngine s e f).hchans = s.hchans := rfl
@[simp] theorem updEngine_harbours (s : State) (e : Nat) (f : Engine → Engine) : (updEngine s e f).harbours = s.harbours := rfl
@[simp] theorem updEngine_sensors (s : State) (e : Nat) (f : Engine → Engine) : (updEngine s e f).sensors = s.sensors := rfl
@[simp] theorem updEngine_nodes (s : State) (e : Nat) (f : Engine → Engine) : (updEngine s e f).nodes = s.nodes := rfl
@[simp] theorem updEngine_lh (s : State) (e : Nat) (f : Engine → Engine) : (updEngine s e f).lh = s.lh := rfl
@[simp] theorem updEngine_power (s : State) (e : Nat) (f : Engine → Engine) : (updEngine s e f).power = s.power := rfl
@[simp] theorem updEngine_up (s : State) (e : Nat) (f : Engine → Engine) : (updEngine s e f).up = s.up := rfl
@[simp] theorem updEngine_dbg (s : State) (e : Nat) (f : Engine → Engine) : (updEngine s e f).dbg = s.dbg := rfl

/-! ### updBridge -/

@[simp] theorem updBridge_pending (s : State) (b : Nat) (f : Bridge → Bridge) : (updBridge s b f).pending = s.pending := rfl
@[simp] theorem updBridge_cclk (s : State) (b : Nat) (f : Bridge → Bridge) : (updBridge s b f).cclk = s.cclk := rfl
@[simp] theorem updBridge_cores (s : State) (b : Nat) (f : Bridge → Bridge) : (updBridge s b f).cores = s.cores := rfl
@[simp] theorem updBridge_routers (s : State) (b : Nat) (f : Bridge → Bridge) : (updBridge s b f).routers = s.routers := rfl
@[simp] theorem updBridge_regions (s : State) (b : Nat) (f : Bridge → Bridge) : (updBridge s b f).regions = s.regions := rfl
@[simp] theorem updBridge_packets (s : State) (b : Nat) (f : Bridge → Bridge) : (updBridge s b f).packets = s.packets := rfl
@[simp] theorem updBridge_serial (s : State) (b : Nat) (f : Bridge → Bridge) : (updBridge s b f).serial = s.serial := rfl
@[simp] theorem updBridge_ctl (s : State) (b : Nat) (f : Bridge → Bridge) : (updBridge s b f).ctl = s.ctl := rfl
@[simp] theorem updBridge_cnt (s : State) (b : Nat) (f : Bridge → Bridge) : (updBridge s b f).cnt = s.cnt := rfl
@[simp] theorem updBridge_health (s : State) (b : Nat) (f : Bridge → Bridge) : (updBridge s b f).health = s.health := rfl
@[simp] theorem updBridge_logq (s : State) (b : Nat) (f : Bridge → Bridge) : (updBridge s b f).logq = s.logq := rfl
@[simp] theorem updBridge_dom (s : State) (b : Nat) (f : Bridge → Bridge) : (updBridge s b f).dom = s.dom := rfl
@[simp] theorem updBridge_reloc (s : State) (b : Nat) (f : Bridge → Bridge) : (updBridge s b f).reloc = s.reloc := rfl
@[simp] theorem updBridge_tid (s : State) (b : Nat) (f : Bridge → Bridge) : (updBridge s b f).tid = s.tid := rfl
@[simp] theorem updBridge_phase (s : State) (b : Nat) (f : Bridge → Bridge) : (updBridge s b f).phase = s.phase := rfl
@[simp] theorem updBridge_engines (s : State) (b : Nat) (f : Bridge → Bridge) : (updBridge s b f).engines = s.engines := rfl
@[simp] theorem updBridge_ports (s : State) (b : Nat) (f : Bridge → Bridge) : (updBridge s b f).ports = s.ports := rfl
@[simp] theorem updBridge_hmem (s : State) (b : Nat) (f : Bridge → Bridge) : (updBridge s b f).hmem = s.hmem := rfl
@[simp] theorem updBridge_hports (s : State) (b : Nat) (f : Bridge → Bridge) : (updBridge s b f).hports = s.hports := rfl
@[simp] theorem updBridge_fns (s : State) (b : Nat) (f : Bridge → Bridge) : (updBridge s b f).fns = s.fns := rfl
@[simp] theorem updBridge_pairs (s : State) (b : Nat) (f : Bridge → Bridge) : (updBridge s b f).pairs = s.pairs := rfl
@[simp] theorem updBridge_vecs (s : State) (b : Nat) (f : Bridge → Bridge) : (updBridge s b f).vecs = s.vecs := rfl
@[simp] theorem updBridge_streams (s : State) (b : Nat) (f : Bridge → Bridge) : (updBridge s b f).streams = s.streams := rfl
@[simp] theorem updBridge_load (s : State) (b : Nat) (f : Bridge → Bridge) : (updBridge s b f).load = s.load := rfl
@[simp] theorem updBridge_reqId (s : State) (b : Nat) (f : Bridge → Bridge) : (updBridge s b f).reqId = s.reqId := rfl
@[simp] theorem updBridge_hchans (s : State) (b : Nat) (f : Bridge → Bridge) : (updBridge s b f).hchans = s.hchans := rfl
@[simp] theorem updBridge_harbours (s : State) (b : Nat) (f : Bridge → Bridge) : (updBridge s b f).harbours = s.harbours := rfl
@[simp] theorem updBridge_sensors (s : State) (b : Nat) (f : Bridge → Bridge) : (updBridge s b f).sensors = s.sensors := rfl
@[simp] theorem updBridge_nodes (s : State) (b : Nat) (f : Bridge → Bridge) : (updBridge s b f).nodes = s.nodes := rfl
@[simp] theorem updBridge_lh (s : State) (b : Nat) (f : Bridge → Bridge) : (updBridge s b f).lh = s.lh := rfl
@[simp] theorem updBridge_power (s : State) (b : Nat) (f : Bridge → Bridge) : (updBridge s b f).power = s.power := rfl
@[simp] theorem updBridge_up (s : State) (b : Nat) (f : Bridge → Bridge) : (updBridge s b f).up = s.up := rfl
@[simp] theorem updBridge_dbg (s : State) (b : Nat) (f : Bridge → Bridge) : (updBridge s b f).dbg = s.dbg := rfl

/-! ### updPort -/

@[simp] theorem updPort_pending (s : State) (p : Nat) (f : Port → Port) : (updPort s p f).pending = s.pending := rfl
@[simp] theorem updPort_cclk (s : State) (p : Nat) (f : Port → Port) : (updPort s p f).cclk = s.cclk := rfl
@[simp] theorem updPort_cores (s : State) (p : Nat) (f : Port → Port) : (updPort s p f).cores = s.cores := rfl
@[simp] theorem updPort_routers (s : State) (p : Nat) (f : Port → Port) : (updPort s p f).routers = s.routers := rfl
@[simp] theorem updPort_regions (s : State) (p : Nat) (f : Port → Port) : (updPort s p f).regions = s.regions := rfl
@[simp] theorem updPort_packets (s : State) (p : Nat) (f : Port → Port) : (updPort s p f).packets = s.packets := rfl
@[simp] theorem updPort_serial (s : State) (p : Nat) (f : Port → Port) : (updPort s p f).serial = s.serial := rfl
@[simp] theorem updPort_ctl (s : State) (p : Nat) (f : Port → Port) : (updPort s p f).ctl = s.ctl := rfl
@[simp] theorem updPort_cnt (s : State) (p : Nat) (f : Port → Port) : (updPort s p f).cnt = s.cnt := rfl
@[simp] theorem updPort_health (s : State) (p : Nat) (f : Port → Port) : (updPort s p f).health = s.health := rfl
@[simp] theorem updPort_logq (s : State) (p : Nat) (f : Port → Port) : (updPort s p f).logq = s.logq := rfl
@[simp] theorem updPort_dom (s : State) (p : Nat) (f : Port → Port) : (updPort s p f).dom = s.dom := rfl
@[simp] theorem updPort_reloc (s : State) (p : Nat) (f : Port → Port) : (updPort s p f).reloc = s.reloc := rfl
@[simp] theorem updPort_tid (s : State) (p : Nat) (f : Port → Port) : (updPort s p f).tid = s.tid := rfl
@[simp] theorem updPort_phase (s : State) (p : Nat) (f : Port → Port) : (updPort s p f).phase = s.phase := rfl
@[simp] theorem updPort_engines (s : State) (p : Nat) (f : Port → Port) : (updPort s p f).engines = s.engines := rfl
@[simp] theorem updPort_bridges (s : State) (p : Nat) (f : Port → Port) : (updPort s p f).bridges = s.bridges := rfl
@[simp] theorem updPort_hmem (s : State) (p : Nat) (f : Port → Port) : (updPort s p f).hmem = s.hmem := rfl
@[simp] theorem updPort_hports (s : State) (p : Nat) (f : Port → Port) : (updPort s p f).hports = s.hports := rfl
@[simp] theorem updPort_fns (s : State) (p : Nat) (f : Port → Port) : (updPort s p f).fns = s.fns := rfl
@[simp] theorem updPort_pairs (s : State) (p : Nat) (f : Port → Port) : (updPort s p f).pairs = s.pairs := rfl
@[simp] theorem updPort_vecs (s : State) (p : Nat) (f : Port → Port) : (updPort s p f).vecs = s.vecs := rfl
@[simp] theorem updPort_streams (s : State) (p : Nat) (f : Port → Port) : (updPort s p f).streams = s.streams := rfl
@[simp] theorem updPort_load (s : State) (p : Nat) (f : Port → Port) : (updPort s p f).load = s.load := rfl
@[simp] theorem updPort_reqId (s : State) (p : Nat) (f : Port → Port) : (updPort s p f).reqId = s.reqId := rfl
@[simp] theorem updPort_hchans (s : State) (p : Nat) (f : Port → Port) : (updPort s p f).hchans = s.hchans := rfl
@[simp] theorem updPort_harbours (s : State) (p : Nat) (f : Port → Port) : (updPort s p f).harbours = s.harbours := rfl
@[simp] theorem updPort_sensors (s : State) (p : Nat) (f : Port → Port) : (updPort s p f).sensors = s.sensors := rfl
@[simp] theorem updPort_nodes (s : State) (p : Nat) (f : Port → Port) : (updPort s p f).nodes = s.nodes := rfl
@[simp] theorem updPort_lh (s : State) (p : Nat) (f : Port → Port) : (updPort s p f).lh = s.lh := rfl
@[simp] theorem updPort_power (s : State) (p : Nat) (f : Port → Port) : (updPort s p f).power = s.power := rfl
@[simp] theorem updPort_up (s : State) (p : Nat) (f : Port → Port) : (updPort s p f).up = s.up := rfl
@[simp] theorem updPort_dbg (s : State) (p : Nat) (f : Port → Port) : (updPort s p f).dbg = s.dbg := rfl

/-! ### updPair -/

@[simp] theorem updPair_pending (s : State) (p : Nat) (f : Pair → Pair) : (updPair s p f).pending = s.pending := rfl
@[simp] theorem updPair_cclk (s : State) (p : Nat) (f : Pair → Pair) : (updPair s p f).cclk = s.cclk := rfl
@[simp] theorem updPair_cores (s : State) (p : Nat) (f : Pair → Pair) : (updPair s p f).cores = s.cores := rfl
@[simp] theorem updPair_routers (s : State) (p : Nat) (f : Pair → Pair) : (updPair s p f).routers = s.routers := rfl
@[simp] theorem updPair_regions (s : State) (p : Nat) (f : Pair → Pair) : (updPair s p f).regions = s.regions := rfl
@[simp] theorem updPair_packets (s : State) (p : Nat) (f : Pair → Pair) : (updPair s p f).packets = s.packets := rfl
@[simp] theorem updPair_serial (s : State) (p : Nat) (f : Pair → Pair) : (updPair s p f).serial = s.serial := rfl
@[simp] theorem updPair_ctl (s : State) (p : Nat) (f : Pair → Pair) : (updPair s p f).ctl = s.ctl := rfl
@[simp] theorem updPair_cnt (s : State) (p : Nat) (f : Pair → Pair) : (updPair s p f).cnt = s.cnt := rfl
@[simp] theorem updPair_health (s : State) (p : Nat) (f : Pair → Pair) : (updPair s p f).health = s.health := rfl
@[simp] theorem updPair_logq (s : State) (p : Nat) (f : Pair → Pair) : (updPair s p f).logq = s.logq := rfl
@[simp] theorem updPair_dom (s : State) (p : Nat) (f : Pair → Pair) : (updPair s p f).dom = s.dom := rfl
@[simp] theorem updPair_reloc (s : State) (p : Nat) (f : Pair → Pair) : (updPair s p f).reloc = s.reloc := rfl
@[simp] theorem updPair_tid (s : State) (p : Nat) (f : Pair → Pair) : (updPair s p f).tid = s.tid := rfl
@[simp] theorem updPair_phase (s : State) (p : Nat) (f : Pair → Pair) : (updPair s p f).phase = s.phase := rfl
@[simp] theorem updPair_engines (s : State) (p : Nat) (f : Pair → Pair) : (updPair s p f).engines = s.engines := rfl
@[simp] theorem updPair_bridges (s : State) (p : Nat) (f : Pair → Pair) : (updPair s p f).bridges = s.bridges := rfl
@[simp] theorem updPair_ports (s : State) (p : Nat) (f : Pair → Pair) : (updPair s p f).ports = s.ports := rfl
@[simp] theorem updPair_hmem (s : State) (p : Nat) (f : Pair → Pair) : (updPair s p f).hmem = s.hmem := rfl
@[simp] theorem updPair_hports (s : State) (p : Nat) (f : Pair → Pair) : (updPair s p f).hports = s.hports := rfl
@[simp] theorem updPair_fns (s : State) (p : Nat) (f : Pair → Pair) : (updPair s p f).fns = s.fns := rfl
@[simp] theorem updPair_vecs (s : State) (p : Nat) (f : Pair → Pair) : (updPair s p f).vecs = s.vecs := rfl
@[simp] theorem updPair_streams (s : State) (p : Nat) (f : Pair → Pair) : (updPair s p f).streams = s.streams := rfl
@[simp] theorem updPair_load (s : State) (p : Nat) (f : Pair → Pair) : (updPair s p f).load = s.load := rfl
@[simp] theorem updPair_reqId (s : State) (p : Nat) (f : Pair → Pair) : (updPair s p f).reqId = s.reqId := rfl
@[simp] theorem updPair_hchans (s : State) (p : Nat) (f : Pair → Pair) : (updPair s p f).hchans = s.hchans := rfl
@[simp] theorem updPair_harbours (s : State) (p : Nat) (f : Pair → Pair) : (updPair s p f).harbours = s.harbours := rfl
@[simp] theorem updPair_sensors (s : State) (p : Nat) (f : Pair → Pair) : (updPair s p f).sensors = s.sensors := rfl
@[simp] theorem updPair_nodes (s : State) (p : Nat) (f : Pair → Pair) : (updPair s p f).nodes = s.nodes := rfl
@[simp] theorem updPair_lh (s : State) (p : Nat) (f : Pair → Pair) : (updPair s p f).lh = s.lh := rfl
@[simp] theorem updPair_power (s : State) (p : Nat) (f : Pair → Pair) : (updPair s p f).power = s.power := rfl
@[simp] theorem updPair_up (s : State) (p : Nat) (f : Pair → Pair) : (updPair s p f).up = s.up := rfl
@[simp] theorem updPair_dbg (s : State) (p : Nat) (f : Pair → Pair) : (updPair s p f).dbg = s.dbg := rfl

/-! ### updVec -/

@[simp] theorem updVec_pending (s : State) (v : Nat) (f : Vec → Vec) : (updVec s v f).pending = s.pending := rfl
@[simp] theorem updVec_cclk (s : State) (v : Nat) (f : Vec → Vec) : (updVec s v f).cclk = s.cclk := rfl
@[simp] theorem updVec_cores (s : State) (v : Nat) (f : Vec → Vec) : (updVec s v f).cores = s.cores := rfl
@[simp] theorem updVec_routers (s : State) (v : Nat) (f : Vec → Vec) : (updVec s v f).routers = s.routers := rfl
@[simp] theorem updVec_regions (s : State) (v : Nat) (f : Vec → Vec) : (updVec s v f).regions = s.regions := rfl
@[simp] theorem updVec_packets (s : State) (v : Nat) (f : Vec → Vec) : (updVec s v f).packets = s.packets := rfl
@[simp] theorem updVec_serial (s : State) (v : Nat) (f : Vec → Vec) : (updVec s v f).serial = s.serial := rfl
@[simp] theorem updVec_ctl (s : State) (v : Nat) (f : Vec → Vec) : (updVec s v f).ctl = s.ctl := rfl
@[simp] theorem updVec_cnt (s : State) (v : Nat) (f : Vec → Vec) : (updVec s v f).cnt = s.cnt := rfl
@[simp] theorem updVec_health (s : State) (v : Nat) (f : Vec → Vec) : (updVec s v f).health = s.health := rfl
@[simp] theorem updVec_logq (s : State) (v : Nat) (f : Vec → Vec) : (updVec s v f).logq = s.logq := rfl
@[simp] theorem updVec_dom (s : State) (v : Nat) (f : Vec → Vec) : (updVec s v f).dom = s.dom := rfl
@[simp] theorem updVec_reloc (s : State) (v : Nat) (f : Vec → Vec) : (updVec s v f).reloc = s.reloc := rfl
@[simp] theorem updVec_tid (s : State) (v : Nat) (f : Vec → Vec) : (updVec s v f).tid = s.tid := rfl
@[simp] theorem updVec_phase (s : State) (v : Nat) (f : Vec → Vec) : (updVec s v f).phase = s.phase := rfl
@[simp] theorem updVec_engines (s : State) (v : Nat) (f : Vec → Vec) : (updVec s v f).engines = s.engines := rfl
@[simp] theorem updVec_bridges (s : State) (v : Nat) (f : Vec → Vec) : (updVec s v f).bridges = s.bridges := rfl
@[simp] theorem updVec_ports (s : State) (v : Nat) (f : Vec → Vec) : (updVec s v f).ports = s.ports := rfl
@[simp] theorem updVec_hmem (s : State) (v : Nat) (f : Vec → Vec) : (updVec s v f).hmem = s.hmem := rfl
@[simp] theorem updVec_hports (s : State) (v : Nat) (f : Vec → Vec) : (updVec s v f).hports = s.hports := rfl
@[simp] theorem updVec_fns (s : State) (v : Nat) (f : Vec → Vec) : (updVec s v f).fns = s.fns := rfl
@[simp] theorem updVec_pairs (s : State) (v : Nat) (f : Vec → Vec) : (updVec s v f).pairs = s.pairs := rfl
@[simp] theorem updVec_streams (s : State) (v : Nat) (f : Vec → Vec) : (updVec s v f).streams = s.streams := rfl
@[simp] theorem updVec_load (s : State) (v : Nat) (f : Vec → Vec) : (updVec s v f).load = s.load := rfl
@[simp] theorem updVec_reqId (s : State) (v : Nat) (f : Vec → Vec) : (updVec s v f).reqId = s.reqId := rfl
@[simp] theorem updVec_hchans (s : State) (v : Nat) (f : Vec → Vec) : (updVec s v f).hchans = s.hchans := rfl
@[simp] theorem updVec_harbours (s : State) (v : Nat) (f : Vec → Vec) : (updVec s v f).harbours = s.harbours := rfl
@[simp] theorem updVec_sensors (s : State) (v : Nat) (f : Vec → Vec) : (updVec s v f).sensors = s.sensors := rfl
@[simp] theorem updVec_nodes (s : State) (v : Nat) (f : Vec → Vec) : (updVec s v f).nodes = s.nodes := rfl
@[simp] theorem updVec_lh (s : State) (v : Nat) (f : Vec → Vec) : (updVec s v f).lh = s.lh := rfl
@[simp] theorem updVec_power (s : State) (v : Nat) (f : Vec → Vec) : (updVec s v f).power = s.power := rfl
@[simp] theorem updVec_up (s : State) (v : Nat) (f : Vec → Vec) : (updVec s v f).up = s.up := rfl
@[simp] theorem updVec_dbg (s : State) (v : Nat) (f : Vec → Vec) : (updVec s v f).dbg = s.dbg := rfl

/-! ### updFn -/

@[simp] theorem updFn_pending (s : State) (n : Nat) (f : Fn → Fn) : (updFn s n f).pending = s.pending := rfl
@[simp] theorem updFn_cclk (s : State) (n : Nat) (f : Fn → Fn) : (updFn s n f).cclk = s.cclk := rfl
@[simp] theorem updFn_cores (s : State) (n : Nat) (f : Fn → Fn) : (updFn s n f).cores = s.cores := rfl
@[simp] theorem updFn_routers (s : State) (n : Nat) (f : Fn → Fn) : (updFn s n f).routers = s.routers := rfl
@[simp] theorem updFn_regions (s : State) (n : Nat) (f : Fn → Fn) : (updFn s n f).regions = s.regions := rfl
@[simp] theorem updFn_packets (s : State) (n : Nat) (f : Fn → Fn) : (updFn s n f).packets = s.packets := rfl
@[simp] theorem updFn_serial (s : State) (n : Nat) (f : Fn → Fn) : (updFn s n f).serial = s.serial := rfl
@[simp] theorem updFn_ctl (s : State) (n : Nat) (f : Fn → Fn) : (updFn s n f).ctl = s.ctl := rfl
@[simp] theorem updFn_cnt (s : State) (n : Nat) (f : Fn → Fn) : (updFn s n f).cnt = s.cnt := rfl
@[simp] theorem updFn_health (s : State) (n : Nat) (f : Fn → Fn) : (updFn s n f).health = s.health := rfl
@[simp] theorem updFn_logq (s : State) (n : Nat) (f : Fn → Fn) : (updFn s n f).logq = s.logq := rfl
@[simp] theorem updFn_dom (s : State) (n : Nat) (f : Fn → Fn) : (updFn s n f).dom = s.dom := rfl
@[simp] theorem updFn_reloc (s : State) (n : Nat) (f : Fn → Fn) : (updFn s n f).reloc = s.reloc := rfl
@[simp] theorem updFn_tid (s : State) (n : Nat) (f : Fn → Fn) : (updFn s n f).tid = s.tid := rfl
@[simp] theorem updFn_phase (s : State) (n : Nat) (f : Fn → Fn) : (updFn s n f).phase = s.phase := rfl
@[simp] theorem updFn_engines (s : State) (n : Nat) (f : Fn → Fn) : (updFn s n f).engines = s.engines := rfl
@[simp] theorem updFn_bridges (s : State) (n : Nat) (f : Fn → Fn) : (updFn s n f).bridges = s.bridges := rfl
@[simp] theorem updFn_ports (s : State) (n : Nat) (f : Fn → Fn) : (updFn s n f).ports = s.ports := rfl
@[simp] theorem updFn_hmem (s : State) (n : Nat) (f : Fn → Fn) : (updFn s n f).hmem = s.hmem := rfl
@[simp] theorem updFn_hports (s : State) (n : Nat) (f : Fn → Fn) : (updFn s n f).hports = s.hports := rfl
@[simp] theorem updFn_pairs (s : State) (n : Nat) (f : Fn → Fn) : (updFn s n f).pairs = s.pairs := rfl
@[simp] theorem updFn_vecs (s : State) (n : Nat) (f : Fn → Fn) : (updFn s n f).vecs = s.vecs := rfl
@[simp] theorem updFn_streams (s : State) (n : Nat) (f : Fn → Fn) : (updFn s n f).streams = s.streams := rfl
@[simp] theorem updFn_load (s : State) (n : Nat) (f : Fn → Fn) : (updFn s n f).load = s.load := rfl
@[simp] theorem updFn_reqId (s : State) (n : Nat) (f : Fn → Fn) : (updFn s n f).reqId = s.reqId := rfl
@[simp] theorem updFn_hchans (s : State) (n : Nat) (f : Fn → Fn) : (updFn s n f).hchans = s.hchans := rfl
@[simp] theorem updFn_harbours (s : State) (n : Nat) (f : Fn → Fn) : (updFn s n f).harbours = s.harbours := rfl
@[simp] theorem updFn_sensors (s : State) (n : Nat) (f : Fn → Fn) : (updFn s n f).sensors = s.sensors := rfl
@[simp] theorem updFn_nodes (s : State) (n : Nat) (f : Fn → Fn) : (updFn s n f).nodes = s.nodes := rfl
@[simp] theorem updFn_lh (s : State) (n : Nat) (f : Fn → Fn) : (updFn s n f).lh = s.lh := rfl
@[simp] theorem updFn_power (s : State) (n : Nat) (f : Fn → Fn) : (updFn s n f).power = s.power := rfl
@[simp] theorem updFn_up (s : State) (n : Nat) (f : Fn → Fn) : (updFn s n f).up = s.up := rfl
@[simp] theorem updFn_dbg (s : State) (n : Nat) (f : Fn → Fn) : (updFn s n f).dbg = s.dbg := rfl

/-! ### updHport -/

@[simp] theorem updHport_pending (s : State) (h : Nat) (f : HostPort → HostPort) : (updHport s h f).pending = s.pending := rfl
@[simp] theorem updHport_cclk (s : State) (h : Nat) (f : HostPort → HostPort) : (updHport s h f).cclk = s.cclk := rfl
@[simp] theorem updHport_cores (s : State) (h : Nat) (f : HostPort → HostPort) : (updHport s h f).cores = s.cores := rfl
@[simp] theorem updHport_routers (s : State) (h : Nat) (f : HostPort → HostPort) : (updHport s h f).routers = s.routers := rfl
@[simp] theorem updHport_regions (s : State) (h : Nat) (f : HostPort → HostPort) : (updHport s h f).regions = s.regions := rfl
@[simp] theorem updHport_packets (s : State) (h : Nat) (f : HostPort → HostPort) : (updHport s h f).packets = s.packets := rfl
@[simp] theorem updHport_serial (s : State) (h : Nat) (f : HostPort → HostPort) : (updHport s h f).serial = s.serial := rfl
@[simp] theorem updHport_ctl (s : State) (h : Nat) (f : HostPort → HostPort) : (updHport s h f).ctl = s.ctl := rfl
@[simp] theorem updHport_cnt (s : State) (h : Nat) (f : HostPort → HostPort) : (updHport s h f).cnt = s.cnt := rfl
@[simp] theorem updHport_health (s : State) (h : Nat) (f : HostPort → HostPort) : (updHport s h f).health = s.health := rfl
@[simp] theorem updHport_logq (s : State) (h : Nat) (f : HostPort → HostPort) : (updHport s h f).logq = s.logq := rfl
@[simp] theorem updHport_dom (s : State) (h : Nat) (f : HostPort → HostPort) : (updHport s h f).dom = s.dom := rfl
@[simp] theorem updHport_reloc (s : State) (h : Nat) (f : HostPort → HostPort) : (updHport s h f).reloc = s.reloc := rfl
@[simp] theorem updHport_tid (s : State) (h : Nat) (f : HostPort → HostPort) : (updHport s h f).tid = s.tid := rfl
@[simp] theorem updHport_phase (s : State) (h : Nat) (f : HostPort → HostPort) : (updHport s h f).phase = s.phase := rfl
@[simp] theorem updHport_engines (s : State) (h : Nat) (f : HostPort → HostPort) : (updHport s h f).engines = s.engines := rfl
@[simp] theorem updHport_bridges (s : State) (h : Nat) (f : HostPort → HostPort) : (updHport s h f).bridges = s.bridges := rfl
@[simp] theorem updHport_ports (s : State) (h : Nat) (f : HostPort → HostPort) : (updHport s h f).ports = s.ports := rfl
@[simp] theorem updHport_hmem (s : State) (h : Nat) (f : HostPort → HostPort) : (updHport s h f).hmem = s.hmem := rfl
@[simp] theorem updHport_fns (s : State) (h : Nat) (f : HostPort → HostPort) : (updHport s h f).fns = s.fns := rfl
@[simp] theorem updHport_pairs (s : State) (h : Nat) (f : HostPort → HostPort) : (updHport s h f).pairs = s.pairs := rfl
@[simp] theorem updHport_vecs (s : State) (h : Nat) (f : HostPort → HostPort) : (updHport s h f).vecs = s.vecs := rfl
@[simp] theorem updHport_streams (s : State) (h : Nat) (f : HostPort → HostPort) : (updHport s h f).streams = s.streams := rfl
@[simp] theorem updHport_load (s : State) (h : Nat) (f : HostPort → HostPort) : (updHport s h f).load = s.load := rfl
@[simp] theorem updHport_reqId (s : State) (h : Nat) (f : HostPort → HostPort) : (updHport s h f).reqId = s.reqId := rfl
@[simp] theorem updHport_hchans (s : State) (h : Nat) (f : HostPort → HostPort) : (updHport s h f).hchans = s.hchans := rfl
@[simp] theorem updHport_harbours (s : State) (h : Nat) (f : HostPort → HostPort) : (updHport s h f).harbours = s.harbours := rfl
@[simp] theorem updHport_sensors (s : State) (h : Nat) (f : HostPort → HostPort) : (updHport s h f).sensors = s.sensors := rfl
@[simp] theorem updHport_nodes (s : State) (h : Nat) (f : HostPort → HostPort) : (updHport s h f).nodes = s.nodes := rfl
@[simp] theorem updHport_lh (s : State) (h : Nat) (f : HostPort → HostPort) : (updHport s h f).lh = s.lh := rfl
@[simp] theorem updHport_power (s : State) (h : Nat) (f : HostPort → HostPort) : (updHport s h f).power = s.power := rfl
@[simp] theorem updHport_up (s : State) (h : Nat) (f : HostPort → HostPort) : (updHport s h f).up = s.up := rfl
@[simp] theorem updHport_dbg (s : State) (h : Nat) (f : HostPort → HostPort) : (updHport s h f).dbg = s.dbg := rfl

/-! ### setStream -/

@[simp] theorem setStream_pending (s : State) (n : Nat) (v : Option Stream) : (setStream s n v).pending = s.pending := rfl
@[simp] theorem setStream_cclk (s : State) (n : Nat) (v : Option Stream) : (setStream s n v).cclk = s.cclk := rfl
@[simp] theorem setStream_cores (s : State) (n : Nat) (v : Option Stream) : (setStream s n v).cores = s.cores := rfl
@[simp] theorem setStream_routers (s : State) (n : Nat) (v : Option Stream) : (setStream s n v).routers = s.routers := rfl
@[simp] theorem setStream_regions (s : State) (n : Nat) (v : Option Stream) : (setStream s n v).regions = s.regions := rfl
@[simp] theorem setStream_packets (s : State) (n : Nat) (v : Option Stream) : (setStream s n v).packets = s.packets := rfl
@[simp] theorem setStream_serial (s : State) (n : Nat) (v : Option Stream) : (setStream s n v).serial = s.serial := rfl
@[simp] theorem setStream_ctl (s : State) (n : Nat) (v : Option Stream) : (setStream s n v).ctl = s.ctl := rfl
@[simp] theorem setStream_cnt (s : State) (n : Nat) (v : Option Stream) : (setStream s n v).cnt = s.cnt := rfl
@[simp] theorem setStream_health (s : State) (n : Nat) (v : Option Stream) : (setStream s n v).health = s.health := rfl
@[simp] theorem setStream_logq (s : State) (n : Nat) (v : Option Stream) : (setStream s n v).logq = s.logq := rfl
@[simp] theorem setStream_dom (s : State) (n : Nat) (v : Option Stream) : (setStream s n v).dom = s.dom := rfl
@[simp] theorem setStream_reloc (s : State) (n : Nat) (v : Option Stream) : (setStream s n v).reloc = s.reloc := rfl
@[simp] theorem setStream_tid (s : State) (n : Nat) (v : Option Stream) : (setStream s n v).tid = s.tid := rfl
@[simp] theorem setStream_phase (s : State) (n : Nat) (v : Option Stream) : (setStream s n v).phase = s.phase := rfl
@[simp] theorem setStream_engines (s : State) (n : Nat) (v : Option Stream) : (setStream s n v).engines = s.engines := rfl
@[simp] theorem setStream_bridges (s : State) (n : Nat) (v : Option Stream) : (setStream s n v).bridges = s.bridges := rfl
@[simp] theorem setStream_ports (s : State) (n : Nat) (v : Option Stream) : (setStream s n v).ports = s.ports := rfl
@[simp] theorem setStream_hmem (s : State) (n : Nat) (v : Option Stream) : (setStream s n v).hmem = s.hmem := rfl
@[simp] theorem setStream_hports (s : State) (n : Nat) (v : Option Stream) : (setStream s n v).hports = s.hports := rfl
@[simp] theorem setStream_fns (s : State) (n : Nat) (v : Option Stream) : (setStream s n v).fns = s.fns := rfl
@[simp] theorem setStream_pairs (s : State) (n : Nat) (v : Option Stream) : (setStream s n v).pairs = s.pairs := rfl
@[simp] theorem setStream_vecs (s : State) (n : Nat) (v : Option Stream) : (setStream s n v).vecs = s.vecs := rfl
@[simp] theorem setStream_load (s : State) (n : Nat) (v : Option Stream) : (setStream s n v).load = s.load := rfl
@[simp] theorem setStream_reqId (s : State) (n : Nat) (v : Option Stream) : (setStream s n v).reqId = s.reqId := rfl
@[simp] theorem setStream_hchans (s : State) (n : Nat) (v : Option Stream) : (setStream s n v).hchans = s.hchans := rfl
@[simp] theorem setStream_harbours (s : State) (n : Nat) (v : Option Stream) : (setStream s n v).harbours = s.harbours := rfl
@[simp] theorem setStream_sensors (s : State) (n : Nat) (v : Option Stream) : (setStream s n v).sensors = s.sensors := rfl
@[simp] theorem setStream_nodes (s : State) (n : Nat) (v : Option Stream) : (setStream s n v).nodes = s.nodes := rfl
@[simp] theorem setStream_lh (s : State) (n : Nat) (v : Option Stream) : (setStream s n v).lh = s.lh := rfl
@[simp] theorem setStream_power (s : State) (n : Nat) (v : Option Stream) : (setStream s n v).power = s.power := rfl
@[simp] theorem setStream_up (s : State) (n : Nat) (v : Option Stream) : (setStream s n v).up = s.up := rfl
@[simp] theorem setStream_dbg (s : State) (n : Nat) (v : Option Stream) : (setStream s n v).dbg = s.dbg := rfl

/-! ### updChan -/

@[simp] theorem updChan_pending (s : State) (k : Nat) (f : HChan → HChan) : (updChan s k f).pending = s.pending := rfl
@[simp] theorem updChan_cclk (s : State) (k : Nat) (f : HChan → HChan) : (updChan s k f).cclk = s.cclk := rfl
@[simp] theorem updChan_cores (s : State) (k : Nat) (f : HChan → HChan) : (updChan s k f).cores = s.cores := rfl
@[simp] theorem updChan_routers (s : State) (k : Nat) (f : HChan → HChan) : (updChan s k f).routers = s.routers := rfl
@[simp] theorem updChan_regions (s : State) (k : Nat) (f : HChan → HChan) : (updChan s k f).regions = s.regions := rfl
@[simp] theorem updChan_packets (s : State) (k : Nat) (f : HChan → HChan) : (updChan s k f).packets = s.packets := rfl
@[simp] theorem updChan_serial (s : State) (k : Nat) (f : HChan → HChan) : (updChan s k f).serial = s.serial := rfl
@[simp] theorem updChan_ctl (s : State) (k : Nat) (f : HChan → HChan) : (updChan s k f).ctl = s.ctl := rfl
@[simp] theorem updChan_cnt (s : State) (k : Nat) (f : HChan → HChan) : (updChan s k f).cnt = s.cnt := rfl
@[simp] theorem updChan_health (s : State) (k : Nat) (f : HChan → HChan) : (updChan s k f).health = s.health := rfl
@[simp] theorem updChan_logq (s : State) (k : Nat) (f : HChan → HChan) : (updChan s k f).logq = s.logq := rfl
@[simp] theorem updChan_dom (s : State) (k : Nat) (f : HChan → HChan) : (updChan s k f).dom = s.dom := rfl
@[simp] theorem updChan_reloc (s : State) (k : Nat) (f : HChan → HChan) : (updChan s k f).reloc = s.reloc := rfl
@[simp] theorem updChan_tid (s : State) (k : Nat) (f : HChan → HChan) : (updChan s k f).tid = s.tid := rfl
@[simp] theorem updChan_phase (s : State) (k : Nat) (f : HChan → HChan) : (updChan s k f).phase = s.phase := rfl
@[simp] theorem updChan_engines (s : State) (k : Nat) (f : HChan → HChan) : (updChan s k f).engines = s.engines := rfl
@[simp] theorem updChan_bridges (s : State) (k : Nat) (f : HChan → HChan) : (updChan s k f).bridges = s.bridges := rfl
@[simp] theorem updChan_ports (s : State) (k : Nat) (f : HChan → HChan) : (updChan s k f).ports = s.ports := rfl
@[simp] theorem updChan_hmem (s : State) (k : Nat) (f : HChan → HChan) : (updChan s k f).hmem = s.hmem := rfl
@[simp] theorem updChan_hports (s : State) (k : Nat) (f : HChan → HChan) : (updChan s k f).hports = s.hports := rfl
@[simp] theorem updChan_fns (s : State) (k : Nat) (f : HChan → HChan) : (updChan s k f).fns = s.fns := rfl
@[simp] theorem updChan_pairs (s : State) (k : Nat) (f : HChan → HChan) : (updChan s k f).pairs = s.pairs := rfl
@[simp] theorem updChan_vecs (s : State) (k : Nat) (f : HChan → HChan) : (updChan s k f).vecs = s.vecs := rfl
@[simp] theorem updChan_streams (s : State) (k : Nat) (f : HChan → HChan) : (updChan s k f).streams = s.streams := rfl
@[simp] theorem updChan_load (s : State) (k : Nat) (f : HChan → HChan) : (updChan s k f).load = s.load := rfl
@[simp] theorem updChan_reqId (s : State) (k : Nat) (f : HChan → HChan) : (updChan s k f).reqId = s.reqId := rfl
@[simp] theorem updChan_harbours (s : State) (k : Nat) (f : HChan → HChan) : (updChan s k f).harbours = s.harbours := rfl
@[simp] theorem updChan_sensors (s : State) (k : Nat) (f : HChan → HChan) : (updChan s k f).sensors = s.sensors := rfl
@[simp] theorem updChan_nodes (s : State) (k : Nat) (f : HChan → HChan) : (updChan s k f).nodes = s.nodes := rfl
@[simp] theorem updChan_lh (s : State) (k : Nat) (f : HChan → HChan) : (updChan s k f).lh = s.lh := rfl
@[simp] theorem updChan_power (s : State) (k : Nat) (f : HChan → HChan) : (updChan s k f).power = s.power := rfl
@[simp] theorem updChan_up (s : State) (k : Nat) (f : HChan → HChan) : (updChan s k f).up = s.up := rfl
@[simp] theorem updChan_dbg (s : State) (k : Nat) (f : HChan → HChan) : (updChan s k f).dbg = s.dbg := rfl

/-! ### updHarbour -/

@[simp] theorem updHarbour_pending (s : State) (q : Nat) (f : Harbour → Harbour) : (updHarbour s q f).pending = s.pending := rfl
@[simp] theorem updHarbour_cclk (s : State) (q : Nat) (f : Harbour → Harbour) : (updHarbour s q f).cclk = s.cclk := rfl
@[simp] theorem updHarbour_cores (s : State) (q : Nat) (f : Harbour → Harbour) : (updHarbour s q f).cores = s.cores := rfl
@[simp] theorem updHarbour_routers (s : State) (q : Nat) (f : Harbour → Harbour) : (updHarbour s q f).routers = s.routers := rfl
@[simp] theorem updHarbour_regions (s : State) (q : Nat) (f : Harbour → Harbour) : (updHarbour s q f).regions = s.regions := rfl
@[simp] theorem updHarbour_packets (s : State) (q : Nat) (f : Harbour → Harbour) : (updHarbour s q f).packets = s.packets := rfl
@[simp] theorem updHarbour_serial (s : State) (q : Nat) (f : Harbour → Harbour) : (updHarbour s q f).serial = s.serial := rfl
@[simp] theorem updHarbour_ctl (s : State) (q : Nat) (f : Harbour → Harbour) : (updHarbour s q f).ctl = s.ctl := rfl
@[simp] theorem updHarbour_cnt (s : State) (q : Nat) (f : Harbour → Harbour) : (updHarbour s q f).cnt = s.cnt := rfl
@[simp] theorem updHarbour_health (s : State) (q : Nat) (f : Harbour → Harbour) : (updHarbour s q f).health = s.health := rfl
@[simp] theorem updHarbour_logq (s : State) (q : Nat) (f : Harbour → Harbour) : (updHarbour s q f).logq = s.logq := rfl
@[simp] theorem updHarbour_dom (s : State) (q : Nat) (f : Harbour → Harbour) : (updHarbour s q f).dom = s.dom := rfl
@[simp] theorem updHarbour_reloc (s : State) (q : Nat) (f : Harbour → Harbour) : (updHarbour s q f).reloc = s.reloc := rfl
@[simp] theorem updHarbour_tid (s : State) (q : Nat) (f : Harbour → Harbour) : (updHarbour s q f).tid = s.tid := rfl
@[simp] theorem updHarbour_phase (s : State) (q : Nat) (f : Harbour → Harbour) : (updHarbour s q f).phase = s.phase := rfl
@[simp] theorem updHarbour_engines (s : State) (q : Nat) (f : Harbour → Harbour) : (updHarbour s q f).engines = s.engines := rfl
@[simp] theorem updHarbour_bridges (s : State) (q : Nat) (f : Harbour → Harbour) : (updHarbour s q f).bridges = s.bridges := rfl
@[simp] theorem updHarbour_ports (s : State) (q : Nat) (f : Harbour → Harbour) : (updHarbour s q f).ports = s.ports := rfl
@[simp] theorem updHarbour_hmem (s : State) (q : Nat) (f : Harbour → Harbour) : (updHarbour s q f).hmem = s.hmem := rfl
@[simp] theorem updHarbour_hports (s : State) (q : Nat) (f : Harbour → Harbour) : (updHarbour s q f).hports = s.hports := rfl
@[simp] theorem updHarbour_fns (s : State) (q : Nat) (f : Harbour → Harbour) : (updHarbour s q f).fns = s.fns := rfl
@[simp] theorem updHarbour_pairs (s : State) (q : Nat) (f : Harbour → Harbour) : (updHarbour s q f).pairs = s.pairs := rfl
@[simp] theorem updHarbour_vecs (s : State) (q : Nat) (f : Harbour → Harbour) : (updHarbour s q f).vecs = s.vecs := rfl
@[simp] theorem updHarbour_streams (s : State) (q : Nat) (f : Harbour → Harbour) : (updHarbour s q f).streams = s.streams := rfl
@[simp] theorem updHarbour_load (s : State) (q : Nat) (f : Harbour → Harbour) : (updHarbour s q f).load = s.load := rfl
@[simp] theorem updHarbour_reqId (s : State) (q : Nat) (f : Harbour → Harbour) : (updHarbour s q f).reqId = s.reqId := rfl
@[simp] theorem updHarbour_hchans (s : State) (q : Nat) (f : Harbour → Harbour) : (updHarbour s q f).hchans = s.hchans := rfl
@[simp] theorem updHarbour_sensors (s : State) (q : Nat) (f : Harbour → Harbour) : (updHarbour s q f).sensors = s.sensors := rfl
@[simp] theorem updHarbour_nodes (s : State) (q : Nat) (f : Harbour → Harbour) : (updHarbour s q f).nodes = s.nodes := rfl
@[simp] theorem updHarbour_lh (s : State) (q : Nat) (f : Harbour → Harbour) : (updHarbour s q f).lh = s.lh := rfl
@[simp] theorem updHarbour_power (s : State) (q : Nat) (f : Harbour → Harbour) : (updHarbour s q f).power = s.power := rfl
@[simp] theorem updHarbour_up (s : State) (q : Nat) (f : Harbour → Harbour) : (updHarbour s q f).up = s.up := rfl
@[simp] theorem updHarbour_dbg (s : State) (q : Nat) (f : Harbour → Harbour) : (updHarbour s q f).dbg = s.dbg := rfl

/-! ### updSensor -/

@[simp] theorem updSensor_pending (s : State) (n : Nat) (f : Sensor → Sensor) : (updSensor s n f).pending = s.pending := rfl
@[simp] theorem updSensor_cclk (s : State) (n : Nat) (f : Sensor → Sensor) : (updSensor s n f).cclk = s.cclk := rfl
@[simp] theorem updSensor_cores (s : State) (n : Nat) (f : Sensor → Sensor) : (updSensor s n f).cores = s.cores := rfl
@[simp] theorem updSensor_routers (s : State) (n : Nat) (f : Sensor → Sensor) : (updSensor s n f).routers = s.routers := rfl
@[simp] theorem updSensor_regions (s : State) (n : Nat) (f : Sensor → Sensor) : (updSensor s n f).regions = s.regions := rfl
@[simp] theorem updSensor_packets (s : State) (n : Nat) (f : Sensor → Sensor) : (updSensor s n f).packets = s.packets := rfl
@[simp] theorem updSensor_serial (s : State) (n : Nat) (f : Sensor → Sensor) : (updSensor s n f).serial = s.serial := rfl
@[simp] theorem updSensor_ctl (s : State) (n : Nat) (f : Sensor → Sensor) : (updSensor s n f).ctl = s.ctl := rfl
@[simp] theorem updSensor_cnt (s : State) (n : Nat) (f : Sensor → Sensor) : (updSensor s n f).cnt = s.cnt := rfl
@[simp] theorem updSensor_health (s : State) (n : Nat) (f : Sensor → Sensor) : (updSensor s n f).health = s.health := rfl
@[simp] theorem updSensor_logq (s : State) (n : Nat) (f : Sensor → Sensor) : (updSensor s n f).logq = s.logq := rfl
@[simp] theorem updSensor_dom (s : State) (n : Nat) (f : Sensor → Sensor) : (updSensor s n f).dom = s.dom := rfl
@[simp] theorem updSensor_reloc (s : State) (n : Nat) (f : Sensor → Sensor) : (updSensor s n f).reloc = s.reloc := rfl
@[simp] theorem updSensor_tid (s : State) (n : Nat) (f : Sensor → Sensor) : (updSensor s n f).tid = s.tid := rfl
@[simp] theorem updSensor_phase (s : State) (n : Nat) (f : Sensor → Sensor) : (updSensor s n f).phase = s.phase := rfl
@[simp] theorem updSensor_engines (s : State) (n : Nat) (f : Sensor → Sensor) : (updSensor s n f).engines = s.engines := rfl
@[simp] theorem updSensor_bridges (s : State) (n : Nat) (f : Sensor → Sensor) : (updSensor s n f).bridges = s.bridges := rfl
@[simp] theorem updSensor_ports (s : State) (n : Nat) (f : Sensor → Sensor) : (updSensor s n f).ports = s.ports := rfl
@[simp] theorem updSensor_hmem (s : State) (n : Nat) (f : Sensor → Sensor) : (updSensor s n f).hmem = s.hmem := rfl
@[simp] theorem updSensor_hports (s : State) (n : Nat) (f : Sensor → Sensor) : (updSensor s n f).hports = s.hports := rfl
@[simp] theorem updSensor_fns (s : State) (n : Nat) (f : Sensor → Sensor) : (updSensor s n f).fns = s.fns := rfl
@[simp] theorem updSensor_pairs (s : State) (n : Nat) (f : Sensor → Sensor) : (updSensor s n f).pairs = s.pairs := rfl
@[simp] theorem updSensor_vecs (s : State) (n : Nat) (f : Sensor → Sensor) : (updSensor s n f).vecs = s.vecs := rfl
@[simp] theorem updSensor_streams (s : State) (n : Nat) (f : Sensor → Sensor) : (updSensor s n f).streams = s.streams := rfl
@[simp] theorem updSensor_load (s : State) (n : Nat) (f : Sensor → Sensor) : (updSensor s n f).load = s.load := rfl
@[simp] theorem updSensor_reqId (s : State) (n : Nat) (f : Sensor → Sensor) : (updSensor s n f).reqId = s.reqId := rfl
@[simp] theorem updSensor_hchans (s : State) (n : Nat) (f : Sensor → Sensor) : (updSensor s n f).hchans = s.hchans := rfl
@[simp] theorem updSensor_harbours (s : State) (n : Nat) (f : Sensor → Sensor) : (updSensor s n f).harbours = s.harbours := rfl
@[simp] theorem updSensor_nodes (s : State) (n : Nat) (f : Sensor → Sensor) : (updSensor s n f).nodes = s.nodes := rfl
@[simp] theorem updSensor_lh (s : State) (n : Nat) (f : Sensor → Sensor) : (updSensor s n f).lh = s.lh := rfl
@[simp] theorem updSensor_power (s : State) (n : Nat) (f : Sensor → Sensor) : (updSensor s n f).power = s.power := rfl
@[simp] theorem updSensor_up (s : State) (n : Nat) (f : Sensor → Sensor) : (updSensor s n f).up = s.up := rfl
@[simp] theorem updSensor_dbg (s : State) (n : Nat) (f : Sensor → Sensor) : (updSensor s n f).dbg = s.dbg := rfl

/-! ### updNode -/

@[simp] theorem updNode_pending (s : State) (k : Nat) (f : SwNode → SwNode) : (updNode s k f).pending = s.pending := rfl
@[simp] theorem updNode_cclk (s : State) (k : Nat) (f : SwNode → SwNode) : (updNode s k f).cclk = s.cclk := rfl
@[simp] theorem updNode_cores (s : State) (k : Nat) (f : SwNode → SwNode) : (updNode s k f).cores = s.cores := rfl
@[simp] theorem updNode_routers (s : State) (k : Nat) (f : SwNode → SwNode) : (updNode s k f).routers = s.routers := rfl
@[simp] theorem updNode_regions (s : State) (k : Nat) (f : SwNode → SwNode) : (updNode s k f).regions = s.regions := rfl
@[simp] theorem updNode_packets (s : State) (k : Nat) (f : SwNode → SwNode) : (updNode s k f).packets = s.packets := rfl
@[simp] theorem updNode_serial (s : State) (k : Nat) (f : SwNode → SwNode) : (updNode s k f).serial = s.serial := rfl
@[simp] theorem updNode_ctl (s : State) (k : Nat) (f : SwNode → SwNode) : (updNode s k f).ctl = s.ctl := rfl
@[simp] theorem updNode_cnt (s : State) (k : Nat) (f : SwNode → SwNode) : (updNode s k f).cnt = s.cnt := rfl
@[simp] theorem updNode_health (s : State) (k : Nat) (f : SwNode → SwNode) : (updNode s k f).health = s.health := rfl
@[simp] theorem updNode_logq (s : State) (k : Nat) (f : SwNode → SwNode) : (updNode s k f).logq = s.logq := rfl
@[simp] theorem updNode_dom (s : State) (k : Nat) (f : SwNode → SwNode) : (updNode s k f).dom = s.dom := rfl
@[simp] theorem updNode_reloc (s : State) (k : Nat) (f : SwNode → SwNode) : (updNode s k f).reloc = s.reloc := rfl
@[simp] theorem updNode_tid (s : State) (k : Nat) (f : SwNode → SwNode) : (updNode s k f).tid = s.tid := rfl
@[simp] theorem updNode_phase (s : State) (k : Nat) (f : SwNode → SwNode) : (updNode s k f).phase = s.phase := rfl
@[simp] theorem updNode_engines (s : State) (k : Nat) (f : SwNode → SwNode) : (updNode s k f).engines = s.engines := rfl
@[simp] theorem updNode_bridges (s : State) (k : Nat) (f : SwNode → SwNode) : (updNode s k f).bridges = s.bridges := rfl
@[simp] theorem updNode_ports (s : State) (k : Nat) (f : SwNode → SwNode) : (updNode s k f).ports = s.ports := rfl
@[simp] theorem updNode_hmem (s : State) (k : Nat) (f : SwNode → SwNode) : (updNode s k f).hmem = s.hmem := rfl
@[simp] theorem updNode_hports (s : State) (k : Nat) (f : SwNode → SwNode) : (updNode s k f).hports = s.hports := rfl
@[simp] theorem updNode_fns (s : State) (k : Nat) (f : SwNode → SwNode) : (updNode s k f).fns = s.fns := rfl
@[simp] theorem updNode_pairs (s : State) (k : Nat) (f : SwNode → SwNode) : (updNode s k f).pairs = s.pairs := rfl
@[simp] theorem updNode_vecs (s : State) (k : Nat) (f : SwNode → SwNode) : (updNode s k f).vecs = s.vecs := rfl
@[simp] theorem updNode_streams (s : State) (k : Nat) (f : SwNode → SwNode) : (updNode s k f).streams = s.streams := rfl
@[simp] theorem updNode_load (s : State) (k : Nat) (f : SwNode → SwNode) : (updNode s k f).load = s.load := rfl
@[simp] theorem updNode_reqId (s : State) (k : Nat) (f : SwNode → SwNode) : (updNode s k f).reqId = s.reqId := rfl
@[simp] theorem updNode_hchans (s : State) (k : Nat) (f : SwNode → SwNode) : (updNode s k f).hchans = s.hchans := rfl
@[simp] theorem updNode_harbours (s : State) (k : Nat) (f : SwNode → SwNode) : (updNode s k f).harbours = s.harbours := rfl
@[simp] theorem updNode_sensors (s : State) (k : Nat) (f : SwNode → SwNode) : (updNode s k f).sensors = s.sensors := rfl
@[simp] theorem updNode_lh (s : State) (k : Nat) (f : SwNode → SwNode) : (updNode s k f).lh = s.lh := rfl
@[simp] theorem updNode_power (s : State) (k : Nat) (f : SwNode → SwNode) : (updNode s k f).power = s.power := rfl
@[simp] theorem updNode_up (s : State) (k : Nat) (f : SwNode → SwNode) : (updNode s k f).up = s.up := rfl
@[simp] theorem updNode_dbg (s : State) (k : Nat) (f : SwNode → SwNode) : (updNode s k f).dbg = s.dbg := rfl

/-! ### updLh -/

@[simp] theorem updLh_pending (s : State) (f : Lighthouse → Lighthouse) : (updLh s f).pending = s.pending := rfl
@[simp] theorem updLh_cclk (s : State) (f : Lighthouse → Lighthouse) : (updLh s f).cclk = s.cclk := rfl
@[simp] theorem updLh_cores (s : State) (f : Lighthouse → Lighthouse) : (updLh s f).cores = s.cores := rfl
@[simp] theorem updLh_routers (s : State) (f : Lighthouse → Lighthouse) : (updLh s f).routers = s.routers := rfl
@[simp] theorem updLh_regions (s : State) (f : Lighthouse → Lighthouse) : (updLh s f).regions = s.regions := rfl
@[simp] theorem updLh_packets (s : State) (f : Lighthouse → Lighthouse) : (updLh s f).packets = s.packets := rfl
@[simp] theorem updLh_serial (s : State) (f : Lighthouse → Lighthouse) : (updLh s f).serial = s.serial := rfl
@[simp] theorem updLh_ctl (s : State) (f : Lighthouse → Lighthouse) : (updLh s f).ctl = s.ctl := rfl
@[simp] theorem updLh_cnt (s : State) (f : Lighthouse → Lighthouse) : (updLh s f).cnt = s.cnt := rfl
@[simp] theorem updLh_health (s : State) (f : Lighthouse → Lighthouse) : (updLh s f).health = s.health := rfl
@[simp] theorem updLh_logq (s : State) (f : Lighthouse → Lighthouse) : (updLh s f).logq = s.logq := rfl
@[simp] theorem updLh_dom (s : State) (f : Lighthouse → Lighthouse) : (updLh s f).dom = s.dom := rfl
@[simp] theorem updLh_reloc (s : State) (f : Lighthouse → Lighthouse) : (updLh s f).reloc = s.reloc := rfl
@[simp] theorem updLh_tid (s : State) (f : Lighthouse → Lighthouse) : (updLh s f).tid = s.tid := rfl
@[simp] theorem updLh_phase (s : State) (f : Lighthouse → Lighthouse) : (updLh s f).phase = s.phase := rfl
@[simp] theorem updLh_engines (s : State) (f : Lighthouse → Lighthouse) : (updLh s f).engines = s.engines := rfl
@[simp] theorem updLh_bridges (s : State) (f : Lighthouse → Lighthouse) : (updLh s f).bridges = s.bridges := rfl
@[simp] theorem updLh_ports (s : State) (f : Lighthouse → Lighthouse) : (updLh s f).ports = s.ports := rfl
@[simp] theorem updLh_hmem (s : State) (f : Lighthouse → Lighthouse) : (updLh s f).hmem = s.hmem := rfl
@[simp] theorem updLh_hports (s : State) (f : Lighthouse → Lighthouse) : (updLh s f).hports = s.hports := rfl
@[simp] theorem updLh_fns (s : State) (f : Lighthouse → Lighthouse) : (updLh s f).fns = s.fns := rfl
@[simp] theorem updLh_pairs (s : State) (f : Lighthouse → Lighthouse) : (updLh s f).pairs = s.pairs := rfl
@[simp] theorem updLh_vecs (s : State) (f : Lighthouse → Lighthouse) : (updLh s f).vecs = s.vecs := rfl
@[simp] theorem updLh_streams (s : State) (f : Lighthouse → Lighthouse) : (updLh s f).streams = s.streams := rfl
@[simp] theorem updLh_load (s : State) (f : Lighthouse → Lighthouse) : (updLh s f).load = s.load := rfl
@[simp] theorem updLh_reqId (s : State) (f : Lighthouse → Lighthouse) : (updLh s f).reqId = s.reqId := rfl
@[simp] theorem updLh_hchans (s : State) (f : Lighthouse → Lighthouse) : (updLh s f).hchans = s.hchans := rfl
@[simp] theorem updLh_harbours (s : State) (f : Lighthouse → Lighthouse) : (updLh s f).harbours = s.harbours := rfl
@[simp] theorem updLh_sensors (s : State) (f : Lighthouse → Lighthouse) : (updLh s f).sensors = s.sensors := rfl
@[simp] theorem updLh_nodes (s : State) (f : Lighthouse → Lighthouse) : (updLh s f).nodes = s.nodes := rfl
@[simp] theorem updLh_power (s : State) (f : Lighthouse → Lighthouse) : (updLh s f).power = s.power := rfl
@[simp] theorem updLh_up (s : State) (f : Lighthouse → Lighthouse) : (updLh s f).up = s.up := rfl
@[simp] theorem updLh_dbg (s : State) (f : Lighthouse → Lighthouse) : (updLh s f).dbg = s.dbg := rfl

/-! ### updPower -/

@[simp] theorem updPower_pending (s : State) (f : Power → Power) : (updPower s f).pending = s.pending := rfl
@[simp] theorem updPower_cclk (s : State) (f : Power → Power) : (updPower s f).cclk = s.cclk := rfl
@[simp] theorem updPower_cores (s : State) (f : Power → Power) : (updPower s f).cores = s.cores := rfl
@[simp] theorem updPower_routers (s : State) (f : Power → Power) : (updPower s f).routers = s.routers := rfl
@[simp] theorem updPower_regions (s : State) (f : Power → Power) : (updPower s f).regions = s.regions := rfl
@[simp] theorem updPower_packets (s : State) (f : Power → Power) : (updPower s f).packets = s.packets := rfl
@[simp] theorem updPower_serial (s : State) (f : Power → Power) : (updPower s f).serial = s.serial := rfl
@[simp] theorem updPower_ctl (s : State) (f : Power → Power) : (updPower s f).ctl = s.ctl := rfl
@[simp] theorem updPower_cnt (s : State) (f : Power → Power) : (updPower s f).cnt = s.cnt := rfl
@[simp] theorem updPower_health (s : State) (f : Power → Power) : (updPower s f).health = s.health := rfl
@[simp] theorem updPower_logq (s : State) (f : Power → Power) : (updPower s f).logq = s.logq := rfl
@[simp] theorem updPower_dom (s : State) (f : Power → Power) : (updPower s f).dom = s.dom := rfl
@[simp] theorem updPower_reloc (s : State) (f : Power → Power) : (updPower s f).reloc = s.reloc := rfl
@[simp] theorem updPower_tid (s : State) (f : Power → Power) : (updPower s f).tid = s.tid := rfl
@[simp] theorem updPower_phase (s : State) (f : Power → Power) : (updPower s f).phase = s.phase := rfl
@[simp] theorem updPower_engines (s : State) (f : Power → Power) : (updPower s f).engines = s.engines := rfl
@[simp] theorem updPower_bridges (s : State) (f : Power → Power) : (updPower s f).bridges = s.bridges := rfl
@[simp] theorem updPower_ports (s : State) (f : Power → Power) : (updPower s f).ports = s.ports := rfl
@[simp] theorem updPower_hmem (s : State) (f : Power → Power) : (updPower s f).hmem = s.hmem := rfl
@[simp] theorem updPower_hports (s : State) (f : Power → Power) : (updPower s f).hports = s.hports := rfl
@[simp] theorem updPower_fns (s : State) (f : Power → Power) : (updPower s f).fns = s.fns := rfl
@[simp] theorem updPower_pairs (s : State) (f : Power → Power) : (updPower s f).pairs = s.pairs := rfl
@[simp] theorem updPower_vecs (s : State) (f : Power → Power) : (updPower s f).vecs = s.vecs := rfl
@[simp] theorem updPower_streams (s : State) (f : Power → Power) : (updPower s f).streams = s.streams := rfl
@[simp] theorem updPower_load (s : State) (f : Power → Power) : (updPower s f).load = s.load := rfl
@[simp] theorem updPower_reqId (s : State) (f : Power → Power) : (updPower s f).reqId = s.reqId := rfl
@[simp] theorem updPower_hchans (s : State) (f : Power → Power) : (updPower s f).hchans = s.hchans := rfl
@[simp] theorem updPower_harbours (s : State) (f : Power → Power) : (updPower s f).harbours = s.harbours := rfl
@[simp] theorem updPower_sensors (s : State) (f : Power → Power) : (updPower s f).sensors = s.sensors := rfl
@[simp] theorem updPower_nodes (s : State) (f : Power → Power) : (updPower s f).nodes = s.nodes := rfl
@[simp] theorem updPower_lh (s : State) (f : Power → Power) : (updPower s f).lh = s.lh := rfl
@[simp] theorem updPower_up (s : State) (f : Power → Power) : (updPower s f).up = s.up := rfl
@[simp] theorem updPower_dbg (s : State) (f : Power → Power) : (updPower s f).dbg = s.dbg := rfl

/-! ### updUp -/

@[simp] theorem updUp_pending (s : State) (f : BringUp → BringUp) : (updUp s f).pending = s.pending := rfl
@[simp] theorem updUp_cclk (s : State) (f : BringUp → BringUp) : (updUp s f).cclk = s.cclk := rfl
@[simp] theorem updUp_cores (s : State) (f : BringUp → BringUp) : (updUp s f).cores = s.cores := rfl
@[simp] theorem updUp_routers (s : State) (f : BringUp → BringUp) : (updUp s f).routers = s.routers := rfl
@[simp] theorem updUp_regions (s : State) (f : BringUp → BringUp) : (updUp s f).regions = s.regions := rfl
@[simp] theorem updUp_packets (s : State) (f : BringUp → BringUp) : (updUp s f).packets = s.packets := rfl
@[simp] theorem updUp_serial (s : State) (f : BringUp → BringUp) : (updUp s f).serial = s.serial := rfl
@[simp] theorem updUp_ctl (s : State) (f : BringUp → BringUp) : (updUp s f).ctl = s.ctl := rfl
@[simp] theorem updUp_cnt (s : State) (f : BringUp → BringUp) : (updUp s f).cnt = s.cnt := rfl
@[simp] theorem updUp_health (s : State) (f : BringUp → BringUp) : (updUp s f).health = s.health := rfl
@[simp] theorem updUp_logq (s : State) (f : BringUp → BringUp) : (updUp s f).logq = s.logq := rfl
@[simp] theorem updUp_dom (s : State) (f : BringUp → BringUp) : (updUp s f).dom = s.dom := rfl
@[simp] theorem updUp_reloc (s : State) (f : BringUp → BringUp) : (updUp s f).reloc = s.reloc := rfl
@[simp] theorem updUp_tid (s : State) (f : BringUp → BringUp) : (updUp s f).tid = s.tid := rfl
@[simp] theorem updUp_phase (s : State) (f : BringUp → BringUp) : (updUp s f).phase = s.phase := rfl
@[simp] theorem updUp_engines (s : State) (f : BringUp → BringUp) : (updUp s f).engines = s.engines := rfl
@[simp] theorem updUp_bridges (s : State) (f : BringUp → BringUp) : (updUp s f).bridges = s.bridges := rfl
@[simp] theorem updUp_ports (s : State) (f : BringUp → BringUp) : (updUp s f).ports = s.ports := rfl
@[simp] theorem updUp_hmem (s : State) (f : BringUp → BringUp) : (updUp s f).hmem = s.hmem := rfl
@[simp] theorem updUp_hports (s : State) (f : BringUp → BringUp) : (updUp s f).hports = s.hports := rfl
@[simp] theorem updUp_fns (s : State) (f : BringUp → BringUp) : (updUp s f).fns = s.fns := rfl
@[simp] theorem updUp_pairs (s : State) (f : BringUp → BringUp) : (updUp s f).pairs = s.pairs := rfl
@[simp] theorem updUp_vecs (s : State) (f : BringUp → BringUp) : (updUp s f).vecs = s.vecs := rfl
@[simp] theorem updUp_streams (s : State) (f : BringUp → BringUp) : (updUp s f).streams = s.streams := rfl
@[simp] theorem updUp_load (s : State) (f : BringUp → BringUp) : (updUp s f).load = s.load := rfl
@[simp] theorem updUp_reqId (s : State) (f : BringUp → BringUp) : (updUp s f).reqId = s.reqId := rfl
@[simp] theorem updUp_hchans (s : State) (f : BringUp → BringUp) : (updUp s f).hchans = s.hchans := rfl
@[simp] theorem updUp_harbours (s : State) (f : BringUp → BringUp) : (updUp s f).harbours = s.harbours := rfl
@[simp] theorem updUp_sensors (s : State) (f : BringUp → BringUp) : (updUp s f).sensors = s.sensors := rfl
@[simp] theorem updUp_nodes (s : State) (f : BringUp → BringUp) : (updUp s f).nodes = s.nodes := rfl
@[simp] theorem updUp_lh (s : State) (f : BringUp → BringUp) : (updUp s f).lh = s.lh := rfl
@[simp] theorem updUp_power (s : State) (f : BringUp → BringUp) : (updUp s f).power = s.power := rfl
@[simp] theorem updUp_dbg (s : State) (f : BringUp → BringUp) : (updUp s f).dbg = s.dbg := rfl

/-! ### updDbg -/

@[simp] theorem updDbg_pending (s : State) (f : Debug → Debug) : (updDbg s f).pending = s.pending := rfl
@[simp] theorem updDbg_cclk (s : State) (f : Debug → Debug) : (updDbg s f).cclk = s.cclk := rfl
@[simp] theorem updDbg_cores (s : State) (f : Debug → Debug) : (updDbg s f).cores = s.cores := rfl
@[simp] theorem updDbg_routers (s : State) (f : Debug → Debug) : (updDbg s f).routers = s.routers := rfl
@[simp] theorem updDbg_regions (s : State) (f : Debug → Debug) : (updDbg s f).regions = s.regions := rfl
@[simp] theorem updDbg_packets (s : State) (f : Debug → Debug) : (updDbg s f).packets = s.packets := rfl
@[simp] theorem updDbg_serial (s : State) (f : Debug → Debug) : (updDbg s f).serial = s.serial := rfl
@[simp] theorem updDbg_ctl (s : State) (f : Debug → Debug) : (updDbg s f).ctl = s.ctl := rfl
@[simp] theorem updDbg_cnt (s : State) (f : Debug → Debug) : (updDbg s f).cnt = s.cnt := rfl
@[simp] theorem updDbg_health (s : State) (f : Debug → Debug) : (updDbg s f).health = s.health := rfl
@[simp] theorem updDbg_logq (s : State) (f : Debug → Debug) : (updDbg s f).logq = s.logq := rfl
@[simp] theorem updDbg_dom (s : State) (f : Debug → Debug) : (updDbg s f).dom = s.dom := rfl
@[simp] theorem updDbg_reloc (s : State) (f : Debug → Debug) : (updDbg s f).reloc = s.reloc := rfl
@[simp] theorem updDbg_tid (s : State) (f : Debug → Debug) : (updDbg s f).tid = s.tid := rfl
@[simp] theorem updDbg_phase (s : State) (f : Debug → Debug) : (updDbg s f).phase = s.phase := rfl
@[simp] theorem updDbg_engines (s : State) (f : Debug → Debug) : (updDbg s f).engines = s.engines := rfl
@[simp] theorem updDbg_bridges (s : State) (f : Debug → Debug) : (updDbg s f).bridges = s.bridges := rfl
@[simp] theorem updDbg_ports (s : State) (f : Debug → Debug) : (updDbg s f).ports = s.ports := rfl
@[simp] theorem updDbg_hmem (s : State) (f : Debug → Debug) : (updDbg s f).hmem = s.hmem := rfl
@[simp] theorem updDbg_hports (s : State) (f : Debug → Debug) : (updDbg s f).hports = s.hports := rfl
@[simp] theorem updDbg_fns (s : State) (f : Debug → Debug) : (updDbg s f).fns = s.fns := rfl
@[simp] theorem updDbg_pairs (s : State) (f : Debug → Debug) : (updDbg s f).pairs = s.pairs := rfl
@[simp] theorem updDbg_vecs (s : State) (f : Debug → Debug) : (updDbg s f).vecs = s.vecs := rfl
@[simp] theorem updDbg_streams (s : State) (f : Debug → Debug) : (updDbg s f).streams = s.streams := rfl
@[simp] theorem updDbg_load (s : State) (f : Debug → Debug) : (updDbg s f).load = s.load := rfl
@[simp] theorem updDbg_reqId (s : State) (f : Debug → Debug) : (updDbg s f).reqId = s.reqId := rfl
@[simp] theorem updDbg_hchans (s : State) (f : Debug → Debug) : (updDbg s f).hchans = s.hchans := rfl
@[simp] theorem updDbg_harbours (s : State) (f : Debug → Debug) : (updDbg s f).harbours = s.harbours := rfl
@[simp] theorem updDbg_sensors (s : State) (f : Debug → Debug) : (updDbg s f).sensors = s.sensors := rfl
@[simp] theorem updDbg_nodes (s : State) (f : Debug → Debug) : (updDbg s f).nodes = s.nodes := rfl
@[simp] theorem updDbg_lh (s : State) (f : Debug → Debug) : (updDbg s f).lh = s.lh := rfl
@[simp] theorem updDbg_power (s : State) (f : Debug → Debug) : (updDbg s f).power = s.power := rfl
@[simp] theorem updDbg_up (s : State) (f : Debug → Debug) : (updDbg s f).up = s.up := rfl

/-! ### sendCtl -/

@[simp] theorem sendCtl_pending (c : Ctl) (s : State) : (sendCtl c s).pending = s.pending := rfl
@[simp] theorem sendCtl_cclk (c : Ctl) (s : State) : (sendCtl c s).cclk = s.cclk := rfl
@[simp] theorem sendCtl_cores (c : Ctl) (s : State) : (sendCtl c s).cores = s.cores := rfl
@[simp] theorem sendCtl_routers (c : Ctl) (s : State) : (sendCtl c s).routers = s.routers := rfl
@[simp] theorem sendCtl_regions (c : Ctl) (s : State) : (sendCtl c s).regions = s.regions := rfl
@[simp] theorem sendCtl_packets (c : Ctl) (s : State) : (sendCtl c s).packets = s.packets := rfl
@[simp] theorem sendCtl_serial (c : Ctl) (s : State) : (sendCtl c s).serial = s.serial := rfl
@[simp] theorem sendCtl_cnt (c : Ctl) (s : State) : (sendCtl c s).cnt = s.cnt := rfl
@[simp] theorem sendCtl_health (c : Ctl) (s : State) : (sendCtl c s).health = s.health := rfl
@[simp] theorem sendCtl_logq (c : Ctl) (s : State) : (sendCtl c s).logq = s.logq := rfl
@[simp] theorem sendCtl_dom (c : Ctl) (s : State) : (sendCtl c s).dom = s.dom := rfl
@[simp] theorem sendCtl_reloc (c : Ctl) (s : State) : (sendCtl c s).reloc = s.reloc := rfl
@[simp] theorem sendCtl_tid (c : Ctl) (s : State) : (sendCtl c s).tid = s.tid := rfl
@[simp] theorem sendCtl_phase (c : Ctl) (s : State) : (sendCtl c s).phase = s.phase := rfl
@[simp] theorem sendCtl_engines (c : Ctl) (s : State) : (sendCtl c s).engines = s.engines := rfl
@[simp] theorem sendCtl_bridges (c : Ctl) (s : State) : (sendCtl c s).bridges = s.bridges := rfl
@[simp] theorem sendCtl_ports (c : Ctl) (s : State) : (sendCtl c s).ports = s.ports := rfl
@[simp] theorem sendCtl_hmem (c : Ctl) (s : State) : (sendCtl c s).hmem = s.hmem := rfl
@[simp] theorem sendCtl_hports (c : Ctl) (s : State) : (sendCtl c s).hports = s.hports := rfl
@[simp] theorem sendCtl_fns (c : Ctl) (s : State) : (sendCtl c s).fns = s.fns := rfl
@[simp] theorem sendCtl_pairs (c : Ctl) (s : State) : (sendCtl c s).pairs = s.pairs := rfl
@[simp] theorem sendCtl_vecs (c : Ctl) (s : State) : (sendCtl c s).vecs = s.vecs := rfl
@[simp] theorem sendCtl_streams (c : Ctl) (s : State) : (sendCtl c s).streams = s.streams := rfl
@[simp] theorem sendCtl_load (c : Ctl) (s : State) : (sendCtl c s).load = s.load := rfl
@[simp] theorem sendCtl_reqId (c : Ctl) (s : State) : (sendCtl c s).reqId = s.reqId := rfl
@[simp] theorem sendCtl_hchans (c : Ctl) (s : State) : (sendCtl c s).hchans = s.hchans := rfl
@[simp] theorem sendCtl_harbours (c : Ctl) (s : State) : (sendCtl c s).harbours = s.harbours := rfl
@[simp] theorem sendCtl_sensors (c : Ctl) (s : State) : (sendCtl c s).sensors = s.sensors := rfl
@[simp] theorem sendCtl_nodes (c : Ctl) (s : State) : (sendCtl c s).nodes = s.nodes := rfl
@[simp] theorem sendCtl_lh (c : Ctl) (s : State) : (sendCtl c s).lh = s.lh := rfl
@[simp] theorem sendCtl_power (c : Ctl) (s : State) : (sendCtl c s).power = s.power := rfl
@[simp] theorem sendCtl_up (c : Ctl) (s : State) : (sendCtl c s).up = s.up := rfl
@[simp] theorem sendCtl_dbg (c : Ctl) (s : State) : (sendCtl c s).dbg = s.dbg := rfl

/-! ### bumpBy -/

@[simp] theorem bumpBy_pending (u n v : Nat) (s : State) : (bumpBy u n v s).pending = s.pending := rfl
@[simp] theorem bumpBy_cclk (u n v : Nat) (s : State) : (bumpBy u n v s).cclk = s.cclk := rfl
@[simp] theorem bumpBy_cores (u n v : Nat) (s : State) : (bumpBy u n v s).cores = s.cores := rfl
@[simp] theorem bumpBy_routers (u n v : Nat) (s : State) : (bumpBy u n v s).routers = s.routers := rfl
@[simp] theorem bumpBy_regions (u n v : Nat) (s : State) : (bumpBy u n v s).regions = s.regions := rfl
@[simp] theorem bumpBy_packets (u n v : Nat) (s : State) : (bumpBy u n v s).packets = s.packets := rfl
@[simp] theorem bumpBy_serial (u n v : Nat) (s : State) : (bumpBy u n v s).serial = s.serial := rfl
@[simp] theorem bumpBy_ctl (u n v : Nat) (s : State) : (bumpBy u n v s).ctl = s.ctl := rfl
@[simp] theorem bumpBy_health (u n v : Nat) (s : State) : (bumpBy u n v s).health = s.health := rfl
@[simp] theorem bumpBy_logq (u n v : Nat) (s : State) : (bumpBy u n v s).logq = s.logq := rfl
@[simp] theorem bumpBy_dom (u n v : Nat) (s : State) : (bumpBy u n v s).dom = s.dom := rfl
@[simp] theorem bumpBy_reloc (u n v : Nat) (s : State) : (bumpBy u n v s).reloc = s.reloc := rfl
@[simp] theorem bumpBy_tid (u n v : Nat) (s : State) : (bumpBy u n v s).tid = s.tid := rfl
@[simp] theorem bumpBy_phase (u n v : Nat) (s : State) : (bumpBy u n v s).phase = s.phase := rfl
@[simp] theorem bumpBy_engines (u n v : Nat) (s : State) : (bumpBy u n v s).engines = s.engines := rfl
@[simp] theorem bumpBy_bridges (u n v : Nat) (s : State) : (bumpBy u n v s).bridges = s.bridges := rfl
@[simp] theorem bumpBy_ports (u n v : Nat) (s : State) : (bumpBy u n v s).ports = s.ports := rfl
@[simp] theorem bumpBy_hmem (u n v : Nat) (s : State) : (bumpBy u n v s).hmem = s.hmem := rfl
@[simp] theorem bumpBy_hports (u n v : Nat) (s : State) : (bumpBy u n v s).hports = s.hports := rfl
@[simp] theorem bumpBy_fns (u n v : Nat) (s : State) : (bumpBy u n v s).fns = s.fns := rfl
@[simp] theorem bumpBy_pairs (u n v : Nat) (s : State) : (bumpBy u n v s).pairs = s.pairs := rfl
@[simp] theorem bumpBy_vecs (u n v : Nat) (s : State) : (bumpBy u n v s).vecs = s.vecs := rfl
@[simp] theorem bumpBy_streams (u n v : Nat) (s : State) : (bumpBy u n v s).streams = s.streams := rfl
@[simp] theorem bumpBy_load (u n v : Nat) (s : State) : (bumpBy u n v s).load = s.load := rfl
@[simp] theorem bumpBy_reqId (u n v : Nat) (s : State) : (bumpBy u n v s).reqId = s.reqId := rfl
@[simp] theorem bumpBy_hchans (u n v : Nat) (s : State) : (bumpBy u n v s).hchans = s.hchans := rfl
@[simp] theorem bumpBy_harbours (u n v : Nat) (s : State) : (bumpBy u n v s).harbours = s.harbours := rfl
@[simp] theorem bumpBy_sensors (u n v : Nat) (s : State) : (bumpBy u n v s).sensors = s.sensors := rfl
@[simp] theorem bumpBy_nodes (u n v : Nat) (s : State) : (bumpBy u n v s).nodes = s.nodes := rfl
@[simp] theorem bumpBy_lh (u n v : Nat) (s : State) : (bumpBy u n v s).lh = s.lh := rfl
@[simp] theorem bumpBy_power (u n v : Nat) (s : State) : (bumpBy u n v s).power = s.power := rfl
@[simp] theorem bumpBy_up (u n v : Nat) (s : State) : (bumpBy u n v s).up = s.up := rfl
@[simp] theorem bumpBy_dbg (u n v : Nat) (s : State) : (bumpBy u n v s).dbg = s.dbg := rfl

/-! ### bump -/

@[simp] theorem bump_pending (u n : Nat) (s : State) : (bump u n s).pending = s.pending := rfl
@[simp] theorem bump_cclk (u n : Nat) (s : State) : (bump u n s).cclk = s.cclk := rfl
@[simp] theorem bump_cores (u n : Nat) (s : State) : (bump u n s).cores = s.cores := rfl
@[simp] theorem bump_routers (u n : Nat) (s : State) : (bump u n s).routers = s.routers := rfl
@[simp] theorem bump_regions (u n : Nat) (s : State) : (bump u n s).regions = s.regions := rfl
@[simp] theorem bump_packets (u n : Nat) (s : State) : (bump u n s).packets = s.packets := rfl
@[simp] theorem bump_serial (u n : Nat) (s : State) : (bump u n s).serial = s.serial := rfl
@[simp] theorem bump_ctl (u n : Nat) (s : State) : (bump u n s).ctl = s.ctl := rfl
@[simp] theorem bump_health (u n : Nat) (s : State) : (bump u n s).health = s.health := rfl
@[simp] theorem bump_logq (u n : Nat) (s : State) : (bump u n s).logq = s.logq := rfl
@[simp] theorem bump_dom (u n : Nat) (s : State) : (bump u n s).dom = s.dom := rfl
@[simp] theorem bump_reloc (u n : Nat) (s : State) : (bump u n s).reloc = s.reloc := rfl
@[simp] theorem bump_tid (u n : Nat) (s : State) : (bump u n s).tid = s.tid := rfl
@[simp] theorem bump_phase (u n : Nat) (s : State) : (bump u n s).phase = s.phase := rfl
@[simp] theorem bump_engines (u n : Nat) (s : State) : (bump u n s).engines = s.engines := rfl
@[simp] theorem bump_bridges (u n : Nat) (s : State) : (bump u n s).bridges = s.bridges := rfl
@[simp] theorem bump_ports (u n : Nat) (s : State) : (bump u n s).ports = s.ports := rfl
@[simp] theorem bump_hmem (u n : Nat) (s : State) : (bump u n s).hmem = s.hmem := rfl
@[simp] theorem bump_hports (u n : Nat) (s : State) : (bump u n s).hports = s.hports := rfl
@[simp] theorem bump_fns (u n : Nat) (s : State) : (bump u n s).fns = s.fns := rfl
@[simp] theorem bump_pairs (u n : Nat) (s : State) : (bump u n s).pairs = s.pairs := rfl
@[simp] theorem bump_vecs (u n : Nat) (s : State) : (bump u n s).vecs = s.vecs := rfl
@[simp] theorem bump_streams (u n : Nat) (s : State) : (bump u n s).streams = s.streams := rfl
@[simp] theorem bump_load (u n : Nat) (s : State) : (bump u n s).load = s.load := rfl
@[simp] theorem bump_reqId (u n : Nat) (s : State) : (bump u n s).reqId = s.reqId := rfl
@[simp] theorem bump_hchans (u n : Nat) (s : State) : (bump u n s).hchans = s.hchans := rfl
@[simp] theorem bump_harbours (u n : Nat) (s : State) : (bump u n s).harbours = s.harbours := rfl
@[simp] theorem bump_sensors (u n : Nat) (s : State) : (bump u n s).sensors = s.sensors := rfl
@[simp] theorem bump_nodes (u n : Nat) (s : State) : (bump u n s).nodes = s.nodes := rfl
@[simp] theorem bump_lh (u n : Nat) (s : State) : (bump u n s).lh = s.lh := rfl
@[simp] theorem bump_power (u n : Nat) (s : State) : (bump u n s).power = s.power := rfl
@[simp] theorem bump_up (u n : Nat) (s : State) : (bump u n s).up = s.up := rfl
@[simp] theorem bump_dbg (u n : Nat) (s : State) : (bump u n s).dbg = s.dbg := rfl

/-! ### logAt -/

@[simp] theorem logAt_pending (u : Nat) (r : LogRec) (s : State) : (logAt u r s).pending = s.pending := rfl
@[simp] theorem logAt_cclk (u : Nat) (r : LogRec) (s : State) : (logAt u r s).cclk = s.cclk := rfl
@[simp] theorem logAt_cores (u : Nat) (r : LogRec) (s : State) : (logAt u r s).cores = s.cores := rfl
@[simp] theorem logAt_routers (u : Nat) (r : LogRec) (s : State) : (logAt u r s).routers = s.routers := rfl
@[simp] theorem logAt_regions (u : Nat) (r : LogRec) (s : State) : (logAt u r s).regions = s.regions := rfl
@[simp] theorem logAt_packets (u : Nat) (r : LogRec) (s : State) : (logAt u r s).packets = s.packets := rfl
@[simp] theorem logAt_serial (u : Nat) (r : LogRec) (s : State) : (logAt u r s).serial = s.serial := rfl
@[simp] theorem logAt_ctl (u : Nat) (r : LogRec) (s : State) : (logAt u r s).ctl = s.ctl := rfl
@[simp] theorem logAt_cnt (u : Nat) (r : LogRec) (s : State) : (logAt u r s).cnt = s.cnt := rfl
@[simp] theorem logAt_health (u : Nat) (r : LogRec) (s : State) : (logAt u r s).health = s.health := rfl
@[simp] theorem logAt_dom (u : Nat) (r : LogRec) (s : State) : (logAt u r s).dom = s.dom := rfl
@[simp] theorem logAt_reloc (u : Nat) (r : LogRec) (s : State) : (logAt u r s).reloc = s.reloc := rfl
@[simp] theorem logAt_tid (u : Nat) (r : LogRec) (s : State) : (logAt u r s).tid = s.tid := rfl
@[simp] theorem logAt_phase (u : Nat) (r : LogRec) (s : State) : (logAt u r s).phase = s.phase := rfl
@[simp] theorem logAt_engines (u : Nat) (r : LogRec) (s : State) : (logAt u r s).engines = s.engines := rfl
@[simp] theorem logAt_bridges (u : Nat) (r : LogRec) (s : State) : (logAt u r s).bridges = s.bridges := rfl
@[simp] theorem logAt_ports (u : Nat) (r : LogRec) (s : State) : (logAt u r s).ports = s.ports := rfl
@[simp] theorem logAt_hmem (u : Nat) (r : LogRec) (s : State) : (logAt u r s).hmem = s.hmem := rfl
@[simp] theorem logAt_hports (u : Nat) (r : LogRec) (s : State) : (logAt u r s).hports = s.hports := rfl
@[simp] theorem logAt_fns (u : Nat) (r : LogRec) (s : State) : (logAt u r s).fns = s.fns := rfl
@[simp] theorem logAt_pairs (u : Nat) (r : LogRec) (s : State) : (logAt u r s).pairs = s.pairs := rfl
@[simp] theorem logAt_vecs (u : Nat) (r : LogRec) (s : State) : (logAt u r s).vecs = s.vecs := rfl
@[simp] theorem logAt_streams (u : Nat) (r : LogRec) (s : State) : (logAt u r s).streams = s.streams := rfl
@[simp] theorem logAt_load (u : Nat) (r : LogRec) (s : State) : (logAt u r s).load = s.load := rfl
@[simp] theorem logAt_reqId (u : Nat) (r : LogRec) (s : State) : (logAt u r s).reqId = s.reqId := rfl
@[simp] theorem logAt_hchans (u : Nat) (r : LogRec) (s : State) : (logAt u r s).hchans = s.hchans := rfl
@[simp] theorem logAt_harbours (u : Nat) (r : LogRec) (s : State) : (logAt u r s).harbours = s.harbours := rfl
@[simp] theorem logAt_sensors (u : Nat) (r : LogRec) (s : State) : (logAt u r s).sensors = s.sensors := rfl
@[simp] theorem logAt_nodes (u : Nat) (r : LogRec) (s : State) : (logAt u r s).nodes = s.nodes := rfl
@[simp] theorem logAt_lh (u : Nat) (r : LogRec) (s : State) : (logAt u r s).lh = s.lh := rfl
@[simp] theorem logAt_power (u : Nat) (r : LogRec) (s : State) : (logAt u r s).power = s.power := rfl
@[simp] theorem logAt_up (u : Nat) (r : LogRec) (s : State) : (logAt u r s).up = s.up := rfl
@[simp] theorem logAt_dbg (u : Nat) (r : LogRec) (s : State) : (logAt u r s).dbg = s.dbg := rfl

/-! ### Reading a record after an update -/

@[simp] theorem getCore_updCore (s : State) (k : Nat) (f : Core → Core) : getCore (updCore s k f) k = f (getCore s k) :=
  tget_tset_self _ _ _ _
theorem getCore_updCore_ne (s : State) (k j : Nat) (f : Core → Core) (h : j ≠ k) : getCore (updCore s k f) j = getCore s j :=
  tget_tset_ne _ _ _ _ _ h

@[simp] theorem getRouter_updRouter (s : State) (k : Nat) (f : Router → Router) : getRouter (updRouter s k f) k = f (getRouter s k) :=
  tget_tset_self _ _ _ _
theorem getRouter_updRouter_ne (s : State) (k j : Nat) (f : Router → Router) (h : j ≠ k) : getRouter (updRouter s k f) j = getRouter s j :=
  tget_tset_ne _ _ _ _ _ h

@[simp] theorem getRegion_updRegion (s : State) (k : Nat) (f : Region → Region) : getRegion (updRegion s k f) k = f (getRegion s k) :=
  tget_tset_self _ _ _ _
theorem getRegion_updRegion_ne (s : State) (k j : Nat) (f : Region → Region) (h : j ≠ k) : getRegion (updRegion s k f) j = getRegion s j :=
  tget_tset_ne _ _ _ _ _ h

@[simp] theorem getHealth_updHealth (s : State) (k : Nat) (f : Health → Health) : getHealth (updHealth s k f) k = f (getHealth s k) :=
  tget_tset_self _ _ _ _
theorem getHealth_updHealth_ne (s : State) (k j : Nat) (f : Health → Health) (h : j ≠ k) : getHealth (updHealth s k f) j = getHealth s j :=
  tget_tset_ne _ _ _ _ _ h

@[simp] theorem getEngine_updEngine (s : State) (k : Nat) (f : Engine → Engine) : getEngine (updEngine s k f) k = f (getEngine s k) :=
  tget_tset_self _ _ _ _
theorem getEngine_updEngine_ne (s : State) (k j : Nat) (f : Engine → Engine) (h : j ≠ k) : getEngine (updEngine s k f) j = getEngine s j :=
  tget_tset_ne _ _ _ _ _ h

@[simp] theorem getBridge_updBridge (s : State) (k : Nat) (f : Bridge → Bridge) : getBridge (updBridge s k f) k = f (getBridge s k) :=
  tget_tset_self _ _ _ _
theorem getBridge_updBridge_ne (s : State) (k j : Nat) (f : Bridge → Bridge) (h : j ≠ k) : getBridge (updBridge s k f) j = getBridge s j :=
  tget_tset_ne _ _ _ _ _ h

@[simp] theorem getPort_updPort (s : State) (k : Nat) (f : Port → Port) : getPort (updPort s k f) k = f (getPort s k) :=
  tget_tset_self _ _ _ _
theorem getPort_updPort_ne (s : State) (k j : Nat) (f : Port → Port) (h : j ≠ k) : getPort (updPort s k f) j = getPort s j :=
  tget_tset_ne _ _ _ _ _ h

@[simp] theorem getPair_updPair (s : State) (k : Nat) (f : Pair → Pair) : getPair (updPair s k f) k = f (getPair s k) :=
  tget_tset_self _ _ _ _
theorem getPair_updPair_ne (s : State) (k j : Nat) (f : Pair → Pair) (h : j ≠ k) : getPair (updPair s k f) j = getPair s j :=
  tget_tset_ne _ _ _ _ _ h

@[simp] theorem getVec_updVec (s : State) (k : Nat) (f : Vec → Vec) : getVec (updVec s k f) k = f (getVec s k) :=
  tget_tset_self _ _ _ _
theorem getVec_updVec_ne (s : State) (k j : Nat) (f : Vec → Vec) (h : j ≠ k) : getVec (updVec s k f) j = getVec s j :=
  tget_tset_ne _ _ _ _ _ h

@[simp] theorem getFn_updFn (s : State) (k : Nat) (f : Fn → Fn) : getFn (updFn s k f) k = f (getFn s k) :=
  tget_tset_self _ _ _ _
theorem getFn_updFn_ne (s : State) (k j : Nat) (f : Fn → Fn) (h : j ≠ k) : getFn (updFn s k f) j = getFn s j :=
  tget_tset_ne _ _ _ _ _ h

@[simp] theorem getHport_updHport (s : State) (k : Nat) (f : HostPort → HostPort) : getHport (updHport s k f) k = f (getHport s k) :=
  tget_tset_self _ _ _ _
theorem getHport_updHport_ne (s : State) (k j : Nat) (f : HostPort → HostPort) (h : j ≠ k) : getHport (updHport s k f) j = getHport s j :=
  tget_tset_ne _ _ _ _ _ h

@[simp] theorem getChan_updChan (s : State) (k : Nat) (f : HChan → HChan) : getChan (updChan s k f) k = f (getChan s k) :=
  tget_tset_self _ _ _ _
theorem getChan_updChan_ne (s : State) (k j : Nat) (f : HChan → HChan) (h : j ≠ k) : getChan (updChan s k f) j = getChan s j :=
  tget_tset_ne _ _ _ _ _ h

@[simp] theorem getHarbour_updHarbour (s : State) (k : Nat) (f : Harbour → Harbour) : getHarbour (updHarbour s k f) k = f (getHarbour s k) :=
  tget_tset_self _ _ _ _
theorem getHarbour_updHarbour_ne (s : State) (k j : Nat) (f : Harbour → Harbour) (h : j ≠ k) : getHarbour (updHarbour s k f) j = getHarbour s j :=
  tget_tset_ne _ _ _ _ _ h

@[simp] theorem getSensor_updSensor (s : State) (k : Nat) (f : Sensor → Sensor) : getSensor (updSensor s k f) k = f (getSensor s k) :=
  tget_tset_self _ _ _ _
theorem getSensor_updSensor_ne (s : State) (k j : Nat) (f : Sensor → Sensor) (h : j ≠ k) : getSensor (updSensor s k f) j = getSensor s j :=
  tget_tset_ne _ _ _ _ _ h

@[simp] theorem getNode_updNode (s : State) (k : Nat) (f : SwNode → SwNode) : getNode (updNode s k f) k = f (getNode s k) :=
  tget_tset_self _ _ _ _
theorem getNode_updNode_ne (s : State) (k j : Nat) (f : SwNode → SwNode) (h : j ≠ k) : getNode (updNode s k f) j = getNode s j :=
  tget_tset_ne _ _ _ _ _ h

@[simp] theorem getCore_setCore (s : State) (k : Nat) (v : Core) : getCore (setCore s k v) k = v :=
  tget_tset_self _ _ _ _
theorem getCore_setCore_ne (s : State) (k j : Nat) (v : Core) (h : j ≠ k) : getCore (setCore s k v) j = getCore s j :=
  tget_tset_ne _ _ _ _ _ h

/-- A counter that is advanced gains what it is advanced by. -/
@[simp] theorem getCtr_bumpBy (u n v : Nat) (s : State) : getCtr (bumpBy u n v s) u n = (getCtr s u n).add v :=
  tget_tset_self _ _ _ _

/-- Every other counter stays. -/
theorem getCtr_bumpBy_ne (u n v u' n' : Nat) (s : State) (h : ctrKey u' n' ≠ ctrKey u n) :
    getCtr (bumpBy u n v s) u' n' = getCtr s u' n' :=
  tget_tset_ne _ _ _ _ _ h

end Sys2Proof.Machine
end

