-- ==== Sys2Proof/Laws/Core.lean ====
section
/-! SUPPORT. Laws/Core.lean: the register files of a core after a write, and what an issued instruction leaves. -/

namespace Sys2Proof.Machine

open Sys2Proof

@[simp] theorem sGet_zero (k : Core) : sGet k 0 = 0 := rfl

theorem sGet_sSet_self (k : Core) (r : BitVec 5) (v : Word) : sGet (sSet r v k) r = if r = 0 then 0 else v := by
  unfold sGet sSet; split <;> simp_all

theorem sGet_sSet_ne (k : Core) (r q : BitVec 5) (v : Word) (h : q ≠ r) : sGet (sSet r v k) q = sGet k q := by
  unfold sGet sSet
  split
  · rfl
  · by_cases h0 : r = 0
    · simp [h0]
    · rw [if_neg h0]; exact tget_tset_ne 0 k.sreg r.toNat q.toNat v (fun e => h (BitVec.eq_of_toNat_eq e))

theorem aGet_aSet_self (k : Core) (r : Nat) (v : Word) : aGet (aSet r v k) r = v := tget_tset_self _ _ _ _

theorem aGet_aSet_ne (k : Core) (r q : Nat) (v : Word) (h : q ≠ r) : aGet (aSet r v k) q = aGet k q :=
  tget_tset_ne _ _ _ _ _ h

theorem pGet_pSet_self (k : Core) (r : Nat) (v : Word) : pGet (pSet r v k) r = if r = 0 then 0xFFFFFFFF#32 else v := by
  unfold pGet pSet; split <;> simp_all

theorem pGet_pSet_ne (k : Core) (r q : Nat) (v : Word) (h : q ≠ r) : pGet (pSet r v k) q = pGet k q := by
  unfold pGet pSet
  split
  · rfl
  · by_cases h0 : r = 0
    · simp [h0]
    · rw [if_neg h0]; exact tget_tset_ne 0 k.preg r q v h

/-- A write of s0 is ignored, and any other write changes the scalar file only. -/
theorem sSet_core (k : Core) (r : BitVec 5) (v : Word) : sSet r v k = { k with sreg := (sSet r v k).sreg } := by
  unfold sSet; split <;> rfl

/-- The program counter and the loops are all that moving on changes. -/
theorem advance_core (k : Core) :
    advance k = { k with pc := (advance k).pc, loop0 := (advance k).loop0, loop1 := (advance k).loop1 } := by
  unfold advance afterWord afterOuter
  repeat' split
  all_goals rfl

/-- Away from the end of every loop body the next word follows. -/
theorem advance_flow (k : Core) : Flow k (advance k) := by
  intro h0 h1
  have e : afterWord k k.pc.toNat = (k, k.pc.toNat + 1) := by
    unfold afterWord afterOuter
    cases h2 : k.loop1 <;> cases h3 : k.loop0 <;> grind
  unfold advance
  rw [e]
  refine ⟨?_, rfl, rfl⟩
  apply BitVec.eq_of_toNat_eq
  simp

theorem counted_bumpBy (u n v : Nat) (s : State) : Counted u n v s (bumpBy u n v s) :=
  ⟨rfl, getCtr_bumpBy u n v s, fun u' n' h => getCtr_bumpBy_ne u n v u' n' s h⟩

/-- What an instruction leaves that changes its core by `g` and is counted. -/
theorem onlyCore_updCore (key : Nat) (g : Core → Core) (s : State) :
    OnlyCore key s (updCore (bump (uCore key) cInstr s) key g)
      ∧ getCore (updCore (bump (uCore key) cInstr s) key g) key = g (getCore s key) :=
  ⟨⟨rfl, fun _ h => getCore_updCore_ne _ _ _ _ h, counted_bumpBy _ _ _ s⟩, getCore_updCore _ _ _⟩

theorem firstExc_nil : firstExc [] = none := rfl

/-- An instruction that can issue and meets no exception acts. -/
theorem issue_acts (key : Nat) (uses : List (BitVec 5)) (act : State → State) (s : State) (h : Ready s key uses) :
    issue key uses [] act s = .next (act (bump (uCore key) cInstr s)) := by
  simp [issue, issueEff, h.1, h.2, firstExc_nil]

/-- An instruction that can issue and meets exceptions takes the first of them in the order of R579. -/
theorem issue_raises (key : Nat) (uses : List (BitVec 5)) (es : List Exc) (e : Exc) (act : State → State) (s : State)
    (h : Ready s key uses) (he : firstExc es = some e) :
    issue key uses es act s = .next (raiseExc key e (getCore s key).pc s) := by
  simp [issue, issueEff, h.1, h.2, he]

/-- An instruction of a core that is stopped, that waits, or whose clock stands changes nothing. -/
theorem issue_holds (key : Nat) (uses : List (BitVec 5)) (es : List Exc) (act : State → State) (s : State)
    (h : ¬ Ready s key uses) : issue key uses es act s = .next s := by
  unfold Ready at h
  simp only [issue, issueEff]
  split <;> simp_all

theorem seqExc_nil (s : State) (key : Nat) (h : GoesOn s key) : seqExc (getCore s key) = [] := by
  have : ¬ 4095 < (afterWord (getCore s key) (getCore s key).pc.toNat).2 := by unfold GoesOn at h; omega
  simp [seqExc, chk, this]

/-- An instruction in sequence on its core alone. -/
theorem issueCore_acts (key : Nat) (uses : List (BitVec 5)) (g : Core → Core) (s : State) (h : Ready s key uses)
    (hg : GoesOn s key) :
    issueCore key uses [] g s = .next (updCore (bump (uCore key) cInstr s) key (fun k => advance (g k))) := by
  simp [issueCore, seqExc_nil s key hg, issue_acts key uses _ s h]

/-- What it leaves. -/
theorem issueCore_spec (key : Nat) (uses : List (BitVec 5)) (g : Core → Core) (s : State) (h : Ready s key uses)
    (hg : GoesOn s key) :
    ∃ t, issueCore key uses [] g s = .next t ∧ OnlyCore key s t ∧ getCore t key = advance (g (getCore s key)) :=
  ⟨_, issueCore_acts key uses g s h hg, (onlyCore_updCore key (fun k => advance (g k)) s).1,
    (onlyCore_updCore key (fun k => advance (g k)) s).2⟩

/-- Moving on after a write of a scalar register. -/
theorem scalarTakes_advance (d : BitVec 5) (v : Word) (k : Core) : ScalarTakes d v k (advance (sSet d v k)) := by
  rw [advance_core]
  exact ⟨sGet_sSet_self k d v, fun r h => sGet_sSet_ne k d r v h, by rw [sSet_core]⟩

theorem flow_advance_sSet (d : BitVec 5) (v : Word) (k : Core) : Flow k (advance (sSet d v k)) := by
  have h := advance_flow (sSet d v k)
  rw [sSet_core] at h ⊢
  exact h

/-- What taking an exception leaves. -/
theorem takes_raiseExc (key : Nat) (e : Exc) (s : State) : Takes key e s (raiseExc key e (getCore s key).pc s) := by
  have hk : getCore (raiseExc key e (getCore s key).pc s) key =
      { getCore s key with
        run := .stopped
        fault := if (getCore s key).fault.valid then (getCore s key).fault
          else { code := BitVec.ofNat 8 e.code, pc := (getCore s key).pc, valid := true, tide := (getCore s key).tide } } :=
    getCore_setCore s key _
  exact ⟨rfl, fun j h => getCore_setCore_ne _ _ _ _ h, by rw [hk], by rw [hk], counted_bumpBy _ _ _ s⟩

end Sys2Proof.Machine
end

