-- ==== Sys2Proof/Laws/Dispatch.lean ====
section
/-! SUPPORT. Laws/Dispatch.lean: the meaning that each command has, one equation a constructor. -/

namespace Sys2Proof.Machine

open Sys2Proof

@[simp] theorem exec_illegal (c : CoreRef) (w : BitVec 32) (s : State) : exec (.illegal c w) s = execIllegal c w s := rfl
@[simp] theorem exec_add (c : CoreRef) (f : FmtR) (s : State) : exec (.add c f) s = execAdd c f s := rfl
@[simp] theorem exec_sub (c : CoreRef) (f : FmtR) (s : State) : exec (.sub c f) s = execSub c f s := rfl
@[simp] theorem exec_and (c : CoreRef) (f : FmtR) (s : State) : exec (.and c f) s = execAnd c f s := rfl
@[simp] theorem exec_or (c : CoreRef) (f : FmtR) (s : State) : exec (.or c f) s = execOr c f s := rfl
@[simp] theorem exec_xor (c : CoreRef) (f : FmtR) (s : State) : exec (.xor c f) s = execXor c f s := rfl
@[simp] theorem exec_sll (c : CoreRef) (f : FmtR) (s : State) : exec (.sll c f) s = execSll c f s := rfl
@[simp] theorem exec_srl (c : CoreRef) (f : FmtR) (s : State) : exec (.srl c f) s = execSrl c f s := rfl
@[simp] theorem exec_sra (c : CoreRef) (f : FmtR) (s : State) : exec (.sra c f) s = execSra c f s := rfl
@[simp] theorem exec_slt (c : CoreRef) (f : FmtR) (s : State) : exec (.slt c f) s = execSlt c f s := rfl
@[simp] theorem exec_sltu (c : CoreRef) (f : FmtR) (s : State) : exec (.sltu c f) s = execSltu c f s := rfl
@[simp] theorem exec_mul (c : CoreRef) (f : FmtR) (s : State) : exec (.mul c f) s = execMul c f s := rfl
@[simp] theorem exec_mulh (c : CoreRef) (f : FmtR) (s : State) : exec (.mulh c f) s = execMulh c f s := rfl
@[simp] theorem exec_mulhu (c : CoreRef) (f : FmtR) (s : State) : exec (.mulhu c f) s = execMulhu c f s := rfl
@[simp] theorem exec_min (c : CoreRef) (f : FmtR) (s : State) : exec (.min c f) s = execMin c f s := rfl
@[simp] theorem exec_max (c : CoreRef) (f : FmtR) (s : State) : exec (.max c f) s = execMax c f s := rfl
@[simp] theorem exec_addi (c : CoreRef) (f : FmtI) (s : State) : exec (.addi c f) s = execAddi c f s := rfl
@[simp] theorem exec_slti (c : CoreRef) (f : FmtI) (s : State) : exec (.slti c f) s = execSlti c f s := rfl
@[simp] theorem exec_andi (c : CoreRef) (f : FmtI) (s : State) : exec (.andi c f) s = execAndi c f s := rfl
@[simp] theorem exec_ori (c : CoreRef) (f : FmtI) (s : State) : exec (.ori c f) s = execOri c f s := rfl
@[simp] theorem exec_xori (c : CoreRef) (f : FmtI) (s : State) : exec (.xori c f) s = execXori c f s := rfl
@[simp] theorem exec_lui (c : CoreRef) (f : FmtI) (s : State) : exec (.lui c f) s = execLui c f s := rfl
@[simp] theorem exec_slli (c : CoreRef) (f : FmtI) (s : State) : exec (.slli c f) s = execSlli c f s := rfl
@[simp] theorem exec_srli (c : CoreRef) (f : FmtI) (s : State) : exec (.srli c f) s = execSrli c f s := rfl
@[simp] theorem exec_srai (c : CoreRef) (f : FmtI) (s : State) : exec (.srai c f) s = execSrai c f s := rfl
@[simp] theorem exec_fadd (c : CoreRef) (f : FmtR) (s : State) : exec (.fadd c f) s = execFadd c f s := rfl
@[simp] theorem exec_fsub (c : CoreRef) (f : FmtR) (s : State) : exec (.fsub c f) s = execFsub c f s := rfl
@[simp] theorem exec_fmul (c : CoreRef) (f : FmtR) (s : State) : exec (.fmul c f) s = execFmul c f s := rfl
@[simp] theorem exec_fmin (c : CoreRef) (f : FmtR) (s : State) : exec (.fmin c f) s = execFmin c f s := rfl
@[simp] theorem exec_fmax (c : CoreRef) (f : FmtR) (s : State) : exec (.fmax c f) s = execFmax c f s := rfl
@[simp] theorem exec_fcvtws (c : CoreRef) (f : FmtR) (s : State) : exec (.fcvtws c f) s = execFcvtws c f s := rfl
@[simp] theorem exec_fcvtsw (c : CoreRef) (f : FmtR) (s : State) : exec (.fcvtsw c f) s = execFcvtsw c f s := rfl
@[simp] theorem exec_beq (c : CoreRef) (f : FmtB) (s : State) : exec (.beq c f) s = execBeq c f s := rfl
@[simp] theorem exec_bne (c : CoreRef) (f : FmtB) (s : State) : exec (.bne c f) s = execBne c f s := rfl
@[simp] theorem exec_blt (c : CoreRef) (f : FmtB) (s : State) : exec (.blt c f) s = execBlt c f s := rfl
@[simp] theorem exec_bge (c : CoreRef) (f : FmtB) (s : State) : exec (.bge c f) s = execBge c f s := rfl
@[simp] theorem exec_bltu (c : CoreRef) (f : FmtB) (s : State) : exec (.bltu c f) s = execBltu c f s := rfl
@[simp] theorem exec_bgeu (c : CoreRef) (f : FmtB) (s : State) : exec (.bgeu c f) s = execBgeu c f s := rfl
@[simp] theorem exec_jal (c : CoreRef) (f : FmtI) (s : State) : exec (.jal c f) s = execJal c f s := rfl
@[simp] theorem exec_jalr (c : CoreRef) (f : FmtI) (s : State) : exec (.jalr c f) s = execJalr c f s := rfl
@[simp] theorem exec_loop (c : CoreRef) (f : FmtL) (s : State) : exec (.loop c f) s = execLoop c f s := rfl
@[simp] theorem exec_amov (c : CoreRef) (f : FmtR) (s : State) : exec (.amov c f) s = execAmov c f s := rfl
@[simp] theorem exec_smova (c : CoreRef) (f : FmtR) (s : State) : exec (.smova c f) s = execSmova c f s := rfl
@[simp] theorem exec_aadd (c : CoreRef) (f : FmtR) (s : State) : exec (.aadd c f) s = execAadd c f s := rfl
@[simp] theorem exec_aseti (c : CoreRef) (f : FmtI) (s : State) : exec (.aseti c f) s = execAseti c f s := rfl
@[simp] theorem exec_aaddi (c : CoreRef) (f : FmtI) (s : State) : exec (.aaddi c f) s = execAaddi c f s := rfl
@[simp] theorem exec_lw (c : CoreRef) (f : FmtM) (s : State) : exec (.lw c f) s = execLw c f s := rfl
@[simp] theorem exec_lh (c : CoreRef) (f : FmtM) (s : State) : exec (.lh c f) s = execLh c f s := rfl
@[simp] theorem exec_lhu (c : CoreRef) (f : FmtM) (s : State) : exec (.lhu c f) s = execLhu c f s := rfl
@[simp] theorem exec_lb (c : CoreRef) (f : FmtM) (s : State) : exec (.lb c f) s = execLb c f s := rfl
@[simp] theorem exec_lbu (c : CoreRef) (f : FmtM) (s : State) : exec (.lbu c f) s = execLbu c f s := rfl
@[simp] theorem exec_sw (c : CoreRef) (f : FmtM) (s : State) : exec (.sw c f) s = execSw c f s := rfl
@[simp] theorem exec_sh (c : CoreRef) (f : FmtM) (s : State) : exec (.sh c f) s = execSh c f s := rfl
@[simp] theorem exec_sb (c : CoreRef) (f : FmtM) (s : State) : exec (.sb c f) s = execSb c f s := rfl
@[simp] theorem exec_vld (c : CoreRef) (f : FmtM) (s : State) : exec (.vld c f) s = execVld c f s := rfl
@[simp] theorem exec_vst (c : CoreRef) (f : FmtM) (s : State) : exec (.vst c f) s = execVst c f s := rfl
@[simp] theorem exec_vldh (c : CoreRef) (f : FmtM) (s : State) : exec (.vldh c f) s = execVldh c f s := rfl
@[simp] theorem exec_vldb (c : CoreRef) (f : FmtM) (s : State) : exec (.vldb c f) s = execVldb c f s := rfl
@[simp] theorem exec_vsth (c : CoreRef) (f : FmtM) (s : State) : exec (.vsth c f) s = execVsth c f s := rfl
@[simp] theorem exec_vstb (c : CoreRef) (f : FmtM) (s : State) : exec (.vstb c f) s = execVstb c f s := rfl
@[simp] theorem exec_vadd (c : CoreRef) (f : FmtR) (s : State) : exec (.vadd c f) s = execVadd c f s := rfl
@[simp] theorem exec_vsub (c : CoreRef) (f : FmtR) (s : State) : exec (.vsub c f) s = execVsub c f s := rfl
@[simp] theorem exec_vmul (c : CoreRef) (f : FmtR) (s : State) : exec (.vmul c f) s = execVmul c f s := rfl
@[simp] theorem exec_vand (c : CoreRef) (f : FmtR) (s : State) : exec (.vand c f) s = execVand c f s := rfl
@[simp] theorem exec_vor (c : CoreRef) (f : FmtR) (s : State) : exec (.vor c f) s = execVor c f s := rfl
@[simp] theorem exec_vxor (c : CoreRef) (f : FmtR) (s : State) : exec (.vxor c f) s = execVxor c f s := rfl
@[simp] theorem exec_vsll (c : CoreRef) (f : FmtR) (s : State) : exec (.vsll c f) s = execVsll c f s := rfl
@[simp] theorem exec_vsrl (c : CoreRef) (f : FmtR) (s : State) : exec (.vsrl c f) s = execVsrl c f s := rfl
@[simp] theorem exec_vsra (c : CoreRef) (f : FmtR) (s : State) : exec (.vsra c f) s = execVsra c f s := rfl
@[simp] theorem exec_vmin (c : CoreRef) (f : FmtR) (s : State) : exec (.vmin c f) s = execVmin c f s := rfl
@[simp] theorem exec_vmax (c : CoreRef) (f : FmtR) (s : State) : exec (.vmax c f) s = execVmax c f s := rfl
@[simp] theorem exec_vminu (c : CoreRef) (f : FmtR) (s : State) : exec (.vminu c f) s = execVminu c f s := rfl
@[simp] theorem exec_vmaxu (c : CoreRef) (f : FmtR) (s : State) : exec (.vmaxu c f) s = execVmaxu c f s := rfl
@[simp] theorem exec_vfadd (c : CoreRef) (f : FmtR) (s : State) : exec (.vfadd c f) s = execVfadd c f s := rfl
@[simp] theorem exec_vfsub (c : CoreRef) (f : FmtR) (s : State) : exec (.vfsub c f) s = execVfsub c f s := rfl
@[simp] theorem exec_vfmul (c : CoreRef) (f : FmtR) (s : State) : exec (.vfmul c f) s = execVfmul c f s := rfl
@[simp] theorem exec_vfma (c : CoreRef) (f : FmtR) (s : State) : exec (.vfma c f) s = execVfma c f s := rfl
@[simp] theorem exec_vfmin (c : CoreRef) (f : FmtR) (s : State) : exec (.vfmin c f) s = execVfmin c f s := rfl
@[simp] theorem exec_vfmax (c : CoreRef) (f : FmtR) (s : State) : exec (.vfmax c f) s = execVfmax c f s := rfl
@[simp] theorem exec_vexp2 (c : CoreRef) (f : FmtR) (s : State) : exec (.vexp2 c f) s = execVexp2 c f s := rfl
@[simp] theorem exec_vlog2 (c : CoreRef) (f : FmtR) (s : State) : exec (.vlog2 c f) s = execVlog2 c f s := rfl
@[simp] theorem exec_vrcp (c : CoreRef) (f : FmtR) (s : State) : exec (.vrcp c f) s = execVrcp c f s := rfl
@[simp] theorem exec_vrsqrt (c : CoreRef) (f : FmtR) (s : State) : exec (.vrsqrt c f) s = execVrsqrt c f s := rfl
@[simp] theorem exec_vcmpeq (c : CoreRef) (f : FmtR) (s : State) : exec (.vcmpeq c f) s = execVcmpeq c f s := rfl
@[simp] theorem exec_vcmplt (c : CoreRef) (f : FmtR) (s : State) : exec (.vcmplt c f) s = execVcmplt c f s := rfl
@[simp] theorem exec_vcmple (c : CoreRef) (f : FmtR) (s : State) : exec (.vcmple c f) s = execVcmple c f s := rfl
@[simp] theorem exec_vfcmpeq (c : CoreRef) (f : FmtR) (s : State) : exec (.vfcmpeq c f) s = execVfcmpeq c f s := rfl
@[simp] theorem exec_vfcmplt (c : CoreRef) (f : FmtR) (s : State) : exec (.vfcmplt c f) s = execVfcmplt c f s := rfl
@[simp] theorem exec_vfcmple (c : CoreRef) (f : FmtR) (s : State) : exec (.vfcmple c f) s = execVfcmple c f s := rfl
@[simp] theorem exec_vsel (c : CoreRef) (f : FmtR) (s : State) : exec (.vsel c f) s = execVsel c f s := rfl
@[simp] theorem exec_vbcast (c : CoreRef) (f : FmtR) (s : State) : exec (.vbcast c f) s = execVbcast c f s := rfl
@[simp] theorem exec_vext (c : CoreRef) (f : FmtR) (s : State) : exec (.vext c f) s = execVext c f s := rfl
@[simp] theorem exec_vsum (c : CoreRef) (f : FmtR) (s : State) : exec (.vsum c f) s = execVsum c f s := rfl
@[simp] theorem exec_vmaxr (c : CoreRef) (f : FmtR) (s : State) : exec (.vmaxr c f) s = execVmaxr c f s := rfl
@[simp] theorem exec_vsumi (c : CoreRef) (f : FmtR) (s : State) : exec (.vsumi c f) s = execVsumi c f s := rfl
@[simp] theorem exec_vcvt (c : CoreRef) (f : FmtR) (src dst : BitVec 3) (s : State) :
    exec (.vcvt c f src dst) s = execVcvt c f src dst s := rfl
@[simp] theorem exec_tmac (c : CoreRef) (f : FmtT) (s : State) : exec (.tmac c f) s = execTmac c f s := rfl
@[simp] theorem exec_tzero (c : CoreRef) (f : FmtR) (s : State) : exec (.tzero c f) s = execTzero c f s := rfl
@[simp] theorem exec_trow (c : CoreRef) (f : FmtR) (s : State) : exec (.trow c f) s = execTrow c f s := rfl
@[simp] theorem exec_tput (c : CoreRef) (f : FmtR) (s : State) : exec (.tput c f) s = execTput c f s := rfl
@[simp] theorem exec_tst (c : CoreRef) (f : FmtR) (s : State) : exec (.tst c f) s = execTst c f s := rfl
@[simp] theorem exec_tld (c : CoreRef) (f : FmtR) (s : State) : exec (.tld c f) s = execTld c f s := rfl
@[simp] theorem exec_csend (c : CoreRef) (f : FmtC) (s : State) : exec (.csend c f) s = execCsend c f s := rfl
@[simp] theorem exec_crecv (c : CoreRef) (f : FmtC) (s : State) : exec (.crecv c f) s = execCrecv c f s := rfl
@[simp] theorem exec_crecvCopy (c : CoreRef) (s : State) : exec (.crecvCopy c) s = execCrecvCopy c s := rfl
@[simp] theorem exec_cpoll (c : CoreRef) (f : FmtC) (s : State) : exec (.cpoll c f) s = execCpoll c f s := rfl
@[simp] theorem exec_copen (c : CoreRef) (f : FmtC) (s : State) : exec (.copen c f) s = execCopen c f s := rfl
@[simp] theorem exec_cclose (c : CoreRef) (f : FmtC) (s : State) : exec (.cclose c f) s = execCclose c f s := rfl
@[simp] theorem exec_bsend (c : CoreRef) (f : FmtC) (s : State) : exec (.bsend c f) s = execBsend c f s := rfl
@[simp] theorem exec_bland (c : CoreRef) (f : FmtC) (s : State) : exec (.bland c f) s = execBland c f s := rfl
@[simp] theorem exec_bwait (c : CoreRef) (f : FmtC) (s : State) : exec (.bwait c f) s = execBwait c f s := rfl
@[simp] theorem exec_btry (c : CoreRef) (f : FmtC) (s : State) : exec (.btry c f) s = execBtry c f s := rfl
@[simp] theorem exec_bchk (c : CoreRef) (f : FmtC) (s : State) : exec (.bchk c f) s = execBchk c f s := rfl
@[simp] theorem exec_sacq (c : CoreRef) (f : FmtR) (s : State) : exec (.sacq c f) s = execSacq c f s := rfl
@[simp] theorem exec_stry (c : CoreRef) (f : FmtR) (s : State) : exec (.stry c f) s = execStry c f s := rfl
@[simp] theorem exec_srel (c : CoreRef) (f : FmtR) (s : State) : exec (.srel c f) s = execSrel c f s := rfl
@[simp] theorem exec_sbar (c : CoreRef) (f : FmtR) (s : State) : exec (.sbar c f) s = execSbar c f s := rfl
@[simp] theorem exec_sset (c : CoreRef) (f : FmtR) (s : State) : exec (.sset c f) s = execSset c f s := rfl
@[simp] theorem exec_sclr (c : CoreRef) (f : FmtR) (s : State) : exec (.sclr c f) s = execSclr c f s := rfl
@[simp] theorem exec_swait (c : CoreRef) (f : FmtR) (s : State) : exec (.swait c f) s = execSwait c f s := rfl
@[simp] theorem exec_crdl (c : CoreRef) (f : FmtR) (s : State) : exec (.crdl c f) s = execCrdl c f s := rfl
@[simp] theorem exec_crdh (c : CoreRef) (f : FmtR) (s : State) : exec (.crdh c f) s = execCrdh c f s := rfl
@[simp] theorem exec_cinc (c : CoreRef) (f : FmtR) (s : State) : exec (.cinc c f) s = execCinc c f s := rfl
@[simp] theorem exec_tend (c : CoreRef) (f : FmtR) (s : State) : exec (.tend c f) s = execTend c f s := rfl
@[simp] theorem exec_tnum (c : CoreRef) (f : FmtR) (s : State) : exec (.tnum c f) s = execTnum c f s := rfl
@[simp] theorem exec_tlast (c : CoreRef) (f : FmtR) (s : State) : exec (.tlast c f) s = execTlast c f s := rfl
@[simp] theorem exec_tleft (c : CoreRef) (f : FmtR) (s : State) : exec (.tleft c f) s = execTleft c f s := rfl
@[simp] theorem exec_tstat (c : CoreRef) (f : FmtR) (s : State) : exec (.tstat c f) s = execTstat c f s := rfl
@[simp] theorem exec_xsel (c : CoreRef) (f : FmtR) (s : State) : exec (.xsel c f) s = execXsel c f s := rfl
@[simp] theorem exec_xput (c : CoreRef) (f : FmtR) (s : State) : exec (.xput c f) s = execXput c f s := rfl
@[simp] theorem exec_xdata (c : CoreRef) (f : FmtR) (s : State) : exec (.xdata c f) s = execXdata c f s := rfl
@[simp] theorem exec_xgo (c : CoreRef) (f : FmtR) (s : State) : exec (.xgo c f) s = execXgo c f s := rfl
@[simp] theorem exec_xwait (c : CoreRef) (f : FmtR) (s : State) : exec (.xwait c f) s = execXwait c f s := rfl
@[simp] theorem exec_xwaitTimeout (c : CoreRef) (s : State) : exec (.xwaitTimeout c) s = execXwaitTimeout c s := rfl
@[simp] theorem exec_xsig (c : CoreRef) (f : FmtR) (s : State) : exec (.xsig c f) s = execXsig c f s := rfl
@[simp] theorem exec_xverd (c : CoreRef) (f : FmtR) (s : State) : exec (.xverd c f) s = execXverd c f s := rfl
@[simp] theorem exec_xpub (c : CoreRef) (f : FmtR) (s : State) : exec (.xpub c f) s = execXpub c f s := rfl
@[simp] theorem exec_sequencerMismatch (c : CoreRef) (s : State) :
    exec (.sequencerMismatch c) s = execSequencerMismatch c s := rfl
@[simp] theorem exec_istoreParity (c : CoreRef) (s : State) : exec (.istoreParity c) s = execIstoreParity c s := rfl
@[simp] theorem exec_packetRoute (r : CoreRef) (out : Fin 7) (s : State) :
    exec (.packetRoute r out) s = execPacketRoute r out s := rfl
@[simp] theorem exec_multicastForward (r : CoreRef) (credit : BitVec 5) (s : State) :
    exec (.multicastForward r credit) s = execMulticastForward r credit s := rfl
@[simp] theorem exec_messageAdmission (c : CoreRef) (s : State) : exec (.messageAdmission c) s = execMessageAdmission c s := rfl
@[simp] theorem exec_blockEjection (c : CoreRef) (s : State) : exec (.blockEjection c) s = execBlockEjection c s := rfl
@[simp] theorem exec_blockLanding (c : CoreRef) (n : BitVec 6) (s : State) :
    exec (.blockLanding c n) s = execBlockLanding c n s := rfl
@[simp] theorem exec_stallWatchdogFire (c : CoreRef) (port : Fin 3) (s : State) :
    exec (.stallWatchdogFire c port) s = execStallWatchdogFire c port s := rfl
@[simp] theorem exec_aliveBeat (r : CoreRef) (s : State) : exec (.aliveBeat r) s = execAliveBeat r s := rfl
@[simp] theorem exec_linkWatchdogFire (r : CoreRef) (dir : Fin 4) (cut : List Nat) (s : State) :
    exec (.linkWatchdogFire r dir cut) s = execLinkWatchdogFire r dir cut s := rfl
@[simp] theorem exec_farRouterQuery (r : CoreRef) (dir : Fin 4) (alive : Bool) (s : State) :
    exec (.farRouterQuery r dir alive) s = execFarRouterQuery r dir alive s := rfl
@[simp] theorem exec_routerDownNotice (region : Fin 512) (s : State) :
    exec (.routerDownNotice region) s = execRouterDownNotice region s := rfl
@[simp] theorem exec_poisonTailArrival (c : CoreRef) (s : State) :
    exec (.poisonTailArrival c) s = execPoisonTailArrival c s := rfl
@[simp] theorem exec_statusScan (region : Fin 512) (dead : List (Fin 32 × Fin 17)) (s : State) :
    exec (.statusScan region dead) s = execStatusScan region dead s := rfl
@[simp] theorem exec_tableRebuild (region : Fin 512) (s : State) :
    exec (.tableRebuild region) s = execTableRebuild region s := rfl
@[simp] theorem exec_syncRequest (region : Fin 512) (s : State) : exec (.syncRequest region) s = execSyncRequest region s := rfl
@[simp] theorem exec_syncAnswer (c : CoreRef) (s : State) : exec (.syncAnswer c) s = execSyncAnswer c s := rfl
@[simp] theorem exec_syncFullReissue (c : CoreRef) (s : State) : exec (.syncFullReissue c) s = execSyncFullReissue c s := rfl
@[simp] theorem exec_forfeitNotice (region : Fin 512) (s : State) :
    exec (.forfeitNotice region) s = execForfeitNotice region s := rfl
@[simp] theorem exec_grantReturn (region : Fin 512) (s : State) : exec (.grantReturn region) s = execGrantReturn region s := rfl
@[simp] theorem exec_regionOffline (region : Fin 512) (cause : Fin 5) (s : State) :
    exec (.regionOffline region cause) s = execRegionOffline region cause s := rfl
@[simp] theorem exec_cntLoRead (path : Fin 2) (unit : BitVec 32) (n : BitVec 16) (inc : BitVec 48) (s : State) :
    exec (.cntLoRead path unit n inc) s = execCntLoRead path unit n inc s := rfl
@[simp] theorem exec_cntLoWrite (path : Fin 2) (unit : BitVec 32) (n : BitVec 16) (v : BitVec 32) (inc : BitVec 48) (s : State) :
    exec (.cntLoWrite path unit n v inc) s = execCntLoWrite path unit n v inc s := rfl
@[simp] theorem exec_cntHiWrite (path : Fin 2) (unit : BitVec 32) (n : BitVec 16) (v : BitVec 32) (inc : BitVec 48) (s : State) :
    exec (.cntHiWrite path unit n v inc) s = execCntHiWrite path unit n v inc s := rfl
@[simp] theorem exec_cntFreeze (unit : BitVec 32) (v : BitVec 32) (n : BitVec 16) (inc : BitVec 48) (s : State) :
    exec (.cntFreeze unit v n inc) s = execCntFreeze unit v n inc s := rfl
@[simp] theorem exec_programFlit (region : Fin 512) (s : State) : exec (.programFlit region) s = execProgramFlit region s := rfl
@[simp] theorem exec_regionConfirm (region : Fin 512) (damaged : Bool) (s : State) :
    exec (.regionConfirm region damaged) s = execRegionConfirm region damaged s := rfl
@[simp] theorem exec_confirmTimeout (region : Fin 512) (s : State) :
    exec (.confirmTimeout region) s = execConfirmTimeout region s := rfl
@[simp] theorem exec_tideStart (e : Fin 8) (s : State) : exec (.tideStart e) s = execTideStart e s := rfl
@[simp] theorem exec_tdone (region : Fin 512) (s : State) : exec (.tdone region) s = execTdone region s := rfl
@[simp] theorem exec_tdoneReceive (e : Fin 8) (s : State) : exec (.tdoneReceive e) s = execTdoneReceive e s := rfl
@[simp] theorem exec_deadline (e : Fin 8) (s : State) : exec (.deadline e) s = execDeadline e s := rfl
@[simp] theorem exec_guardOpen (e : Fin 8) (s : State) : exec (.guardOpen e) s = execGuardOpen e s := rfl
@[simp] theorem exec_withhold (region : Fin 512) (s : State) : exec (.withhold region) s = execWithhold region s := rfl
@[simp] theorem exec_commit (region : Fin 512) (s : State) : exec (.commit region) s = execCommit region s := rfl
@[simp] theorem exec_tideClean (region : Fin 512) (s : State) : exec (.tideClean region) s = execTideClean region s := rfl
@[simp] theorem exec_nocmd (region : Fin 512) (s : State) : exec (.nocmd region) s = execNocmd region s := rfl
@[simp] theorem exec_mirrorBlockArrival (c : CoreRef) (s : State) :
    exec (.mirrorBlockArrival c) s = execMirrorBlockArrival c s := rfl
@[simp] theorem exec_checkpointCopy (e : Fin 8) (s : State) : exec (.checkpointCopy e) s = execCheckpointCopy e s := rfl
@[simp] theorem exec_checkpointDone (e : Fin 8) (s : State) : exec (.checkpointDone e) s = execCheckpointDone e s := rfl
@[simp] theorem exec_restore (c : CoreRef) (bad : BitVec 3) (s : State) : exec (.restore c bad) s = execRestore c bad s := rfl
@[simp] theorem exec_alignDrive (s : State) : exec (.alignDrive) s = execAlignDrive s := rfl
@[simp] theorem exec_alignPulse (tr : BitVec 64) (s : State) : exec (.alignPulse tr) s = execAlignPulse tr s := rfl
@[simp] theorem exec_alignMiss (s : State) : exec (.alignMiss) s = execAlignMiss s := rfl
@[simp] theorem exec_shiFrameReceive (b : Fin 32) (g : Fin 4) (dir : Fin 2) (f : ShiFrame) (s : State) :
    exec (.shiFrameReceive b g dir f) s = execShiFrameReceive b g dir f s := rfl
@[simp] theorem exec_shiAckTimeout (b : Fin 32) (g : Fin 4) (dir : Fin 2) (s : State) :
    exec (.shiAckTimeout b g dir) s = execShiAckTimeout b g dir s := rfl
@[simp] theorem exec_shiTraining (b : Fin 32) (ok : Bool) (s : State) : exec (.shiTraining b ok) s = execShiTraining b ok s := rfl
@[simp] theorem exec_shiTrainTimeout (b : Fin 32) (s : State) : exec (.shiTrainTimeout b) s = execShiTrainTimeout b s := rfl
@[simp] theorem exec_bridgeDown (b : Fin 32) (s : State) : exec (.bridgeDown b) s = execBridgeDown b s := rfl
@[simp] theorem exec_bridgeDownNotice (region : Fin 512) (s : State) :
    exec (.bridgeDownNotice region) s = execBridgeDownNotice region s := rfl
@[simp] theorem exec_groupOut (b : Fin 32) (g : Fin 4) (s : State) : exec (.groupOut b g) s = execGroupOut b g s := rfl
@[simp] theorem exec_inject (b : Fin 32) (s : State) : exec (.inject b) s = execInject b s := rfl
@[simp] theorem exec_relay (n : Fin 4096) (output : Bool) (s : State) : exec (.relay n output) s = execRelay n output s := rfl
@[simp] theorem exec_relayReceive (b : Fin 32) (s : State) : exec (.relayReceive b) s = execRelayReceive b s := rfl
@[simp] theorem exec_transferFlitArrival (p : Fin 16) (s : State) :
    exec (.transferFlitArrival p) s = execTransferFlitArrival p s := rfl
@[simp] theorem exec_tailBurstMove (b : Fin 32) (g : Fin 4) (s : State) :
    exec (.tailBurstMove b g) s = execTailBurstMove b g s := rfl
@[simp] theorem exec_tailTimerMove (b : Fin 32) (g : Fin 4) (s : State) :
    exec (.tailTimerMove b g) s = execTailTimerMove b g s := rfl
@[simp] theorem exec_egressBlockPlace (b : Fin 32) (s : State) : exec (.egressBlockPlace b) s = execEgressBlockPlace b s := rfl
@[simp] theorem exec_deliver (n : Fin 4096) (s : State) : exec (.deliver n) s = execDeliver n s := rfl
@[simp] theorem exec_xlUnitReceive (p : Fin 16) (dir : Fin 2) (u : XlUnit) (s : State) :
    exec (.xlUnitReceive p dir u) s = execXlUnitReceive p dir u s := rfl
@[simp] theorem exec_xlAckTimeout (p : Fin 16) (dir : Fin 2) (s : State) :
    exec (.xlAckTimeout p dir) s = execXlAckTimeout p dir s := rfl
@[simp] theorem exec_xlTraining (p : Fin 16) (s : State) : exec (.xlTraining p) s = execXlTraining p s := rfl
@[simp] theorem exec_xlTrainTimeout (p : Fin 16) (s : State) : exec (.xlTrainTimeout p) s = execXlTrainTimeout p s := rfl
@[simp] theorem exec_ident (p : Fin 16) (x : Ident) (t : BitVec 11) (s : State) : exec (.ident p x t) s = execIdent p x t s := rfl
@[simp] theorem exec_xlRetrain (p : Fin 16) (s : State) : exec (.xlRetrain p) s = execXlRetrain p s := rfl
@[simp] theorem exec_xlDown (p : Fin 16) (s : State) : exec (.xlDown p) s = execXlDown p s := rfl
@[simp] theorem exec_holdNIn (p : Fin 16) (low : Bool) (s : State) : exec (.holdNIn p low) s = execHoldNIn p low s := rfl
@[simp] theorem exec_advert (p : Fin 16) (priority : BitVec 4) (module : BitVec 4) (dist : Fin 16) (s : State) :
    exec (.advert p priority module dist) s = execAdvert p priority module dist s := rfl
@[simp] theorem exec_domRoute (routes : List (Fin 16 × Fin 16)) (present : BitVec 16) (kids : List (Fin 16)) (s : State) :
    exec (.domRoute routes present kids) s = execDomRoute routes present kids s := rfl
@[simp] theorem exec_timeSet (t : BitVec 64) (s : State) : exec (.timeSet t) s = execTimeSet t s := rfl
@[simp] theorem exec_write (quad : Fin 4) (ch : Fin 32) (s : State) : exec (.write quad ch) s = execWrite quad ch s := rfl
@[simp] theorem exec_writeRec (quad : Fin 4) (ch : Fin 32) (s : State) :
    exec (.writeRec quad ch) s = execWriteRec quad ch s := rfl
@[simp] theorem exec_read (quad : Fin 4) (ch : Fin 32) (errs : List DramErr) (s : State) :
    exec (.read quad ch errs) s = execRead quad ch errs s := rfl
@[simp] theorem exec_readRec (quad : Fin 4) (ch : Fin 32) (errs : List DramErr) (s : State) :
    exec (.readRec quad ch errs) s = execReadRec quad ch errs s := rfl
@[simp] theorem exec_xack (e : Fin 13) (s : State) : exec (.xack e) s = execXack e s := rfl
@[simp] theorem exec_xackTimeout (e : Fin 13) (s : State) : exec (.xackTimeout e) s = execXackTimeout e s := rfl
@[simp] theorem exec_append (quad : Fin 4) (ch : Fin 32) (s : State) : exec (.append quad ch) s = execAppend quad ch s := rfl
@[simp] theorem exec_hcommit (quad : Fin 4) (ch : Fin 32) (errs : List DramErr) (s : State) :
    exec (.hcommit quad ch errs) s = execHcommit quad ch errs s := rfl
@[simp] theorem exec_hdiscard (quad : Fin 4) (ch : Fin 32) (s : State) :
    exec (.hdiscard quad ch) s = execHdiscard quad ch s := rfl
@[simp] theorem exec_hack (e : Fin 8) (s : State) : exec (.hack e) s = execHack e s := rfl
@[simp] theorem exec_hackTimeout (e : Fin 8) (s : State) : exec (.hackTimeout e) s = execHackTimeout e s := rfl
@[simp] theorem exec_hhole (e : Fin 8) (s : State) : exec (.hhole e) s = execHhole e s := rfl
@[simp] theorem exec_summarize (quad : Fin 4) (ch : Fin 32) (errs : List DramErr) (s : State) :
    exec (.summarize quad ch errs) s = execSummarize quad ch errs s := rfl
@[simp] theorem exec_scorePages (quad : Fin 4) (ch : Fin 32) (errs : List DramErr) (s : State) :
    exec (.scorePages quad ch errs) s = execScorePages quad ch errs s := rfl
@[simp] theorem exec_scoreTokens (quad : Fin 4) (ch : Fin 32) (errs : List DramErr) (s : State) :
    exec (.scoreTokens quad ch errs) s = execScoreTokens quad ch errs s := rfl
@[simp] theorem exec_topk (quad : Fin 4) (ch : Fin 32) (s : State) : exec (.topk quad ch) s = execTopk quad ch s := rfl
@[simp] theorem exec_gather (quad : Fin 4) (ch : Fin 32) (errs : List DramErr) (s : State) :
    exec (.gather quad ch errs) s = execGather quad ch errs s := rfl
@[simp] theorem exec_accum (quad : Fin 4) (ch : Fin 32) (errs : List DramErr) (s : State) :
    exec (.accum quad ch errs) s = execAccum quad ch errs s := rfl
@[simp] theorem exec_copyLocal (quad : Fin 4) (ch : Fin 32) (errs : List DramErr) (s : State) :
    exec (.copyLocal quad ch errs) s = execCopyLocal quad ch errs s := rfl
@[simp] theorem exec_nmuTimeout (quad : Fin 4) (ch : Fin 32) (s : State) :
    exec (.nmuTimeout quad ch) s = execNmuTimeout quad ch s := rfl
@[simp] theorem exec_hbChModeReq (quad : Fin 4) (ch : Fin 32) (req : Bool) (s : State) :
    exec (.hbChModeReq quad ch req) s = execHbChModeReq quad ch req s := rfl
@[simp] theorem exec_channelZeroing (quad : Fin 4) (ch : Fin 32) (s : State) :
    exec (.channelZeroing quad ch) s = execChannelZeroing quad ch s := rfl
@[simp] theorem exec_bandUpdate (quad : Fin 4) (ch : Fin 32) (s : State) :
    exec (.bandUpdate quad ch) s = execBandUpdate quad ch s := rfl
@[simp] theorem exec_budgetWindow (quad : Fin 4) (ch : Fin 32) (s : State) :
    exec (.budgetWindow quad ch) s = execBudgetWindow quad ch s := rfl
@[simp] theorem exec_patrolScrub (quad : Fin 4) (ch : Fin 32) (errs : List DramErr) (s : State) :
    exec (.patrolScrub quad ch errs) s = execPatrolScrub quad ch errs s := rfl
@[simp] theorem exec_bankFence (quad : Fin 4) (ch : Fin 32) (bank : Fin 32) (reason : Fin 3) (s : State) :
    exec (.bankFence quad ch bank reason) s = execBankFence quad ch bank reason s := rfl
@[simp] theorem exec_channelFail (quad : Fin 4) (ch : Fin 32) (s : State) :
    exec (.channelFail quad ch) s = execChannelFail quad ch s := rfl
@[simp] theorem exec_bridgeProxyAnswer (p : Fin 16) (s : State) : exec (.bridgeProxyAnswer p) s = execBridgeProxyAnswer p s := rfl
@[simp] theorem exec_doorbellPoll (fn : Fin 32) (pair : BitVec 8) (late : Bool) (s : State) :
    exec (.doorbellPoll fn pair late) s = execDoorbellPoll fn pair late s := rfl
@[simp] theorem exec_doorbellRead (fn : Fin 32) (pair : BitVec 8) (err : Bool) (s : State) :
    exec (.doorbellRead fn pair err) s = execDoorbellRead fn pair err s := rfl
@[simp] theorem exec_entryFetch (fn : Fin 32) (pair : BitVec 8) (err : Bool) (s : State) :
    exec (.entryFetch fn pair err) s = execEntryFetch fn pair err s := rfl
@[simp] theorem exec_entryArrival (fn : Fin 32) (pair : BitVec 8) (s : State) :
    exec (.entryArrival fn pair) s = execEntryArrival fn pair s := rfl
@[simp] theorem exec_completionWrite (fn : Fin 32) (pair : BitVec 8) (s : State) :
    exec (.completionWrite fn pair) s = execCompletionWrite fn pair s := rfl
@[simp] theorem exec_msixSend (fn : Fin 32) (vector : BitVec 11) (s : State) :
    exec (.msixSend fn vector) s = execMsixSend fn vector s := rfl
@[simp] theorem exec_vectorTimeExpiry (fn : Fin 32) (vector : BitVec 11) (s : State) :
    exec (.vectorTimeExpiry fn vector) s = execVectorTimeExpiry fn vector s := rfl
@[simp] theorem exec_eventVector (fn : Fin 32) (s : State) : exec (.eventVector fn) s = execEventVector fn s := rfl
@[simp] theorem exec_ringEnable (fn : Fin 32) (pair : BitVec 8) (ctl : BitVec 32) (s : State) :
    exec (.ringEnable fn pair ctl) s = execRingEnable fn pair ctl s := rfl
@[simp] theorem exec_ringDisable (fn : Fin 32) (pair : BitVec 8) (s : State) :
    exec (.ringDisable fn pair) s = execRingDisable fn pair s := rfl
@[simp] theorem exec_ringReport (fn : Fin 32) (pair : BitVec 8) (s : State) :
    exec (.ringReport fn pair) s = execRingReport fn pair s := rfl
@[simp] theorem exec_pcieFlr (fn : Fin 32) (s : State) : exec (.pcieFlr fn) s = execPcieFlr fn s := rfl
@[simp] theorem exec_resetSoft (fn : Fin 32) (s : State) : exec (.resetSoft fn) s = execResetSoft fn s := rfl
@[simp] theorem exec_fnResetDone (fn : Fin 32) (s : State) : exec (.fnResetDone fn) s = execFnResetDone fn s := rfl
@[simp] theorem exec_failover (fn : Fin 32) (s : State) : exec (.failover fn) s = execFailover fn s := rfl
@[simp] theorem exec_linkDownTimeout (port : Fin 2) (s : State) :
    exec (.linkDownTimeout port) s = execLinkDownTimeout port s := rfl
@[simp] theorem exec_admEngOwnerWrite (e : Fin 13) (v : BitVec 32) (s : State) :
    exec (.admEngOwnerWrite e v) s = execAdmEngOwnerWrite e v s := rfl
@[simp] theorem exec_admFnCfgWrite (f : Fin 32) (v : BitVec 32) (s : State) :
    exec (.admFnCfgWrite f v) s = execAdmFnCfgWrite f v s := rfl
@[simp] theorem exec_list (e : Fin 13) (j : Nat) (err : Bool) (s : State) : exec (.list e j err) s = execList e j err s := rfl
@[simp] theorem exec_fence (e : Fin 13) (j : Nat) (s : State) : exec (.fence e j) s = execFence e j s := rfl
@[simp] theorem exec_cntSnap (e : Fin 13) (j : Nat) (s : State) : exec (.cntSnap e j) s = execCntSnap e j s := rfl
@[simp] theorem exec_engReset (e : Fin 13) (j : Nat) (s : State) : exec (.engReset e j) s = execEngReset e j s := rfl
@[simp] theorem exec_imageLoad (e : Fin 8) (j : Nat) (err : Bool) (s : State) :
    exec (.imageLoad e j err) s = execImageLoad e j err s := rfl
@[simp] theorem exec_imageUnbind (e : Fin 8) (j : Nat) (s : State) : exec (.imageUnbind e j) s = execImageUnbind e j s := rfl
@[simp] theorem exec_tideBind (e : Fin 8) (j : Nat) (s : State) : exec (.tideBind e j) s = execTideBind e j s := rfl
@[simp] theorem exec_streamOpen (e : Fin 8) (j : Nat) (err : Bool) (s : State) :
    exec (.streamOpen e j err) s = execStreamOpen e j err s := rfl
@[simp] theorem exec_streamClose (e : Fin 8) (j : Nat) (s : State) : exec (.streamClose e j) s = execStreamClose e j s := rfl
@[simp] theorem exec_frameIn (e : Fin 8) (j : Nat) (err : Bool) (s : State) :
    exec (.frameIn e j err) s = execFrameIn e j err s := rfl
@[simp] theorem exec_frameOut (e : Fin 8) (j : Nat) (s : State) : exec (.frameOut e j) s = execFrameOut e j s := rfl
@[simp] theorem exec_frameComplete (n : Fin 4096) (s : State) : exec (.frameComplete n) s = execFrameComplete n s := rfl
@[simp] theorem exec_checkpoint (e : Fin 8) (j : Nat) (s : State) : exec (.checkpoint e j) s = execCheckpoint e j s := rfl
@[simp] theorem exec_syncWait (e : Fin 8) (j : Nat) (s : State) : exec (.syncWait e j) s = execSyncWait e j s := rfl
@[simp] theorem exec_syncWaitTimeout (e : Fin 8) (j : Nat) (s : State) :
    exec (.syncWaitTimeout e j) s = execSyncWaitTimeout e j s := rfl
@[simp] theorem exec_syncSignalSet (e : Fin 8) (j : Nat) (s : State) :
    exec (.syncSignalSet e j) s = execSyncSignalSet e j s := rfl
@[simp] theorem exec_syncSignalClear (e : Fin 8) (j : Nat) (s : State) :
    exec (.syncSignalClear e j) s = execSyncSignalClear e j s := rfl
@[simp] theorem exec_syncSignalRelease (e : Fin 8) (j : Nat) (s : State) :
    exec (.syncSignalRelease e j) s = execSyncSignalRelease e j s := rfl
@[simp] theorem exec_engineSyncAnswer (e : Fin 8) (s : State) : exec (.engineSyncAnswer e) s = execEngineSyncAnswer e s := rfl
@[simp] theorem exec_audit (e : Fin 8) (j : Nat) (s : State) : exec (.audit e j) s = execAudit e j s := rfl
@[simp] theorem exec_copy (e : Fin 13) (j : Nat) (err : Bool) (s : State) : exec (.copy e j err) s = execCopy e j err s := rfl
@[simp] theorem exec_weightPin (e : Fin 13) (j : Nat) (err : Bool) (s : State) :
    exec (.weightPin e j err) s = execWeightPin e j err s := rfl
@[simp] theorem exec_pinOrder (region : Fin 512) (s : State) : exec (.pinOrder region) s = execPinOrder region s := rfl
@[simp] theorem exec_pinBlockLand (c : CoreRef) (s : State) : exec (.pinBlockLand c) s = execPinBlockLand c s := rfl
@[simp] theorem exec_regionAssign (j : Nat) (s : State) : exec (.regionAssign j) s = execRegionAssign j s := rfl
@[simp] theorem exec_regionRelease (j : Nat) (s : State) : exec (.regionRelease j) s = execRegionRelease j s := rfl
@[simp] theorem exec_scrubDone (region : Fin 512) (bad : List (Fin 32 × Fin 17)) (s : State) :
    exec (.scrubDone region bad) s = execScrubDone region bad s := rfl
@[simp] theorem exec_hchAssign (j : Nat) (s : State) : exec (.hchAssign j) s = execHchAssign j s := rfl
@[simp] theorem exec_hchRelease (j : Nat) (s : State) : exec (.hchRelease j) s = execHchRelease j s := rfl
@[simp] theorem exec_regRead (j : Nat) (s : State) : exec (.regRead j) s = execRegRead j s := rfl
@[simp] theorem exec_regWrite (j : Nat) (s : State) : exec (.regWrite j) s = execRegWrite j s := rfl
@[simp] theorem exec_regTimeout (j : Nat) (s : State) : exec (.regTimeout j) s = execRegTimeout j s := rfl
@[simp] theorem exec_ttaintReceive (e : Fin 8) (s : State) : exec (.ttaintReceive e) s = execTtaintReceive e s := rfl
@[simp] theorem exec_strIntPolSet (fn : Fin 32) (v : BitVec 32) (s : State) :
    exec (.strIntPolSet fn v) s = execStrIntPolSet fn v s := rfl
@[simp] theorem exec_auditPass (e : Fin 8) (s : State) : exec (.auditPass e) s = execAuditPass e s := rfl
@[simp] theorem exec_refetch (e : Fin 8) (s : State) : exec (.refetch e) s = execRefetch e s := rfl
@[simp] theorem exec_refetchTimeout (e : Fin 8) (s : State) : exec (.refetchTimeout e) s = execRefetchTimeout e s := rfl
@[simp] theorem exec_hmUpdate (unit : BitVec 32) (s : State) : exec (.hmUpdate unit) s = execHmUpdate unit s := rfl
@[simp] theorem exec_liveReport (unit : BitVec 32) (s : State) : exec (.liveReport unit) s = execLiveReport unit s := rfl
@[simp] theorem exec_selfCheck (unit : BitVec 32) (pass : Bool) (s : State) :
    exec (.selfCheck unit pass) s = execSelfCheck unit pass s := rfl
@[simp] theorem exec_rowSlide (region : Fin 512) (row : Fin 32) (bad : List (Fin 17)) (s : State) :
    exec (.rowSlide region row bad) s = execRowSlide region row bad s := rfl
@[simp] theorem exec_slideBack (region : Fin 512) (row : Fin 32) (bad : List (Fin 17)) (s : State) :
    exec (.slideBack region row bad) s = execSlideBack region row bad s := rfl
@[simp] theorem exec_rowRebuild (region : Fin 512) (row : Fin 32) (bad : BitVec 3) (s : State) :
    exec (.rowRebuild region row bad) s = execRowRebuild region row bad s := rfl
@[simp] theorem exec_relocation (e : Fin 8) (confirmed : Bool) (bad : List (BitVec 18 × Fin 3)) (s : State) :
    exec (.relocation e confirmed bad) s = execRelocation e confirmed bad s := rfl
@[simp] theorem exec_relocTimeout (e : Fin 8) (s : State) : exec (.relocTimeout e) s = execRelocTimeout e s := rfl
@[simp] theorem exec_mgmtEscalation (region : Fin 512) (s : State) :
    exec (.mgmtEscalation region) s = execMgmtEscalation region s := rfl
@[simp] theorem exec_bringupPhase (f : PhaseFinds) (s : State) : exec (.bringupPhase f) s = execBringupPhase f s := rfl
@[simp] theorem exec_phaseTimeout (f : PhaseFinds) (s : State) : exec (.phaseTimeout f) s = execPhaseTimeout f s := rfl
@[simp] theorem exec_tieBreakScan (c : CoreRef) (pass : Bool) (run : Fin 8 × Fin 2) (s : State) :
    exec (.tieBreakScan c pass run) s = execTieBreakScan c pass run s := rfl
@[simp] theorem exec_ftDue (region : Fin 512) (s : State) : exec (.ftDue region) s = execFtDue region s := rfl
@[simp] theorem exec_testSlide (region : Fin 512) (bad : List (Fin 17)) (s : State) :
    exec (.testSlide region bad) s = execTestSlide region bad s := rfl
@[simp] theorem exec_ftVerdict (c : CoreRef) (fail : Option (Fin 8 × Fin 2 × Bool)) (s : State) :
    exec (.ftVerdict c fail) s = execFtVerdict c fail s := rfl
@[simp] theorem exec_ftAbandon (region : Fin 512) (bad : List (Fin 17)) (s : State) :
    exec (.ftAbandon region bad) s = execFtAbandon region bad s := rfl
@[simp] theorem exec_spareTest (region : Fin 512) (s : State) : exec (.spareTest region) s = execSpareTest region s := rfl
@[simp] theorem exec_testStarved (region : Fin 512) (row : Fin 32) (s : State) :
    exec (.testStarved region row) s = execTestStarved region row s := rfl
@[simp] theorem exec_ftGrant (v : BitVec 32) (s : State) : exec (.ftGrant v) s = execFtGrant v s := rfl
@[simp] theorem exec_overdueSuspect (region : Fin 512) (s : State) :
    exec (.overdueSuspect region) s = execOverdueSuspect region s := rfl
@[simp] theorem exec_ftCtlWrite (v : BitVec 32) (s : State) : exec (.ftCtlWrite v) s = execFtCtlWrite v s := rfl
@[simp] theorem exec_seawallFrame (f : SwFrame) (s : State) : exec (.seawallFrame f) s = execSeawallFrame f s := rfl
@[simp] theorem exec_frameResend (src : Node) (dst : Node) (s : State) :
    exec (.frameResend src dst) s = execFrameResend src dst s := rfl
@[simp] theorem exec_telemetry (src : Node) (s : State) : exec (.telemetry src) s = execTelemetry src s := rfl
@[simp] theorem exec_telemetryTimeout (src : Node) (s : State) :
    exec (.telemetryTimeout src) s = execTelemetryTimeout src s := rfl
@[simp] theorem exec_monitorEscalation (b : Fin 32) (s : State) : exec (.monitorEscalation b) s = execMonitorEscalation b s := rfl
@[simp] theorem exec_healthPersist (s : State) : exec (.healthPersist) s = execHealthPersist s := rfl
@[simp] theorem exec_lhRecovery (s : State) : exec (.lhRecovery) s = execLhRecovery s := rfl
@[simp] theorem exec_epochQuery (node : Node) (s : State) : exec (.epochQuery node) s = execEpochQuery node s := rfl
@[simp] theorem exec_eventRecord (unit : BitVec 32) (s : State) : exec (.eventRecord unit) s = execEventRecord unit s := rfl
@[simp] theorem exec_eventLost (unit : BitVec 32) (s : State) : exec (.eventLost unit) s = execEventLost unit s := rfl
@[simp] theorem exec_sensorSample (id : BitVec 16) (v : BitVec 32) (s : State) :
    exec (.sensorSample id v) s = execSensorSample id v s := rfl
@[simp] theorem exec_getHealth (m : LhMsg) (s : State) : exec (.getHealth m) s = execGetHealth m s := rfl
@[simp] theorem exec_healthSince (m : LhMsg) (s : State) : exec (.healthSince m) s = execHealthSince m s := rfl
@[simp] theorem exec_getLog (m : LhMsg) (s : State) : exec (.getLog m) s = execGetLog m s := rfl
@[simp] theorem exec_unitOrderFence (m : LhMsg) (s : State) : exec (.unitOrderFence m) s = execUnitOrderFence m s := rfl
@[simp] theorem exec_unitOrderRelease (m : LhMsg) (s : State) : exec (.unitOrderRelease m) s = execUnitOrderRelease m s := rfl
@[simp] theorem exec_unitOrderRetire (m : LhMsg) (s : State) : exec (.unitOrderRetire m) s = execUnitOrderRetire m s := rfl
@[simp] theorem exec_unitOrderSuspect (m : LhMsg) (s : State) : exec (.unitOrderSuspect m) s = execUnitOrderSuspect m s := rfl
@[simp] theorem exec_portOrderBridgeDown (m : LhMsg) (s : State) :
    exec (.portOrderBridgeDown m) s = execPortOrderBridgeDown m s := rfl
@[simp] theorem exec_portOrderXlDown (m : LhMsg) (s : State) : exec (.portOrderXlDown m) s = execPortOrderXlDown m s := rfl
@[simp] theorem exec_portOrderXlRetrain (m : LhMsg) (s : State) :
    exec (.portOrderXlRetrain m) s = execPortOrderXlRetrain m s := rfl
@[simp] theorem exec_portOrderFailover (m : LhMsg) (s : State) : exec (.portOrderFailover m) s = execPortOrderFailover m s := rfl
@[simp] theorem exec_getSensors (m : LhMsg) (s : State) : exec (.getSensors m) s = execGetSensors m s := rfl
@[simp] theorem exec_getFw (m : LhMsg) (s : State) : exec (.getFw m) s = execGetFw m s := rfl
@[simp] theorem exec_hbRelay (m : LhMsg) (reply : Option (List (BitVec 8))) (s : State) :
    exec (.hbRelay m reply) s = execHbRelay m reply s := rfl
@[simp] theorem exec_lhRestart (m : LhMsg) (s : State) : exec (.lhRestart m) s = execLhRestart m s := rfl
@[simp] theorem exec_lhRestartBringup (m : LhMsg) (s : State) : exec (.lhRestartBringup m) s = execLhRestartBringup m s := rfl
@[simp] theorem exec_hbState (unit : BitVec 32) (s : State) : exec (.hbState unit) s = execHbState unit s := rfl
@[simp] theorem exec_hbHm (unit : BitVec 32) (s : State) : exec (.hbHm unit) s = execHbHm unit s := rfl
@[simp] theorem exec_hbSensors (quad : Fin 4) (s : State) : exec (.hbSensors quad) s = execHbSensors quad s := rfl
@[simp] theorem exec_hbEvent (quad : Fin 4) (s : State) : exec (.hbEvent quad) s = execHbEvent quad s := rfl
@[simp] theorem exec_hbReg (write : Bool) (unit off : BitVec 32) (wide : Bool) (value mask : BitVec 64) (s : State) :
    exec (.hbReg write unit off wide value mask) s = execHbReg write unit off wide value mask s := rfl
@[simp] theorem exec_peerNotice (cage : Fin 16) (bytes : List (BitVec 8)) (s : State) :
    exec (.peerNotice cage bytes) s = execPeerNotice cage bytes s := rfl
@[simp] theorem exec_getSensorReading (via : Via) (id : BitVec 16) (s : State) :
    exec (.getSensorReading via id) s = execGetSensorReading via id s := rfl
@[simp] theorem exec_setEventReceiver (via : Via) (eid : BitVec 8) (s : State) :
    exec (.setEventReceiver via eid) s = execSetEventReceiver via eid s := rfl
@[simp] theorem exec_mbxGo (s : State) : exec (.mbxGo) s = execMbxGo s := rfl
@[simp] theorem exec_mbxTimeout (s : State) : exec (.mbxTimeout) s = execMbxTimeout s := rfl
@[simp] theorem exec_requestUpdate (via : Via) (s : State) : exec (.requestUpdate via) s = execRequestUpdate via s := rfl
@[simp] theorem exec_verifyComplete (via : Via) (image : FwImage) (s : State) :
    exec (.verifyComplete via image) s = execVerifyComplete via image s := rfl
@[simp] theorem exec_activateFirmware (via : Via) (selfContained : Bool) (s : State) :
    exec (.activateFirmware via selfContained) s = execActivateFirmware via selfContained s := rfl
@[simp] theorem exec_lhBoot (straps : Fin 4) (s : State) : exec (.lhBoot straps) s = execLhBoot straps s := rfl
@[simp] theorem exec_trialTimeout (s : State) : exec (.trialTimeout) s = execTrialTimeout s := rfl
@[simp] theorem exec_lhWatchdog (s : State) : exec (.lhWatchdog) s = execLhWatchdog s := rfl
@[simp] theorem exec_supplyRange (s : State) : exec (.supplyRange) s = execSupplyRange s := rfl
@[simp] theorem exec_lockout (s : State) : exec (.lockout) s = execLockout s := rfl
@[simp] theorem exec_rampWave (bad : List (Fin 32 × Fin 2 × BitVec 32 × BitVec 32)) (s : State) :
    exec (.rampWave bad) s = execRampWave bad s := rfl
@[simp] theorem exec_rootLockLoss (s : State) : exec (.rootLockLoss) s = execRootLockLoss s := rfl
@[simp] theorem exec_referenceStop (s : State) : exec (.referenceStop) s = execReferenceStop s := rfl
@[simp] theorem exec_tlUpdate (region : Fin 512) (s : State) : exec (.tlUpdate region) s = execTlUpdate region s := rfl
@[simp] theorem exec_gUpdate (s : State) : exec (.gUpdate) s = execGUpdate s := rfl
@[simp] theorem exec_regionTrip (region : Fin 512) (s : State) : exec (.regionTrip region) s = execRegionTrip region s := rfl
@[simp] theorem exec_bridgeTrip (b : Fin 32) (s : State) : exec (.bridgeTrip b) s = execBridgeTrip b s := rfl
@[simp] theorem exec_regulatorFault (region : Fin 512) (hot : Option (Fin 2)) (s : State) :
    exec (.regulatorFault region hot) s = execRegulatorFault region hot s := rfl
@[simp] theorem exec_neighbourPgFall (region : Fin 512) (dir : Fin 4) (s : State) :
    exec (.neighbourPgFall region dir) s = execNeighbourPgFall region dir s := rfl
@[simp] theorem exec_dbgCtlWrite (v : BitVec 32) (s : State) : exec (.dbgCtlWrite v) s = execDbgCtlWrite v s := rfl
@[simp] theorem exec_lhPreempt (release : Bool) (s : State) : exec (.lhPreempt release) s = execLhPreempt release s := rfl
@[simp] theorem exec_extest (ext : Bool) (tap : Fin 33) (s : State) : exec (.extest ext tap) s = execExtest ext tap s := rfl
@[simp] theorem exec_samplePreload (ext : Bool) (tap : Fin 33) (pins data : BitVec 32) (s : State) :
    exec (.samplePreload ext tap pins data) s = execSamplePreload ext tap pins data s := rfl
@[simp] theorem exec_idcode (ext : Bool) (tap : Fin 33) (s : State) : exec (.idcode ext tap) s = execIdcode ext tap s := rfl
@[simp] theorem exec_ijsel (ext : Bool) (tap : Fin 33) (s : State) : exec (.ijsel ext tap) s = execIjsel ext tap s := rfl
@[simp] theorem exec_bypass (ext : Bool) (tap : Fin 33) (s : State) : exec (.bypass ext tap) s = execBypass ext tap s := rfl
@[simp] theorem exec_regaccRead (ext : Bool) (region : Fin 512) (space : Fin 4) (row col : BitVec 5) (off : BitVec 16) (s : State) :
    exec (.regaccRead ext region space row col off) s = execRegaccRead ext region space row col off s := rfl
@[simp] theorem exec_regaccWrite (ext : Bool) (region : Fin 512) (space : Fin 4) (row col : BitVec 5) (off : BitVec 16) (data : BitVec 64) (s : State) :
    exec (.regaccWrite ext region space row col off data) s = execRegaccWrite ext region space row col off data s := rfl
@[simp] theorem exec_coreSibOpen (ext : Bool) (region : Fin 512) (s : State) :
    exec (.coreSibOpen ext region) s = execCoreSibOpen ext region s := rfl
@[simp] theorem exec_coreSibClose (ext : Bool) (region : Fin 512) (s : State) :
    exec (.coreSibClose ext region) s = execCoreSibClose ext region s := rfl
@[simp] theorem exec_sndSelWrite (k : Fin 8) (v : BitVec 32) (s : State) :
    exec (.sndSelWrite k v) s = execSndSelWrite k v s := rfl
@[simp] theorem exec_trstN (low : Bool) (s : State) : exec (.trstN low) s = execTrstN low s := rfl
@[simp] theorem exec_perstN (port : Fin 2) (low : Bool) (s : State) : exec (.perstN port low) s = execPerstN port low s := rfl
@[simp] theorem exec_smbClockLowTimeout (s : State) : exec (.smbClockLowTimeout) s = execSmbClockLowTimeout s := rfl
@[simp] theorem exec_mctpGapTimeout (via : Via) (s : State) : exec (.mctpGapTimeout via) s = execMctpGapTimeout via s := rfl
@[simp] theorem exec_registerWrite (w : HostReg) (s : State) : exec (.registerWrite w) s = execRegisterWrite w s := rfl
@[simp] theorem exec_hostLinkL0Change (port : Fin 2) (up : Bool) (s : State) :
    exec (.hostLinkL0Change port up) s = execHostLinkL0Change port up s := rfl
@[simp] theorem exec_vfEnableClear (port : Fin 2) (s : State) : exec (.vfEnableClear port) s = execVfEnableClear port s := rfl
@[simp] theorem exec_harbourPowerOn (quad : Fin 4) (bad : List (Fin 32 × Fin 32)) (s : State) :
    exec (.harbourPowerOn quad bad) s = execHarbourPowerOn quad bad s := rfl
@[simp] theorem exec_msixUnmask (fn : Fin 32) (vector : BitVec 11) (s : State) :
    exec (.msixUnmask fn vector) s = execMsixUnmask fn vector s := rfl
@[simp] theorem exec_hostReadTimeout (read : HostRead) (s : State) :
    exec (.hostReadTimeout read) s = execHostReadTimeout read s := rfl
@[simp] theorem exec_inputPowerRemoval (s : State) : exec (.inputPowerRemoval) s = execInputPowerRemoval s := rfl

end Sys2Proof.Machine
end

