-- ==== Sys2Proof/Laws/PerInstr.lean ====
section
/-! SUPPORT. Laws/PerInstr.lean: for every row, exactly which of its operands are ill formed. -/

namespace Sys2Proof.Laws.WellFormedTotal

open Sys2Proof

/-- A command is ill formed exactly where it gives a word that R50 calls legal as an illegal one, or a peer's record that has not
64 bytes. -/
def Statement (i : Instr) : Prop :=
  i.wellFormed = false ↔
    (∃ c w, i = .illegal c w ∧ illegalWord w = false) ∨ (∃ p b, i = .peerNotice p b ∧ b.length ≠ 64)

theorem of_any (i : Instr) : Statement i := by
  constructor
  · intro h
    unfold Instr.wellFormed at h
    split at h
    · exact .inl ⟨_, _, rfl, h⟩
    · exact .inr ⟨_, _, rfl, of_decide_eq_false h⟩
    · cases h
  · rintro (⟨c, w, rfl, h⟩ | ⟨p, b, rfl, h⟩)
    · exact h
    · exact decide_eq_false h

theorem illegal (c : CoreRef) (w : BitVec 32) : Statement (.illegal c w) := of_any _
theorem add (c : CoreRef) (f : FmtR) : Statement (.add c f) := of_any _
theorem sub (c : CoreRef) (f : FmtR) : Statement (.sub c f) := of_any _
theorem and (c : CoreRef) (f : FmtR) : Statement (.and c f) := of_any _
theorem or (c : CoreRef) (f : FmtR) : Statement (.or c f) := of_any _
theorem xor (c : CoreRef) (f : FmtR) : Statement (.xor c f) := of_any _
theorem sll (c : CoreRef) (f : FmtR) : Statement (.sll c f) := of_any _
theorem srl (c : CoreRef) (f : FmtR) : Statement (.srl c f) := of_any _
theorem sra (c : CoreRef) (f : FmtR) : Statement (.sra c f) := of_any _
theorem slt (c : CoreRef) (f : FmtR) : Statement (.slt c f) := of_any _
theorem sltu (c : CoreRef) (f : FmtR) : Statement (.sltu c f) := of_any _
theorem mul (c : CoreRef) (f : FmtR) : Statement (.mul c f) := of_any _
theorem mulh (c : CoreRef) (f : FmtR) : Statement (.mulh c f) := of_any _
theorem mulhu (c : CoreRef) (f : FmtR) : Statement (.mulhu c f) := of_any _
theorem min (c : CoreRef) (f : FmtR) : Statement (.min c f) := of_any _
theorem max (c : CoreRef) (f : FmtR) : Statement (.max c f) := of_any _
theorem addi (c : CoreRef) (f : FmtI) : Statement (.addi c f) := of_any _
theorem slti (c : CoreRef) (f : FmtI) : Statement (.slti c f) := of_any _
theorem andi (c : CoreRef) (f : FmtI) : Statement (.andi c f) := of_any _
theorem ori (c : CoreRef) (f : FmtI) : Statement (.ori c f) := of_any _
theorem xori (c : CoreRef) (f : FmtI) : Statement (.xori c f) := of_any _
theorem lui (c : CoreRef) (f : FmtI) : Statement (.lui c f) := of_any _
theorem slli (c : CoreRef) (f : FmtI) : Statement (.slli c f) := of_any _
theorem srli (c : CoreRef) (f : FmtI) : Statement (.srli c f) := of_any _
theorem srai (c : CoreRef) (f : FmtI) : Statement (.srai c f) := of_any _
theorem fadd (c : CoreRef) (f : FmtR) : Statement (.fadd c f) := of_any _
theorem fsub (c : CoreRef) (f : FmtR) : Statement (.fsub c f) := of_any _
theorem fmul (c : CoreRef) (f : FmtR) : Statement (.fmul c f) := of_any _
theorem fmin (c : CoreRef) (f : FmtR) : Statement (.fmin c f) := of_any _
theorem fmax (c : CoreRef) (f : FmtR) : Statement (.fmax c f) := of_any _
theorem fcvtws (c : CoreRef) (f : FmtR) : Statement (.fcvtws c f) := of_any _
theorem fcvtsw (c : CoreRef) (f : FmtR) : Statement (.fcvtsw c f) := of_any _
theorem beq (c : CoreRef) (f : FmtB) : Statement (.beq c f) := of_any _
theorem bne (c : CoreRef) (f : FmtB) : Statement (.bne c f) := of_any _
theorem blt (c : CoreRef) (f : FmtB) : Statement (.blt c f) := of_any _
theorem bge (c : CoreRef) (f : FmtB) : Statement (.bge c f) := of_any _
theorem bltu (c : CoreRef) (f : FmtB) : Statement (.bltu c f) := of_any _
theorem bgeu (c : CoreRef) (f : FmtB) : Statement (.bgeu c f) := of_any _
theorem jal (c : CoreRef) (f : FmtI) : Statement (.jal c f) := of_any _
theorem jalr (c : CoreRef) (f : FmtI) : Statement (.jalr c f) := of_any _
theorem loop (c : CoreRef) (f : FmtL) : Statement (.loop c f) := of_any _
theorem amov (c : CoreRef) (f : FmtR) : Statement (.amov c f) := of_any _
theorem smova (c : CoreRef) (f : FmtR) : Statement (.smova c f) := of_any _
theorem aadd (c : CoreRef) (f : FmtR) : Statement (.aadd c f) := of_any _
theorem aseti (c : CoreRef) (f : FmtI) : Statement (.aseti c f) := of_any _
theorem aaddi (c : CoreRef) (f : FmtI) : Statement (.aaddi c f) := of_any _
theorem lw (c : CoreRef) (f : FmtM) : Statement (.lw c f) := of_any _
theorem lh (c : CoreRef) (f : FmtM) : Statement (.lh c f) := of_any _
theorem lhu (c : CoreRef) (f : FmtM) : Statement (.lhu c f) := of_any _
theorem lb (c : CoreRef) (f : FmtM) : Statement (.lb c f) := of_any _
theorem lbu (c : CoreRef) (f : FmtM) : Statement (.lbu c f) := of_any _
theorem sw (c : CoreRef) (f : FmtM) : Statement (.sw c f) := of_any _
theorem sh (c : CoreRef) (f : FmtM) : Statement (.sh c f) := of_any _
theorem sb (c : CoreRef) (f : FmtM) : Statement (.sb c f) := of_any _
theorem vld (c : CoreRef) (f : FmtM) : Statement (.vld c f) := of_any _
theorem vst (c : CoreRef) (f : FmtM) : Statement (.vst c f) := of_any _
theorem vldh (c : CoreRef) (f : FmtM) : Statement (.vldh c f) := of_any _
theorem vldb (c : CoreRef) (f : FmtM) : Statement (.vldb c f) := of_any _
theorem vsth (c : CoreRef) (f : FmtM) : Statement (.vsth c f) := of_any _
theorem vstb (c : CoreRef) (f : FmtM) : Statement (.vstb c f) := of_any _
theorem vadd (c : CoreRef) (f : FmtR) : Statement (.vadd c f) := of_any _
theorem vsub (c : CoreRef) (f : FmtR) : Statement (.vsub c f) := of_any _
theorem vmul (c : CoreRef) (f : FmtR) : Statement (.vmul c f) := of_any _
theorem vand (c : CoreRef) (f : FmtR) : Statement (.vand c f) := of_any _
theorem vor (c : CoreRef) (f : FmtR) : Statement (.vor c f) := of_any _
theorem vxor (c : CoreRef) (f : FmtR) : Statement (.vxor c f) := of_any _
theorem vsll (c : CoreRef) (f : FmtR) : Statement (.vsll c f) := of_any _
theorem vsrl (c : CoreRef) (f : FmtR) : Statement (.vsrl c f) := of_any _
theorem vsra (c : CoreRef) (f : FmtR) : Statement (.vsra c f) := of_any _
theorem vmin (c : CoreRef) (f : FmtR) : Statement (.vmin c f) := of_any _
theorem vmax (c : CoreRef) (f : FmtR) : Statement (.vmax c f) := of_any _
theorem vminu (c : CoreRef) (f : FmtR) : Statement (.vminu c f) := of_any _
theorem vmaxu (c : CoreRef) (f : FmtR) : Statement (.vmaxu c f) := of_any _
theorem vfadd (c : CoreRef) (f : FmtR) : Statement (.vfadd c f) := of_any _
theorem vfsub (c : CoreRef) (f : FmtR) : Statement (.vfsub c f) := of_any _
theorem vfmul (c : CoreRef) (f : FmtR) : Statement (.vfmul c f) := of_any _
theorem vfma (c : CoreRef) (f : FmtR) : Statement (.vfma c f) := of_any _
theorem vfmin (c : CoreRef) (f : FmtR) : Statement (.vfmin c f) := of_any _
theorem vfmax (c : CoreRef) (f : FmtR) : Statement (.vfmax c f) := of_any _
theorem vexp2 (c : CoreRef) (f : FmtR) : Statement (.vexp2 c f) := of_any _
theorem vlog2 (c : CoreRef) (f : FmtR) : Statement (.vlog2 c f) := of_any _
theorem vrcp (c : CoreRef) (f : FmtR) : Statement (.vrcp c f) := of_any _
theorem vrsqrt (c : CoreRef) (f : FmtR) : Statement (.vrsqrt c f) := of_any _
theorem vcmpeq (c : CoreRef) (f : FmtR) : Statement (.vcmpeq c f) := of_any _
theorem vcmplt (c : CoreRef) (f : FmtR) : Statement (.vcmplt c f) := of_any _
theorem vcmple (c : CoreRef) (f : FmtR) : Statement (.vcmple c f) := of_any _
theorem vfcmpeq (c : CoreRef) (f : FmtR) : Statement (.vfcmpeq c f) := of_any _
theorem vfcmplt (c : CoreRef) (f : FmtR) : Statement (.vfcmplt c f) := of_any _
theorem vfcmple (c : CoreRef) (f : FmtR) : Statement (.vfcmple c f) := of_any _
theorem vsel (c : CoreRef) (f : FmtR) : Statement (.vsel c f) := of_any _
theorem vbcast (c : CoreRef) (f : FmtR) : Statement (.vbcast c f) := of_any _
theorem vext (c : CoreRef) (f : FmtR) : Statement (.vext c f) := of_any _
theorem vsum (c : CoreRef) (f : FmtR) : Statement (.vsum c f) := of_any _
theorem vmaxr (c : CoreRef) (f : FmtR) : Statement (.vmaxr c f) := of_any _
theorem vsumi (c : CoreRef) (f : FmtR) : Statement (.vsumi c f) := of_any _
theorem vcvt (c : CoreRef) (f : FmtR) (src dst : BitVec 3) : Statement (.vcvt c f src dst) := of_any _
theorem tmac (c : CoreRef) (f : FmtT) : Statement (.tmac c f) := of_any _
theorem tzero (c : CoreRef) (f : FmtR) : Statement (.tzero c f) := of_any _
theorem trow (c : CoreRef) (f : FmtR) : Statement (.trow c f) := of_any _
theorem tput (c : CoreRef) (f : FmtR) : Statement (.tput c f) := of_any _
theorem tst (c : CoreRef) (f : FmtR) : Statement (.tst c f) := of_any _
theorem tld (c : CoreRef) (f : FmtR) : Statement (.tld c f) := of_any _
theorem csend (c : CoreRef) (f : FmtC) : Statement (.csend c f) := of_any _
theorem crecv (c : CoreRef) (f : FmtC) : Statement (.crecv c f) := of_any _
theorem crecvCopy (c : CoreRef) : Statement (.crecvCopy c) := of_any _
theorem cpoll (c : CoreRef) (f : FmtC) : Statement (.cpoll c f) := of_any _
theorem copen (c : CoreRef) (f : FmtC) : Statement (.copen c f) := of_any _
theorem cclose (c : CoreRef) (f : FmtC) : Statement (.cclose c f) := of_any _
theorem bsend (c : CoreRef) (f : FmtC) : Statement (.bsend c f) := of_any _
theorem bland (c : CoreRef) (f : FmtC) : Statement (.bland c f) := of_any _
theorem bwait (c : CoreRef) (f : FmtC) : Statement (.bwait c f) := of_any _
theorem btry (c : CoreRef) (f : FmtC) : Statement (.btry c f) := of_any _
theorem bchk (c : CoreRef) (f : FmtC) : Statement (.bchk c f) := of_any _
theorem sacq (c : CoreRef) (f : FmtR) : Statement (.sacq c f) := of_any _
theorem stry (c : CoreRef) (f : FmtR) : Statement (.stry c f) := of_any _
theorem srel (c : CoreRef) (f : FmtR) : Statement (.srel c f) := of_any _
theorem sbar (c : CoreRef) (f : FmtR) : Statement (.sbar c f) := of_any _
theorem sset (c : CoreRef) (f : FmtR) : Statement (.sset c f) := of_any _
theorem sclr (c : CoreRef) (f : FmtR) : Statement (.sclr c f) := of_any _
theorem swait (c : CoreRef) (f : FmtR) : Statement (.swait c f) := of_any _
theorem crdl (c : CoreRef) (f : FmtR) : Statement (.crdl c f) := of_any _
theorem crdh (c : CoreRef) (f : FmtR) : Statement (.crdh c f) := of_any _
theorem cinc (c : CoreRef) (f : FmtR) : Statement (.cinc c f) := of_any _
theorem tend (c : CoreRef) (f : FmtR) : Statement (.tend c f) := of_any _
theorem tnum (c : CoreRef) (f : FmtR) : Statement (.tnum c f) := of_any _
theorem tlast (c : CoreRef) (f : FmtR) : Statement (.tlast c f) := of_any _
theorem tleft (c : CoreRef) (f : FmtR) : Statement (.tleft c f) := of_any _
theorem tstat (c : CoreRef) (f : FmtR) : Statement (.tstat c f) := of_any _
theorem xsel (c : CoreRef) (f : FmtR) : Statement (.xsel c f) := of_any _
theorem xput (c : CoreRef) (f : FmtR) : Statement (.xput c f) := of_any _
theorem xdata (c : CoreRef) (f : FmtR) : Statement (.xdata c f) := of_any _
theorem xgo (c : CoreRef) (f : FmtR) : Statement (.xgo c f) := of_any _
theorem xwait (c : CoreRef) (f : FmtR) : Statement (.xwait c f) := of_any _
theorem xwaitTimeout (c : CoreRef) : Statement (.xwaitTimeout c) := of_any _
theorem xsig (c : CoreRef) (f : FmtR) : Statement (.xsig c f) := of_any _
theorem xverd (c : CoreRef) (f : FmtR) : Statement (.xverd c f) := of_any _
theorem xpub (c : CoreRef) (f : FmtR) : Statement (.xpub c f) := of_any _
theorem sequencerMismatch (c : CoreRef) : Statement (.sequencerMismatch c) := of_any _
theorem istoreParity (c : CoreRef) : Statement (.istoreParity c) := of_any _
theorem packetRoute (r : CoreRef) (out : Fin 7) : Statement (.packetRoute r out) := of_any _
theorem multicastForward (r : CoreRef) (credit : BitVec 5) : Statement (.multicastForward r credit) := of_any _
theorem messageAdmission (c : CoreRef) : Statement (.messageAdmission c) := of_any _
theorem blockEjection (c : CoreRef) : Statement (.blockEjection c) := of_any _
theorem blockLanding (c : CoreRef) (n : BitVec 6) : Statement (.blockLanding c n) := of_any _
theorem stallWatchdogFire (c : CoreRef) (port : Fin 3) : Statement (.stallWatchdogFire c port) := of_any _
theorem aliveBeat (r : CoreRef) : Statement (.aliveBeat r) := of_any _
theorem linkWatchdogFire (r : CoreRef) (dir : Fin 4) (cut : List Nat) : Statement (.linkWatchdogFire r dir cut) := of_any _
theorem farRouterQuery (r : CoreRef) (dir : Fin 4) (alive : Bool) : Statement (.farRouterQuery r dir alive) := of_any _
theorem routerDownNotice (region : Fin 512) : Statement (.routerDownNotice region) := of_any _
theorem poisonTailArrival (c : CoreRef) : Statement (.poisonTailArrival c) := of_any _
theorem statusScan (region : Fin 512) (dead : List (Fin 32 × Fin 17)) : Statement (.statusScan region dead) := of_any _
theorem tableRebuild (region : Fin 512) : Statement (.tableRebuild region) := of_any _
theorem syncRequest (region : Fin 512) : Statement (.syncRequest region) := of_any _
theorem syncAnswer (c : CoreRef) : Statement (.syncAnswer c) := of_any _
theorem syncFullReissue (c : CoreRef) : Statement (.syncFullReissue c) := of_any _
theorem forfeitNotice (region : Fin 512) : Statement (.forfeitNotice region) := of_any _
theorem grantReturn (region : Fin 512) : Statement (.grantReturn region) := of_any _
theorem regionOffline (region : Fin 512) (cause : Fin 5) : Statement (.regionOffline region cause) := of_any _
theorem cntLoRead (path : Fin 2) (unit : BitVec 32) (n : BitVec 16) (inc : BitVec 48) : Statement (.cntLoRead path unit n inc) := of_any _
theorem cntLoWrite (path : Fin 2) (unit : BitVec 32) (n : BitVec 16) (v : BitVec 32) (inc : BitVec 48) : Statement (.cntLoWrite path unit n v inc) := of_any _
theorem cntHiWrite (path : Fin 2) (unit : BitVec 32) (n : BitVec 16) (v : BitVec 32) (inc : BitVec 48) : Statement (.cntHiWrite path unit n v inc) := of_any _
theorem cntFreeze (unit : BitVec 32) (v : BitVec 32) (n : BitVec 16) (inc : BitVec 48) : Statement (.cntFreeze unit v n inc) := of_any _
theorem programFlit (region : Fin 512) : Statement (.programFlit region) := of_any _
theorem regionConfirm (region : Fin 512) (damaged : Bool) : Statement (.regionConfirm region damaged) := of_any _
theorem confirmTimeout (region : Fin 512) : Statement (.confirmTimeout region) := of_any _
theorem tideStart (e : Fin 8) : Statement (.tideStart e) := of_any _
theorem tdone (region : Fin 512) : Statement (.tdone region) := of_any _
theorem tdoneReceive (e : Fin 8) : Statement (.tdoneReceive e) := of_any _
theorem deadline (e : Fin 8) : Statement (.deadline e) := of_any _
theorem guardOpen (e : Fin 8) : Statement (.guardOpen e) := of_any _
theorem withhold (region : Fin 512) : Statement (.withhold region) := of_any _
theorem commit (region : Fin 512) : Statement (.commit region) := of_any _
theorem tideClean (region : Fin 512) : Statement (.tideClean region) := of_any _
theorem nocmd (region : Fin 512) : Statement (.nocmd region) := of_any _
theorem mirrorBlockArrival (c : CoreRef) : Statement (.mirrorBlockArrival c) := of_any _
theorem checkpointCopy (e : Fin 8) : Statement (.checkpointCopy e) := of_any _
theorem checkpointDone (e : Fin 8) : Statement (.checkpointDone e) := of_any _
theorem restore (c : CoreRef) (bad : BitVec 3) : Statement (.restore c bad) := of_any _
theorem alignDrive : Statement (.alignDrive) := of_any _
theorem alignPulse (tr : BitVec 64) : Statement (.alignPulse tr) := of_any _
theorem alignMiss : Statement (.alignMiss) := of_any _
theorem shiFrameReceive (b : Fin 32) (g : Fin 4) (dir : Fin 2) (f : ShiFrame) : Statement (.shiFrameReceive b g dir f) := of_any _
theorem shiAckTimeout (b : Fin 32) (g : Fin 4) (dir : Fin 2) : Statement (.shiAckTimeout b g dir) := of_any _
theorem shiTraining (b : Fin 32) (ok : Bool) : Statement (.shiTraining b ok) := of_any _
theorem shiTrainTimeout (b : Fin 32) : Statement (.shiTrainTimeout b) := of_any _
theorem bridgeDown (b : Fin 32) : Statement (.bridgeDown b) := of_any _
theorem bridgeDownNotice (region : Fin 512) : Statement (.bridgeDownNotice region) := of_any _
theorem groupOut (b : Fin 32) (g : Fin 4) : Statement (.groupOut b g) := of_any _
theorem inject (b : Fin 32) : Statement (.inject b) := of_any _
theorem relay (n : Fin 4096) (output : Bool) : Statement (.relay n output) := of_any _
theorem relayReceive (b : Fin 32) : Statement (.relayReceive b) := of_any _
theorem transferFlitArrival (p : Fin 16) : Statement (.transferFlitArrival p) := of_any _
theorem tailBurstMove (b : Fin 32) (g : Fin 4) : Statement (.tailBurstMove b g) := of_any _
theorem tailTimerMove (b : Fin 32) (g : Fin 4) : Statement (.tailTimerMove b g) := of_any _
theorem egressBlockPlace (b : Fin 32) : Statement (.egressBlockPlace b) := of_any _
theorem deliver (n : Fin 4096) : Statement (.deliver n) := of_any _
theorem xlUnitReceive (p : Fin 16) (dir : Fin 2) (u : XlUnit) : Statement (.xlUnitReceive p dir u) := of_any _
theorem xlAckTimeout (p : Fin 16) (dir : Fin 2) : Statement (.xlAckTimeout p dir) := of_any _
theorem xlTraining (p : Fin 16) : Statement (.xlTraining p) := of_any _
theorem xlTrainTimeout (p : Fin 16) : Statement (.xlTrainTimeout p) := of_any _
theorem ident (p : Fin 16) (x : Ident) (t : BitVec 11) : Statement (.ident p x t) := of_any _
theorem xlRetrain (p : Fin 16) : Statement (.xlRetrain p) := of_any _
theorem xlDown (p : Fin 16) : Statement (.xlDown p) := of_any _
theorem holdNIn (p : Fin 16) (low : Bool) : Statement (.holdNIn p low) := of_any _
theorem advert (p : Fin 16) (priority : BitVec 4) (module : BitVec 4) (dist : Fin 16) : Statement (.advert p priority module dist) := of_any _
theorem domRoute (routes : List (Fin 16 × Fin 16)) (present : BitVec 16) (kids : List (Fin 16)) : Statement (.domRoute routes present kids) := of_any _
theorem timeSet (t : BitVec 64) : Statement (.timeSet t) := of_any _
theorem write (quad : Fin 4) (ch : Fin 32) : Statement (.write quad ch) := of_any _
theorem writeRec (quad : Fin 4) (ch : Fin 32) : Statement (.writeRec quad ch) := of_any _
theorem read (quad : Fin 4) (ch : Fin 32) (errs : List DramErr) : Statement (.read quad ch errs) := of_any _
theorem readRec (quad : Fin 4) (ch : Fin 32) (errs : List DramErr) : Statement (.readRec quad ch errs) := of_any _
theorem xack (e : Fin 13) : Statement (.xack e) := of_any _
theorem xackTimeout (e : Fin 13) : Statement (.xackTimeout e) := of_any _
theorem append (quad : Fin 4) (ch : Fin 32) : Statement (.append quad ch) := of_any _
theorem hcommit (quad : Fin 4) (ch : Fin 32) (errs : List DramErr) : Statement (.hcommit quad ch errs) := of_any _
theorem hdiscard (quad : Fin 4) (ch : Fin 32) : Statement (.hdiscard quad ch) := of_any _
theorem hack (e : Fin 8) : Statement (.hack e) := of_any _
theorem hackTimeout (e : Fin 8) : Statement (.hackTimeout e) := of_any _
theorem hhole (e : Fin 8) : Statement (.hhole e) := of_any _
theorem summarize (quad : Fin 4) (ch : Fin 32) (errs : List DramErr) : Statement (.summarize quad ch errs) := of_any _
theorem scorePages (quad : Fin 4) (ch : Fin 32) (errs : List DramErr) : Statement (.scorePages quad ch errs) := of_any _
theorem scoreTokens (quad : Fin 4) (ch : Fin 32) (errs : List DramErr) : Statement (.scoreTokens quad ch errs) := of_any _
theorem topk (quad : Fin 4) (ch : Fin 32) : Statement (.topk quad ch) := of_any _
theorem gather (quad : Fin 4) (ch : Fin 32) (errs : List DramErr) : Statement (.gather quad ch errs) := of_any _
theorem accum (quad : Fin 4) (ch : Fin 32) (errs : List DramErr) : Statement (.accum quad ch errs) := of_any _
theorem copyLocal (quad : Fin 4) (ch : Fin 32) (errs : List DramErr) : Statement (.copyLocal quad ch errs) := of_any _
theorem nmuTimeout (quad : Fin 4) (ch : Fin 32) : Statement (.nmuTimeout quad ch) := of_any _
theorem hbChModeReq (quad : Fin 4) (ch : Fin 32) (req : Bool) : Statement (.hbChModeReq quad ch req) := of_any _
theorem channelZeroing (quad : Fin 4) (ch : Fin 32) : Statement (.channelZeroing quad ch) := of_any _
theorem bandUpdate (quad : Fin 4) (ch : Fin 32) : Statement (.bandUpdate quad ch) := of_any _
theorem budgetWindow (quad : Fin 4) (ch : Fin 32) : Statement (.budgetWindow quad ch) := of_any _
theorem patrolScrub (quad : Fin 4) (ch : Fin 32) (errs : List DramErr) : Statement (.patrolScrub quad ch errs) := of_any _
theorem bankFence (quad : Fin 4) (ch : Fin 32) (bank : Fin 32) (reason : Fin 3) : Statement (.bankFence quad ch bank reason) := of_any _
theorem channelFail (quad : Fin 4) (ch : Fin 32) : Statement (.channelFail quad ch) := of_any _
theorem bridgeProxyAnswer (p : Fin 16) : Statement (.bridgeProxyAnswer p) := of_any _
theorem doorbellPoll (fn : Fin 32) (pair : BitVec 8) (late : Bool) : Statement (.doorbellPoll fn pair late) := of_any _
theorem doorbellRead (fn : Fin 32) (pair : BitVec 8) (err : Bool) : Statement (.doorbellRead fn pair err) := of_any _
theorem entryFetch (fn : Fin 32) (pair : BitVec 8) (err : Bool) : Statement (.entryFetch fn pair err) := of_any _
theorem entryArrival (fn : Fin 32) (pair : BitVec 8) : Statement (.entryArrival fn pair) := of_any _
theorem completionWrite (fn : Fin 32) (pair : BitVec 8) : Statement (.completionWrite fn pair) := of_any _
theorem msixSend (fn : Fin 32) (vector : BitVec 11) : Statement (.msixSend fn vector) := of_any _
theorem vectorTimeExpiry (fn : Fin 32) (vector : BitVec 11) : Statement (.vectorTimeExpiry fn vector) := of_any _
theorem eventVector (fn : Fin 32) : Statement (.eventVector fn) := of_any _
theorem ringEnable (fn : Fin 32) (pair : BitVec 8) (ctl : BitVec 32) : Statement (.ringEnable fn pair ctl) := of_any _
theorem ringDisable (fn : Fin 32) (pair : BitVec 8) : Statement (.ringDisable fn pair) := of_any _
theorem ringReport (fn : Fin 32) (pair : BitVec 8) : Statement (.ringReport fn pair) := of_any _
theorem pcieFlr (fn : Fin 32) : Statement (.pcieFlr fn) := of_any _
theorem resetSoft (fn : Fin 32) : Statement (.resetSoft fn) := of_any _
theorem fnResetDone (fn : Fin 32) : Statement (.fnResetDone fn) := of_any _
theorem failover (fn : Fin 32) : Statement (.failover fn) := of_any _
theorem linkDownTimeout (port : Fin 2) : Statement (.linkDownTimeout port) := of_any _
theorem admEngOwnerWrite (e : Fin 13) (v : BitVec 32) : Statement (.admEngOwnerWrite e v) := of_any _
theorem admFnCfgWrite (f : Fin 32) (v : BitVec 32) : Statement (.admFnCfgWrite f v) := of_any _
theorem list (e : Fin 13) (j : Nat) (err : Bool) : Statement (.list e j err) := of_any _
theorem fence (e : Fin 13) (j : Nat) : Statement (.fence e j) := of_any _
theorem cntSnap (e : Fin 13) (j : Nat) : Statement (.cntSnap e j) := of_any _
theorem engReset (e : Fin 13) (j : Nat) : Statement (.engReset e j) := of_any _
theorem imageLoad (e : Fin 8) (j : Nat) (err : Bool) : Statement (.imageLoad e j err) := of_any _
theorem imageUnbind (e : Fin 8) (j : Nat) : Statement (.imageUnbind e j) := of_any _
theorem tideBind (e : Fin 8) (j : Nat) : Statement (.tideBind e j) := of_any _
theorem streamOpen (e : Fin 8) (j : Nat) (err : Bool) : Statement (.streamOpen e j err) := of_any _
theorem streamClose (e : Fin 8) (j : Nat) : Statement (.streamClose e j) := of_any _
theorem frameIn (e : Fin 8) (j : Nat) (err : Bool) : Statement (.frameIn e j err) := of_any _
theorem frameOut (e : Fin 8) (j : Nat) : Statement (.frameOut e j) := of_any _
theorem frameComplete (n : Fin 4096) : Statement (.frameComplete n) := of_any _
theorem checkpoint (e : Fin 8) (j : Nat) : Statement (.checkpoint e j) := of_any _
theorem syncWait (e : Fin 8) (j : Nat) : Statement (.syncWait e j) := of_any _
theorem syncWaitTimeout (e : Fin 8) (j : Nat) : Statement (.syncWaitTimeout e j) := of_any _
theorem syncSignalSet (e : Fin 8) (j : Nat) : Statement (.syncSignalSet e j) := of_any _
theorem syncSignalClear (e : Fin 8) (j : Nat) : Statement (.syncSignalClear e j) := of_any _
theorem syncSignalRelease (e : Fin 8) (j : Nat) : Statement (.syncSignalRelease e j) := of_any _
theorem engineSyncAnswer (e : Fin 8) : Statement (.engineSyncAnswer e) := of_any _
theorem audit (e : Fin 8) (j : Nat) : Statement (.audit e j) := of_any _
theorem copy (e : Fin 13) (j : Nat) (err : Bool) : Statement (.copy e j err) := of_any _
theorem weightPin (e : Fin 13) (j : Nat) (err : Bool) : Statement (.weightPin e j err) := of_any _
theorem pinOrder (region : Fin 512) : Statement (.pinOrder region) := of_any _
theorem pinBlockLand (c : CoreRef) : Statement (.pinBlockLand c) := of_any _
theorem regionAssign (j : Nat) : Statement (.regionAssign j) := of_any _
theorem regionRelease (j : Nat) : Statement (.regionRelease j) := of_any _
theorem scrubDone (region : Fin 512) (bad : List (Fin 32 × Fin 17)) : Statement (.scrubDone region bad) := of_any _
theorem hchAssign (j : Nat) : Statement (.hchAssign j) := of_any _
theorem hchRelease (j : Nat) : Statement (.hchRelease j) := of_any _
theorem regRead (j : Nat) : Statement (.regRead j) := of_any _
theorem regWrite (j : Nat) : Statement (.regWrite j) := of_any _
theorem regTimeout (j : Nat) : Statement (.regTimeout j) := of_any _
theorem ttaintReceive (e : Fin 8) : Statement (.ttaintReceive e) := of_any _
theorem strIntPolSet (fn : Fin 32) (v : BitVec 32) : Statement (.strIntPolSet fn v) := of_any _
theorem auditPass (e : Fin 8) : Statement (.auditPass e) := of_any _
theorem refetch (e : Fin 8) : Statement (.refetch e) := of_any _
theorem refetchTimeout (e : Fin 8) : Statement (.refetchTimeout e) := of_any _
theorem hmUpdate (unit : BitVec 32) : Statement (.hmUpdate unit) := of_any _
theorem liveReport (unit : BitVec 32) : Statement (.liveReport unit) := of_any _
theorem selfCheck (unit : BitVec 32) (pass : Bool) : Statement (.selfCheck unit pass) := of_any _
theorem rowSlide (region : Fin 512) (row : Fin 32) (bad : List (Fin 17)) : Statement (.rowSlide region row bad) := of_any _
theorem slideBack (region : Fin 512) (row : Fin 32) (bad : List (Fin 17)) : Statement (.slideBack region row bad) := of_any _
theorem rowRebuild (region : Fin 512) (row : Fin 32) (bad : BitVec 3) : Statement (.rowRebuild region row bad) := of_any _
theorem relocation (e : Fin 8) (confirmed : Bool) (bad : List (BitVec 18 × Fin 3)) : Statement (.relocation e confirmed bad) := of_any _
theorem relocTimeout (e : Fin 8) : Statement (.relocTimeout e) := of_any _
theorem mgmtEscalation (region : Fin 512) : Statement (.mgmtEscalation region) := of_any _
theorem bringupPhase (f : PhaseFinds) : Statement (.bringupPhase f) := of_any _
theorem phaseTimeout (f : PhaseFinds) : Statement (.phaseTimeout f) := of_any _
theorem tieBreakScan (c : CoreRef) (pass : Bool) (run : Fin 8 × Fin 2) : Statement (.tieBreakScan c pass run) := of_any _
theorem ftDue (region : Fin 512) : Statement (.ftDue region) := of_any _
theorem testSlide (region : Fin 512) (bad : List (Fin 17)) : Statement (.testSlide region bad) := of_any _
theorem ftVerdict (c : CoreRef) (fail : Option (Fin 8 × Fin 2 × Bool)) : Statement (.ftVerdict c fail) := of_any _
theorem ftAbandon (region : Fin 512) (bad : List (Fin 17)) : Statement (.ftAbandon region bad) := of_any _
theorem spareTest (region : Fin 512) : Statement (.spareTest region) := of_any _
theorem testStarved (region : Fin 512) (row : Fin 32) : Statement (.testStarved region row) := of_any _
theorem ftGrant (v : BitVec 32) : Statement (.ftGrant v) := of_any _
theorem overdueSuspect (region : Fin 512) : Statement (.overdueSuspect region) := of_any _
theorem ftCtlWrite (v : BitVec 32) : Statement (.ftCtlWrite v) := of_any _
theorem seawallFrame (f : SwFrame) : Statement (.seawallFrame f) := of_any _
theorem frameResend (src : Node) (dst : Node) : Statement (.frameResend src dst) := of_any _
theorem telemetry (src : Node) : Statement (.telemetry src) := of_any _
theorem telemetryTimeout (src : Node) : Statement (.telemetryTimeout src) := of_any _
theorem monitorEscalation (b : Fin 32) : Statement (.monitorEscalation b) := of_any _
theorem healthPersist : Statement (.healthPersist) := of_any _
theorem lhRecovery : Statement (.lhRecovery) := of_any _
theorem epochQuery (node : Node) : Statement (.epochQuery node) := of_any _
theorem eventRecord (unit : BitVec 32) : Statement (.eventRecord unit) := of_any _
theorem eventLost (unit : BitVec 32) : Statement (.eventLost unit) := of_any _
theorem sensorSample (id : BitVec 16) (v : BitVec 32) : Statement (.sensorSample id v) := of_any _
theorem getHealth (m : LhMsg) : Statement (.getHealth m) := of_any _
theorem healthSince (m : LhMsg) : Statement (.healthSince m) := of_any _
theorem getLog (m : LhMsg) : Statement (.getLog m) := of_any _
theorem unitOrderFence (m : LhMsg) : Statement (.unitOrderFence m) := of_any _
theorem unitOrderRelease (m : LhMsg) : Statement (.unitOrderRelease m) := of_any _
theorem unitOrderRetire (m : LhMsg) : Statement (.unitOrderRetire m) := of_any _
theorem unitOrderSuspect (m : LhMsg) : Statement (.unitOrderSuspect m) := of_any _
theorem portOrderBridgeDown (m : LhMsg) : Statement (.portOrderBridgeDown m) := of_any _
theorem portOrderXlDown (m : LhMsg) : Statement (.portOrderXlDown m) := of_any _
theorem portOrderXlRetrain (m : LhMsg) : Statement (.portOrderXlRetrain m) := of_any _
theorem portOrderFailover (m : LhMsg) : Statement (.portOrderFailover m) := of_any _
theorem getSensors (m : LhMsg) : Statement (.getSensors m) := of_any _
theorem getFw (m : LhMsg) : Statement (.getFw m) := of_any _
theorem hbRelay (m : LhMsg) (reply : Option (List (BitVec 8))) : Statement (.hbRelay m reply) := of_any _
theorem lhRestart (m : LhMsg) : Statement (.lhRestart m) := of_any _
theorem lhRestartBringup (m : LhMsg) : Statement (.lhRestartBringup m) := of_any _
theorem hbState (unit : BitVec 32) : Statement (.hbState unit) := of_any _
theorem hbHm (unit : BitVec 32) : Statement (.hbHm unit) := of_any _
theorem hbSensors (quad : Fin 4) : Statement (.hbSensors quad) := of_any _
theorem hbEvent (quad : Fin 4) : Statement (.hbEvent quad) := of_any _
theorem hbReg (write : Bool) (unit off : BitVec 32) (wide : Bool) (value mask : BitVec 64) : Statement (.hbReg write unit off wide value mask) := of_any _
theorem peerNotice (cage : Fin 16) (bytes : List (BitVec 8)) : Statement (.peerNotice cage bytes) := of_any _
theorem getSensorReading (via : Via) (id : BitVec 16) : Statement (.getSensorReading via id) := of_any _
theorem setEventReceiver (via : Via) (eid : BitVec 8) : Statement (.setEventReceiver via eid) := of_any _
theorem mbxGo : Statement (.mbxGo) := of_any _
theorem mbxTimeout : Statement (.mbxTimeout) := of_any _
theorem requestUpdate (via : Via) : Statement (.requestUpdate via) := of_any _
theorem verifyComplete (via : Via) (image : FwImage) : Statement (.verifyComplete via image) := of_any _
theorem activateFirmware (via : Via) (selfContained : Bool) : Statement (.activateFirmware via selfContained) := of_any _
theorem lhBoot (straps : Fin 4) : Statement (.lhBoot straps) := of_any _
theorem trialTimeout : Statement (.trialTimeout) := of_any _
theorem lhWatchdog : Statement (.lhWatchdog) := of_any _
theorem supplyRange : Statement (.supplyRange) := of_any _
theorem lockout : Statement (.lockout) := of_any _
theorem rampWave (bad : List (Fin 32 × Fin 2 × BitVec 32 × BitVec 32)) : Statement (.rampWave bad) := of_any _
theorem rootLockLoss : Statement (.rootLockLoss) := of_any _
theorem referenceStop : Statement (.referenceStop) := of_any _
theorem tlUpdate (region : Fin 512) : Statement (.tlUpdate region) := of_any _
theorem gUpdate : Statement (.gUpdate) := of_any _
theorem regionTrip (region : Fin 512) : Statement (.regionTrip region) := of_any _
theorem bridgeTrip (b : Fin 32) : Statement (.bridgeTrip b) := of_any _
theorem regulatorFault (region : Fin 512) (hot : Option (Fin 2)) : Statement (.regulatorFault region hot) := of_any _
theorem neighbourPgFall (region : Fin 512) (dir : Fin 4) : Statement (.neighbourPgFall region dir) := of_any _
theorem dbgCtlWrite (v : BitVec 32) : Statement (.dbgCtlWrite v) := of_any _
theorem lhPreempt (release : Bool) : Statement (.lhPreempt release) := of_any _
theorem extest (ext : Bool) (tap : Fin 33) : Statement (.extest ext tap) := of_any _
theorem samplePreload (ext : Bool) (tap : Fin 33) (pins data : BitVec 32) : Statement (.samplePreload ext tap pins data) := of_any _
theorem idcode (ext : Bool) (tap : Fin 33) : Statement (.idcode ext tap) := of_any _
theorem ijsel (ext : Bool) (tap : Fin 33) : Statement (.ijsel ext tap) := of_any _
theorem bypass (ext : Bool) (tap : Fin 33) : Statement (.bypass ext tap) := of_any _
theorem regaccRead (ext : Bool) (region : Fin 512) (space : Fin 4) (row col : BitVec 5) (off : BitVec 16) : Statement (.regaccRead ext region space row col off) := of_any _
theorem regaccWrite (ext : Bool) (region : Fin 512) (space : Fin 4) (row col : BitVec 5) (off : BitVec 16) (data : BitVec 64) : Statement (.regaccWrite ext region space row col off data) := of_any _
theorem coreSibOpen (ext : Bool) (region : Fin 512) : Statement (.coreSibOpen ext region) := of_any _
theorem coreSibClose (ext : Bool) (region : Fin 512) : Statement (.coreSibClose ext region) := of_any _
theorem sndSelWrite (k : Fin 8) (v : BitVec 32) : Statement (.sndSelWrite k v) := of_any _
theorem trstN (low : Bool) : Statement (.trstN low) := of_any _
theorem perstN (port : Fin 2) (low : Bool) : Statement (.perstN port low) := of_any _
theorem smbClockLowTimeout : Statement (.smbClockLowTimeout) := of_any _
theorem mctpGapTimeout (via : Via) : Statement (.mctpGapTimeout via) := of_any _
theorem registerWrite (w : HostReg) : Statement (.registerWrite w) := of_any _
theorem hostLinkL0Change (port : Fin 2) (up : Bool) : Statement (.hostLinkL0Change port up) := of_any _
theorem vfEnableClear (port : Fin 2) : Statement (.vfEnableClear port) := of_any _
theorem harbourPowerOn (quad : Fin 4) (bad : List (Fin 32 × Fin 32)) : Statement (.harbourPowerOn quad bad) := of_any _
theorem msixUnmask (fn : Fin 32) (vector : BitVec 11) : Statement (.msixUnmask fn vector) := of_any _
theorem hostReadTimeout (read : HostRead) : Statement (.hostReadTimeout read) := of_any _
theorem inputPowerRemoval : Statement (.inputPowerRemoval) := of_any _
end Sys2Proof.Laws.WellFormedTotal
end

