-- ==== Sys2Proof/Tests/Slice0.lean ====
section
/-! SUPPORT. Tests/Slice0.lean: concrete states and operands that meet the hypotheses of every statement, one theorem per statement,
ill-formed operands refused, and a few results worked out by hand from the rules. -/

namespace Sys2Proof.Tests

open Sys2Proof Sys2Proof.Machine

/- Witnesses are checked one after another: side by side they would ask for more threads than the sandbox gives. -/
set_option Elab.async false

/-! ### Small states -/

/-- The module with its bus and root clock up, and nothing else changed since reset. -/
def live : State := { State.reset with power := { root := true, bus := true } }

def c0 : CoreRef := ⟨0, 0, 0⟩

/-- `live` with core 0/0/0 as given. -/
def with0 (k : Core) : State := setCore live 0 k

/-- `live` with region 0 as given. -/
def withR (r : Region) : State := updRegion live 0 (fun _ => r)

def run0 : Core := { run := .running }

def fr (d a b : BitVec 5) : FmtR := ⟨d, a, b, 0⟩

/-- What a property says of the state in which a command ends. -/
def ends (i : Instr) (s : State) (p : State → Bool) : Bool :=
  match exec i s with
  | .next t => p t
  | _ => false

/-! ### Ill-formed operands are refused; no word spells a command -/

theorem test_legal_word_is_refused_as_illegal : exec (.illegal c0 0x04000001) live = .refused .illFormed := rfl

theorem test_short_peer_notice_is_refused : exec (.peerNotice 0 []) live = .refused .illFormed := rfl

theorem test_illegal_word_is_well_formed : ends (.illegal c0 0) (with0 run0) (fun t => (getCore t 0).fault.code = 1) = true := by decide +kernel

theorem test_no_word_spells_a_command : decodeTableWord 32 0 = none := rfl

theorem test_fetch_word_leaves_the_state : live.withFetchWord 32 0 = live := rfl

theorem test_idle_step_ticks : (match step live with | .next t => decide (t.cclk = 1) | _ => false) = true := by decide +kernel

theorem test_step_takes_the_front_command :
    (match step { live with pending := [.holdNIn 0 true, .alignDrive] } with
      | .next t => decide (t.pending = [.alignDrive] ∧ (getBridge t 0).holdIn = true)
      | _ => false) = true := by decide +kernel

/-! ### Witnesses of the hypotheses, statement by statement -/

/-- A core at word 5 with registers set, in a loop of level 0 whose body ends at word 5. -/
def looping : Core := { run0 with pc := 5, loop0 := some ⟨3, 2, 5⟩ }

theorem test_ScalarAndAddressResults_hypotheses :
    Ready (with0 run0) c0.key [31, 1, 2] ∧ GoesOn (with0 run0) c0.key ∧ (fr 31 1 2).pr = 0
      ∧ Ready (with0 run0) c0.key [7, 3] ∧ (fr 7 3 0).b = 0 ∧ (fr 7 0 2).d.toNat < 8
      ∧ (0x001F#16).toNat = 31 ∧ (0x401F#16).toNat = 0x4000 + 31 ∧ (0x801F#16).toNat = 0x8000 + 31
      ∧ fvIsNaN (f32 (fadd32 0x7F800000 0xFF800000)) = true ∧ fvIsNaN (f32 0x7F800001) = true ∧ fvIsNaN (f32 0x3F800000) = false := by
  unfold Ready GoesOn
  decide +kernel

theorem test_ProgramFlow_hypotheses :
    let s := with0 { run0 with pc := 4000, sreg := [(1, 5), (2, 4095), (3, 4096)] }
    Ready s c0.key [1, 2] ∧ GoesOn s c0.key ∧ sGet (getCore s c0.key) 1 ≠ sGet (getCore s c0.key) 2
      ∧ (sGet (getCore s c0.key) 1).toInt < (sGet (getCore s c0.key) 2).toInt
      ∧ ((getCore s c0.key).pc.setWidth 32 + (95#16).signExtend 32 : Word).toNat = 4095
      ∧ ((getCore s c0.key).pc.setWidth 32 + (96#16).signExtend 32 : Word).toNat = 4096
      ∧ (sGet (getCore s c0.key) 2 + (0#16).signExtend 32).toNat = 4095 ∧ (sGet (getCore s c0.key) 3 + (0#16).signExtend 32).toNat = 4096
      ∧ Ready s c0.key [] ∧ (getCore s c0.key).pc.toNat + 94 ≤ 4094 ∧ (getCore s c0.key).loop1 = none ∧ (getCore s c0.key).loop0 = none
      ∧ looping.loop1 = none ∧ looping.loop0 = some ⟨3, 2, 5⟩ ∧ looping.pc.toNat = 5
      ∧ Ready (with0 looping) c0.key [] ∧ looping.pc.toNat + 0 ≤ 5
      ∧ Ready (with0 { run0 with pc := 4095 }) c0.key [1, 2, 3] ∧ (getCore (with0 { run0 with pc := 4095 }) c0.key).fault.valid = false := by
  unfold Ready GoesOn
  decide +kernel

theorem test_IllegalWordsAndReservedFields_hypotheses :
    Ready (with0 run0) c0.key [] ∧ illegalWord 0 = true ∧ illegalWord 0xFFFFFFFF = true ∧ Ready (with0 run0) c0.key [31, 31, 31]
      ∧ (1#3 ≠ 0) ∧ (0x0020#16).toNat / 32 % 512 ≠ 0 ∧ (0x2000#16).toNat / 32 % 512 ≠ 0 := by
  unfold Ready
  decide +kernel

/-- An M-format operand: register d, address register x, no offset. -/
def fm (d : BitVec 5) (x : BitVec 3) (pm : BitVec 2) : FmtM := { d := d, x := x, pm := pm, off := 0, pr := 0 }

theorem test_ScalarMemoryAccess_hypotheses :
    let s := with0 { run0 with areg := [(1, 0x2FFFC), (2, 0x30000), (3, 0x40000), (4, 1)], psSize := 1, psBase := 0x5F }
    Ready s c0.key [3] ∧ GoesOn s c0.key
      ∧ (∀ x ∈ [(1, 4), (1, 2), (1, 1)], mAddr (getCore s c0.key) (fm 3 (BitVec.ofNat 3 x.1) 0) x.2 % x.2 = 0
          ∧ spadBad (getCore s c0.key) false (mAddr (getCore s c0.key) (fm 3 (BitVec.ofNat 3 x.1) 0) x.2) x.2 = false)
      ∧ spadBad (getCore s c0.key) true 0 4 = false ∧ spadBad (getCore s c0.key) true 0x60000 4 = false
      ∧ spadBad (getCore s c0.key) false 0x30000 1 = true ∧ spadBad (getCore s c0.key) true 0x40000 4 = true
      ∧ mAddr (getCore s c0.key) (fm 3 4 0) 4 % 4 ≠ 0 := by
  unfold Ready GoesOn
  decide +kernel

theorem test_VectorResults_hypotheses :
    Ready (with0 run0) c0.key [] ∧ GoesOn (with0 run0) c0.key ∧ (fr 15 15 15).d.toNat < 16 ∧ Ready (with0 run0) c0.key [31, 31]
      ∧ (fr 7 15 15).d.toNat < 8 ∧ dtype 0 = some .fp32 ∧ (fr 0 0 1).b.toNat < 2
      ∧ fvIsNaN (f32 0x7FC00000) = true ∧ 0x80000000 < (0x80000001#32).toNat ∧ fvLt (.fin false 128 0) (f32 0x43000001) = true
      ∧ fvLt (f32 0xC3160001) (.fin true 150 0) = true ∧ (0x3F800000#32).toNat + 2 < 0x7F800000 := by
  unfold Ready GoesOn
  decide +kernel

theorem test_VectorLoadsAndStores_hypotheses :
    let s := with0 { run0 with areg := [(1, 0x2FF80)] }
    Ready s c0.key [] ∧ GoesOn s c0.key ∧ (fm 15 1 0).d.toNat < 16 ∧ (fm 15 1 0).pm ≠ 3
      ∧ mAddr (getCore s c0.key) (fm 15 1 0) 128 = 0x2FF80 ∧ 0x2FF80 % 128 = 0 ∧ spadBad (getCore s c0.key) false 0x2FF80 128 = false
      ∧ spadBad (getCore s c0.key) true 0x2FF80 128 = false := by
  unfold Ready GoesOn
  decide +kernel

/-- The widest INT8 TMAC: K = 256. -/
def ft : FmtT := { td := 3, ty := 6, xa := 1, xb := 0, kc := 15, z := 0, rsv := 0 }

theorem test_TensorResults_hypotheses :
    let s := with0 { run0 with areg := [(1, 0x2F000)] }
    Ready s c0.key [] ∧ GoesOn s c0.key ∧ ft.rsv = 0 ∧ ft.ty.toNat < 7 ∧ spadBad (getCore s c0.key) false 0x2F000 4096 = false
      ∧ spadBad (getCore s c0.key) false 0 4096 = false ∧ (fr 3 1 7).d.toNat < 4 ∧ (fr 15 3 7).a.toNat < 4
      ∧ dtype ((0#5).setWidth 3) = some .fp32 ∧ 0x2F000 % 1024 = 0 ∧ spadBad (getCore s c0.key) true 0x2F000 1024 = false := by
  unfold Ready GoesOn
  decide +kernel

/-- A C-format operand. -/
def fc (k : BitVec 5) (x : BitVec 3) (n : BitVec 4) (d e : BitVec 5) : FmtC := ⟨k, x, n, d, e⟩

/-- A bound dynamic slot 31 to core 1 of region 0. -/
def sender : Core := { run0 with slots := [(31, { kind := 1, dst := 1 })], areg := [(1, 0x2FFC0), (2, 0x2F800)], sreg := [(1, 65535), (2, 1)] }

/-- A complete message of two flits. -/
def msg2 : Msg := { flits := 2, body := List.replicate 128 7 }

/-- Region 0, owned, with itself in its owner map. -/
def ownR : Region := { owned := true, owner := 3, ownMap := 1 }

theorem test_SlotsSendAndReceive_hypotheses :
    let s := updRegion (with0 sender) 0 (fun _ => ownR)
    let k := getCore s c0.key
    GoesOn s c0.key ∧ (getSlot k 31).kind ≠ 0 ∧ tenantOk s c0.region.val (getSlot k 31).dst (getSlot k 31).module = true
      ∧ (aGet k 1).toNat % 64 = 0 ∧ Ready s c0.key [] ∧ spadBad k false (aGet k 1).toNat 64 = false
      ∧ Ready s c0.key [1] ∧ (sGet k 1).toNat < 65536 ∧ (2#5).getLsbD 0 = false ∧ spadBad k false (aGet k 2).toNat 2048 = false
      ∧ (getSlot (getCore (with0 { sender with slots := [(31, { kind := 1, dst := 1, broken := true })] }) c0.key) 31).broken = true
      ∧ (getSlot (getCore (with0 { sender with slots := [(0, { kind := 2, dst := 0 })] }) c0.key) 0).kind = 2
      ∧ (fc 7 0 0 1 0).k.toNat < 8
      ∧ (let w := with0 { sender with run := .waiting (.recv 3 7 2 1), queues := [(7, [msg2])] }
         clocksRun w = true ∧ (getCore w 0).run = .waiting (.recv 3 7 2 1) ∧ headMsg (getCore w 0) 7 = some msg2
           ∧ msg2.flits ≤ (1#4).toNat + 1 ∧ spadBad (getCore w 0) true (aGet (getCore w 0) 2).toNat 128 = false)
      ∧ (getSlot k 30).static = false ∧ sGet k 2 &&& 0xF8C00000#32 = 0
      ∧ tenantOk s c0.region.val ((sGet k 2).setWidth 18) ((sGet k 2).extractLsb' 18 4) = true := by
  unfold Ready GoesOn
  decide +kernel

/-- A core of engine 2 with landing slot 7 armed. -/
def lander : Core := { sender with landing := [(7, some { tag := 9, addr := 0 })], engine := some 2 }

theorem test_LandingsAndTidesOfACore_hypotheses :
    let s := updEngine (with0 lander) 2 (fun g => { g with tide := { g.tide with active := true } })
    let k := getCore s c0.key
    Ready s c0.key [1] ∧ GoesOn s c0.key ∧ (fc 7 2 0 1 0).k.toNat < 8 ∧ spadBad k true (aGet k 2).toNat 2048 = false
      ∧ (getLanding k 7).any (fun l => l.status.isNone) = true ∧ (getLanding k 6).any (fun l => l.status.isNone) = false
      ∧ (getLanding { k with landing := [(7, some { tag := 9, addr := 0, status := some 2 })] } 7).any (fun l => l.status.isNone) = false
      ∧ spadBad k false (aGet k 2).toNat 2048 = false
      ∧ k.syncOps = [] ∧ k.testMode ≠ .target ∧ k.engine = some 2 ∧ (getEngine s 2).tide.active = true
      ∧ (with0 run0 |> fun s => (getCore s c0.key).engine) = none
      ∧ (let w := with0 { run0 with syncOps := [⟨2, 0, 0, 5, 0, false, false⟩] }
         Ready w c0.key [] ∧ (getCore w 0).syncOps ≠ [])
      ∧ (let w := with0 { run0 with testMode := .target }
         Ready w c0.key [] ∧ (getCore w 0).testMode = .target) := by
  unfold Ready GoesOn
  decide +kernel

theorem test_CountersReadAndWrite_hypotheses :
    let s := with0 { run0 with sreg := [(1, 3), (2, 4), (3, 0xFFFF)] }
    let k := getCore s c0.key
    GoesOn s c0.key ∧ Ready s c0.key [5, 1] ∧ coreCounter (sGet k 1).toNat = true ∧ coreCounter (sGet k 3).toNat = false
      ∧ (sGet k 1).toNat ≤ 3 ∧ 3 < (sGet k 2).toNat ∧ clocksRun s = true ∧ (1#32).getLsbD 0 = true ∧ (2#32).getLsbD 0 = false
      ∧ deadCounter (uCore 0) 0xC3 = true ∧ deadCounter (uCore 0) 0xC4 = false ∧ deadCounter (uCore 0) 0xC6 = true
      ∧ deadCounter (uCore (attachKey 8 0)) 0xC6 = false ∧ deadCounter (uCore (serviceKey 0 true)) 0xC5 = false := by
  unfold Ready GoesOn
  decide +kernel

theorem test_SyncInstructionsSendRequests_hypotheses :
    let s := updRegion (with0 run0) 0 (fun _ => ownR)
    Ready s c0.key [5, 0, 2] ∧ GoesOn s c0.key ∧ syncExc s 0 (sGet (getCore s c0.key) 0) = [] ∧ syncLost s 0 0 = false
      ∧ (let w := updRegion s 0 (fun r => { r with offMap := 1 })
         Ready w c0.key [5, 0, 2] ∧ syncExc w 0 (sGet (getCore w c0.key) 0) = [] ∧ syncLost w 0 0 = true) := by
  unfold Ready GoesOn
  decide +kernel

/-- A tester at 0/0/0 with its east neighbour in TARGET mode, selected. -/
def tester : State :=
  setCore (with0 { run0 with
      testMode := .tester
      testSel := some 0
      sreg := [(1, 4095), (2, 0x2FFC0)] }) 16384 { testMode := .target }

theorem test_TestGroupInstructions_hypotheses :
    let k := getCore tester c0.key
    GoesOn tester c0.key ∧ k.testMode = .tester ∧ Ready tester c0.key [0, 1, 2] ∧ neighbour c0.key ((sGet k 0).toNat + 1) = some 16384
      ∧ (getCore tester 16384).testMode = .target ∧ targetOf tester c0.key = some 16384 ∧ 16384 ≠ c0.key ∧ (sGet k 1).toNat < 4096
      ∧ (aGet k 7).toNat % 64 = 0 ∧ spadBad k false (aGet k 7).toNat 64 = false ∧ (sGet k 2).toNat + 64 ≤ 0x30000
      ∧ k.targetDone = false ∧ (getCore (with0 { k with targetDone := true }) c0.key).targetDone = true
      ∧ (getCore (with0 { run0 with testMode := .target }) c0.key).testMode = .target
      ∧ (getCore (with0 { k with run := .waiting (.target 4) }) c0.key).run = .waiting (.target 4)
      ∧ run0.testMode ≠ .tester ∧ run0.testMode ≠ .target ∧ Ready (with0 run0) c0.key [1] := by
  unfold Ready GoesOn
  decide +kernel

/-- A message from core 0/0/0 to logical core `dst`, at a place. -/
def pkt (loc : Loc) (vc : BitVec 2) (dst : BitVec 18) (payload : Payload) : Packet :=
  { serial := 1, sb := { vc := vc, kind := 1, dstCore := dst, tide := 0 }, flits := 2, loc := loc, payload := payload }

theorem test_RoutersMovePackets_hypotheses :
    let p := pkt (.router 0 4) 1 3 (.msg [])
    let q := pkt (.router 0 4) 1 0x3FFFF (.msg [])
    let m : Packet := { pkt (.router 0 4) 3 0 (.msg []) with sb := { vc := 3, kind := 3 } }
    let s := { live with packets := [p], serial := 2 }
    let w := { updRouter live 0 (fun r => { r with mark := [(1, 2), (2, 2)] }) with packets := [p] }
    clocksRun s = true ∧ headsAt s 0 = [p] ∧ inputAt 0 p = some 4
      ∧ actionOf s 0 p = .hop 1 p.sb false ∧ neighbour 0 1 = some 16384
      ∧ headsAt w 0 = [p] ∧ actionOf w 0 p = .discard ∧ headsAt (dropUnreach 0 p w) 0 = []
      ∧ headsAt { live with packets := [q] } 0 = [q]
      ∧ (let v := { updRouter live 0 (fun r => { r with mcast := [(0, 0x16)] }) with packets := [m], serial := 2 }
         (headsAt v 0).find? (fun p => p.sb.vc = 3 && p.sb.kind = 3) = some m
           ∧ (let out := tget 0 (getRouter v 0).mcast (m.sb.dstCore.toNat % 64)
              out &&& 0x1F = out ∧ out &&& 0x0F ≠ out ∧ ∀ q ∈ v.packets, q.serial < v.serial)) := by
  decide +kernel

theorem test_BlocksAndMessagesEject_hypotheses :
    let p := pkt (.eject 0) 1 0 (.msg [])
    let b := pkt (.eject 0) 2 0 (.block { tag := 9 } [])
    let full : Core := { run0 with queues := [(0, [{ flits := 15 }])] }
    let s := { with0 run0 with packets := [p] }
    let v := { with0 lander with packets := [b] }
    clocksRun s = true ∧ atEject s 0 1 = p :: [] ∧ discards s 0 = false ∧ p.sb.tide = run0.tide ∧ classMismatch run0 p.sb = false
      ∧ queueFlits run0 0 + p.flits ≤ 16 ∧ p.poison = false
      ∧ 16 < queueFlits (getCore { with0 full with packets := [p] } 0) 0 + p.flits
      ∧ p.sb.tide ≠ (getCore { with0 { run0 with tide := 1 } with packets := [p] } 0).tide
      ∧ (atEject v 0 2).find? (fun p => p.purpose = 0 || p.purpose = 5) = some b ∧ (getCore v 0).ingest = none
      ∧ matchSlot (getCore v 0) 9 = some 7 ∧ matchSlot (getCore v 0) 8 = none ∧ b.sb.tide = (getCore v 0).tide
      ∧ b.sb.tide ≠ 0xFFFFFFFF#32
      ∧ (let g : Ingest := { slot := 7, sb := {}, hdr := { tag := 9 }, body := List.replicate 2048 0, written := 31 }
         let w := with0 { lander with ingest := some g }
         (getCore w 0).ingest = some g ∧ getLanding (getCore w 0) 7 = some { tag := 9, addr := 0 } ∧ discards w 0 = false
           ∧ g.dropped = false ∧ g.body.length = 2048 ∧ g.written + 0 < 32 ∧ g.written ≤ 31 ∧ 32 ≤ g.written + (1#6).toNat)
      ∧ (List.range 8).find? (fun q => (getQueue { run0 with queues := [(7, [{ complete := false }])] } q).any (fun m => !m.complete)) = some 7 := by
  decide +kernel

theorem test_WatchdogsFencesAndOfflineRegions_hypotheses :
    let p := pkt (.eject 0) 1 0 (.msg [])
    let s := { live with packets := [p] }
    let d := updRouter live 0 (fun r => { r with mark := [(1, 2)], dead := true, fired := 1 })
    clocksRun s = true ∧ atEject s 0 1 = p :: [] ∧ (getRegion s 0).chwEn = true ∧ (getRouter s 0).fired.getLsbD 0 = false
      ∧ (getRouter d 0).fired.getLsbD 0 = true ∧ (getRouter d 0).dead = true ∧ (getRouter s 0).dead = false
      ∧ hopOf d 0 1 = 2 ∧ neighbour 0 1 = some 16384 ∧ eff d (uHop 0 1) < 2 ∧ eff d (uRouter 16384) < 2
      ∧ eff s (uRouter (coreKey 0 31 16)) < 2
      ∧ (getCore live 0).run = .stopped ∧ (getCore (with0 run0) 0).run ≠ .stopped
      ∧ northBack live 0 = true ∧ northBack (withR { engine := some 0 }) 0 = false
      ∧ quietAround live (serviceKey 0 false) = true ∧ quietBeside live 0 = true
      ∧ mayRejoin (withR { awaitsRejoin := true }) 0 = true ∧ mayRejoin live 0 = false
      ∧ twf Router.init (updRouter live 0 (fun r => { r with mark := [(1, 1)] })).routers = true
      ∧ hopReopens (updRouter live 0 (fun r => { r with mark := [(1, 1)] })) 0 0 1 = true
      ∧ usable live (uRouter (serviceKey 0 false)) = true ∧ (getRegion (withR { awaitsRejoin := true }) 0).awaitsRejoin = true
      ∧ regionOffline (withR { awaitsRejoin := true }) 0 = false
      ∧ crossed live (fun x => x = 0) 0 { kind := 1, dst := 3 } = true := by
  decide +kernel

/-- Region 0 with one object of a kind. -/
def homeR (o : SyncObj) : Region := { ownR with sync := [(0, o)] }

/-- A request on object 0 from core 5. -/
def asking (r : Region) (op : BitVec 8) (x : Word) : State := { withR r with ctl := [.syncReq 0 op 0 x 5 0 0 3] }

theorem test_LocksAtTheirHome_hypotheses :
    let lock : SyncObj := { kind := 1 }
    let taken : SyncObj := { kind := 1, held := true, holder := 5, holderValid := true }
    let other : SyncObj := { kind := 1, held := true, holder := 6, holderValid := true }
    let s := asking (homeR lock) 1 0
    clocksRun s = true ∧ (0#17).toNat / 8192 = ownModule s ∧ (getRegion s 0).owned = true ∧ (getRegion s 0).owner = 3
      ∧ (getObj s 0 0).kind = 1 ∧ s.ctl = .syncReq 0 1 0 0 5 0 0 3 :: [] ∧ (getObj s 0 0).held = false ∧ waitersOf s 0 0 = []
      ∧ (getObj (asking (homeR other) 1 0) 0 0).held = true ∧ (getObj (asking (homeR other) 2 0) 0 0).holder ≠ 5
      ∧ (getRegion (asking (homeR other) 1 0) 0).waiters.length < 1024
      ∧ (getObj (asking (homeR taken) 3 0) 0 0).holder = 5 ∧ waitersOf (asking (homeR taken) 3 0) 0 0 = []
      ∧ (getRegion (asking { homeR lock with owner := 4 } 1 0) 0).owner ≠ 3 ∧ (getRegion (asking {} 1 0) 0).owned = false
      ∧ (let w := { withR (homeR taken) with ctl := [.forfeitCore 0 5 0] }
         w.ctl = .forfeitCore 0 5 0 :: [] ∧ (getObj w 0 0).held = true ∧ (getObj w 0 0).holder = 5 ∧ (getObj w 0 0).holderMod = 0)
      ∧ (let w := { withR (homeR taken) with ctl := [.grantReturn 0 0 5 0 false] }
         w.ctl = .grantReturn 0 0 5 0 false :: [] ∧ (getObj w 0 0).kind = 1 ∧ (getObj w 0 0).held = true) := by
  decide +kernel

/-- Core 0/0/0 waiting for the answer to one operation, and its answer. -/
def answered (o : SyncOp) (r : BitVec 8) (run : Run) : State :=
  { with0 { run := run, syncOps := [o] } with ctl := [.syncAns 0 o.obj o.op r] }

theorem test_SemaphoresBarriersEventsAnswers_hypotheses :
    let sem (n : BitVec 16) : SyncObj := { kind := 2, count := n }
    let bar (n : BitVec 16) : SyncObj := { kind := 3, init := 2, count := n }
    let ev : SyncObj := { kind := 4 }
    let o : SyncOp := ⟨1, 0, 0, 5, 0, true, false⟩
    let s := asking (homeR (sem 1)) 1 0
    clocksRun s = true ∧ (getRegion s 0).owned = true ∧ (getObj s 0 0).kind = 2 ∧ waitersOf s 0 0 = [] ∧ 1 ≤ (getObj s 0 0).count.toNat
      ∧ (getObj s 0 0).table.length < 16
      ∧ (getObj (asking (homeR (sem 65534)) 3 1) 0 0).count.toNat + (1#32).toNat ≤ 65535
      ∧ (getObj (asking (homeR (bar 0)) 4 0) 0 0).count.toNat + 1 < (getObj (asking (homeR (bar 0)) 4 0) 0 0).init.toNat
      ∧ (getObj (asking (homeR (bar 1)) 4 0) 0 0).init.toNat ≤ (getObj (asking (homeR (bar 1)) 4 0) 0 0).count.toNat + 1
      ∧ waitersOf (asking (homeR (bar 1)) 4 0) 0 0 = []
      ∧ (getObj (asking (homeR ev) 5 0) 0 0).kind = 4
      ∧ (getObj (asking (homeR {}) 0x3F 0) 0 0).kind = 0 ∧ (0x3F#8).toNat < 0x40
      ∧ (answered o 0 (.waiting .sync)).ctl = .syncAns 0 o.obj o.op 0 :: [] ∧ carrier (answered o 0 (.waiting .sync)) 0 = c0.key
      ∧ excluded (answered o 0 (.waiting .sync)) 0 = false ∧ (getCore (answered o 4 (.waiting .sync)) 0).syncOps = [o]
      ∧ (getCore (answered { o with waits := false } 4 .running) 0).run = .running
      ∧ (getCore (answered { o with full := true } 5 (.waiting .sync)) 0).syncOps = [{ o with full := true }]
      ∧ excluded (updHealth (answered o 0 (.waiting .sync)) 0 (fun h => { h with map := 2 })) 0 = true := by
  decide +kernel

/-! ### Tides, shore and Xeulend -/

/-- An image of one stage, region 0. -/
def img : Image := { stage := [0], shores := [{ core := 0, bridge := 0, egress := false, endpoint := 4 }, { core := 0, bridge := 0, egress := true, endpoint := 5 }] }

/-- The same with region 1 as its reserve. -/
def imageRes : Image := { img with reserve := [1] }

/-- Engine 2 BOUND to region 0 with a tide 7 that runs. -/
def eng2 : Engine := { state := 2, image := some img, tide := { num := 7, active := true } }

/-- Region 0 bound to engine 2, with core 0/0/0 as given. -/
def bound (k : Core) (g : Engine) : State :=
  updEngine (updRegion (with0 k) 0 (fun _ => { ownR with engine := some 2 })) 2 (fun _ => g)

def member : Core := { engine := some 2, hasProgram := true, psSize := 1 }

theorem test_RegionsActOnTheirTideCommand_hypotheses :
    let s := bound member eng2
    let r := getRegion s 0
    clocksRun s = true ∧ awaits s 0 2 7 = true ∧ twf Core.init s.cores = true ∧ r.engine = some 2 ∧ regionOffline s 0 = false
      ∧ regionCoresOf s 0 2 ≠ [] ∧ (getCore s 0).psSize ≠ 0 ∧ excluded s 0 = false
      ∧ (r.withheld ||| rowsOf s 0 2 (fun _ k => k.fencedTide || k.underTest) ||| r.rebuilding).getLsbD 0 = false
      ∧ ({ s with ctl := [.withhold 0 2 7 1] } : State).ctl = .withhold 0 2 7 1 :: []
      ∧ (let w := updRegion s 0 (fun r => { r with withheld := 1 })
         ((getRegion w 0).withheld ||| rowsOf w 0 2 (fun _ k => k.fencedTide || k.underTest) ||| (getRegion w 0).rebuilding).getLsbD 0 = true
           ∧ awaits w 0 2 7 = true) := by
  decide +kernel

theorem test_TidesStartAndAreJudged_hypotheses :
    let idle : Engine := { state := 2, image := some img }
    let s := bound member idle
    let v := bound { member with tended := true } eng2
    tidesRun (getEngine live 0) = false ∧ (getEngine live 0).tide.active = false
      ∧ tidesRun (getEngine s 2) = true ∧ (getEngine s 2).tide.active = false ∧ (getEngine s 2).unbinding = false ∧ s.dom.step = none
      ∧ 0 ∈ stageOf s 2 ∧ (getRegion s 0).joinedAt ≤ s.cclk ∧ 0 ∈ regionCoresOf s 0 2 ∧ excluded s 0 = false
      ∧ (getCore s 0).underTest = false ∧ (getCore s 0).hasProgram = true ∧ (getRegion s 0).rebuilding.getLsbD 0 = false
      ∧ (getEngine v 2).tide.active = true ∧ (getRegion v 0).tdoneSent = false ∧ stageRuns v 2 0 = true ∧ allTended v 0 2 = true
      ∧ allTended (bound member eng2) 0 2 = false
      ∧ (getEngine v 2).tide.judged = none ∧ tcycle v ≤ deadlineAt (getEngine v 2) ∧ (getEngine v 2).tide.num = 7
      ∧ ¬ ((getEngine v 2).tide.num = 8)
      ∧ (getEngine v 2).tide.guard = false
      ∧ (getEngine (bound member { eng2 with tide := { eng2.tide with judged := some false } }) 2).tide.judged = some false
      ∧ taintHalts (bound member { eng2 with tide := { eng2.tide with judged := some true } }) 2 = false := by
  decide +kernel

/-- A mirror holder at column 1 with its mirror bank 11. -/
def holder : Core := { part := 0x800000, mirrorValid := true, mirrorTide := 6 }

theorem test_MirrorsCheckpointsAndRestores_hypotheses :
    let b : Packet := { pkt (.eject 0) 2 0 (.block {} []) with purpose := 1 }
    let s := { with0 { holder with mirrorGot := some ([], 1) } with packets := [b] }
    let ck : Ckpt := { tide := 6, slot := 1 }
    let w := bound member { eng2 with ckpt := some ck }
    let v := setCore (bound member { eng2 with tide := { eng2.tide with guard := true } }) 16384 holder
    clocksRun s = true ∧ (atEject s 0 2).find? (fun p => p.purpose = 1) = some b ∧ (getCore s 0).mirrorGot = some ([], 1)
      ∧ mirrorBank (getCore s 0) = some 11 ∧ excluded s 0 = false ∧ crc32c [] = 0 ∧ ([] : List Nat).contains 0 = false ∧ 1 = ([] : List Nat).length + 1
      ∧ (getEngine w 2).ckpt = some ck ∧ ck.failed = false ∧ (getEngine w 2).tide.active = true ∧ (getEngine w 2).tide.num ≠ ck.tide
      ∧ ck.copied = false
      ∧ ckptReqs (getEngine (bound member { eng2 with ckpt := some { ck with copied := true, header := true } }) 2) = []
      ∧ (getCore v 0).engine = some 2 ∧ logicalId v 0 = some 0 ∧ restorable v 0 2 = true ∧ (getCore v 0).psSize ≠ 0
      ∧ mirrorHolder v 0 = some 16384 ∧ excluded v 16384 = false ∧ (getCore v 16384).mirrorValid = true
      ∧ (0#3).getLsbD 0 = false := by
  decide +kernel

/-- An aligned follower at port 4. -/
def follower : State := { live with dom := { en := true, size := 1, dstate := 2, parentPort := 4 } }

theorem test_AlignmentCorrectsTheTimebase_hypotheses :
    let e (tr : BitVec 64) : Int := (tr.toNat : Int) - alignD follower 4 - nearestGrid ((tr.toNat : Int) - alignD follower 4)
    clocksRun follower = true ∧ (live.ports.filter (fun e => e.2.child)) = []
      ∧ live.tid.toNat % 61440 = 0 ∧ (0, ({ child := true } : Port)) ∈ (updPort live 0 (fun q => { q with child := true })).ports
      ∧ follower.dom.en = true ∧ follower.dom.joinT = none ∧ follower.dom.dstate = 2
      ∧ e (61440 + 2049) = 2049 ∧ e (61440 + 25) = 25 ∧ e (61440 + 2048) = 2048 ∧ e (61440 + 24) = 24 ∧ e 61439 = -1 ∧ e 61440 = 0
      ∧ live.dom.en = false ∧ ({ follower with dom := { follower.dom with misses := 7 } } : State).dom.misses + 1 = 8
      ∧ ({ follower with dom := { follower.dom with misses := 399, dstate := 4 } } : State).dom.misses + 1 = 400
      ∧ follower.dom.misses + 1 ≠ 8 := by
  decide +kernel

/-- `live` with bridge 0 as given. -/
def withB (r : Bridge) : State := updBridge live 0 (fun _ => r)

def frame1 : ShiFrame := { good := true, typ := 1, seq := 5, ackv := false, ackseq := 0, nak := false, crVc := 0, crLane := 0, crCount := 0 }

theorem test_ShoreLinksReplayAndFail_hypotheses :
    let p := pkt (.bridge 0) 1 0 (.msg [])
    let r : Bridge := { shiState := 4, rx := [(1, { expect := 5 })], tx := [(1, { retry := [(5, some (1, 1, true))], next := 6 })] }
    let s := { withB r with packets := [p] }
    let cut := updHealth (withB r) (uRouter (attachKey 0 2)) (fun h => { h with map := 2 })
    clocksRun s = true ∧ (getBridge live 0).shiState ≠ 4 ∧ (getBridge s 0).shiState = 4 ∧ ({ frame1 with good := false }).good = false
      ∧ frame1.good = true ∧ frame1.typ = 1 ∧ frame1.seq.toNat = (getRx (getBridge s 0) (linkKey 0 1)).expect
      ∧ ({ frame1 with seq := 6 }).seq.toNat ≠ (getRx (getBridge s 0) (linkKey 0 1)).expect
      ∧ 64 ≤ (frame1.seq.toNat + 128 - (getTx (getBridge s 0) (linkKey 0 1)).next % 128) % 128
      ∧ (getTx (getBridge s 0) (linkKey 0 1)).retry.find? (fun e => e.1 = frame1.seq.toNat) = some (frame1.seq.toNat, some (p.serial, p.flits - 1, true))
      ∧ s.packets.find? (fun q => q.serial = p.serial) = some p ∧ (getTx (getBridge s 0) (linkKey 0 1)).fails < 7
      ∧ 7 ≤ (getTx (getBridge (withB { shiState := 4, tx := [(1, { retry := [(0, none)], fails := 7 })] }) 0) 1).fails
      ∧ (getTx (getBridge (withB { shiState := 4 }) 0) 0).retry = []
      ∧ (getBridge live 0).shiState.toNat ≤ 3 ∧ (getBridge (withB { shiState := 3 }) 0).shiState.toNat ≤ 3
      ∧ (getBridge (withB { shiState := 2 }) 0).shiState = 2 ∧ 1 ≤ (getBridge (withB { shiState := 1 }) 0).shiState.toNat
      ∧ (getBridge (withB { shiState := 5 }) 0).shiState = 5 ∧ (getBridge (withB { shiState := 5 }) 0).downDone = false
      ∧ slotBridge (withPort 0 (with0 sender)) 0 { kind := 2, dst := 0 } = some 0
      ∧ usable live (uRouter (attachKey 0 2)) = true ∧ usable cut (uRouter (attachKey 0 2)) = false
      ∧ ((getBridge cut 0).grpOut ||| (getBridge cut 0).grpDue).getLsbD 2 = false := by
  decide +kernel

/-- A stream of engine 2 from endpoint 4 to endpoint 5, function 0, of one part a period. -/
def stream0 : Stream :=
  { engine := 2, fn := 0, inEng := 2, outEng := 2, map := [], audio := List.replicate 0x18 0 ++ [4, 0, 0, 0, 5, 0, 0, 0] ++ List.replicate 32 0 }

/-- Core 0/0/0 of engine 2, its engine, and stream 9 as given. -/
def streaming (x : Stream) : State := setStream (bound member eng2) 9 (some x)

theorem test_ShoreCarriesStreams_hypotheses :
    let w : PackWord := { stream := 9, bytes := [1, 2], valid := 2, last := true }
    let s := updBridge (streaming stream0) 0 (fun r => { r with pack := [w] })
    let f : Frame := { ticket := ⟨0, 0, 0, true, 0, 0, false⟩, outAddr := 0, outCap := 0, input := some [], ready := false }
    let v := streaming { stream0 with queue := [f] }
    let p : Packet := { pkt (.arrived 0) 2 0 (.block {} [0, 0, 4, 0]) with purpose := 6 }
    let q := pkt (.wm 0) 2 0 (.msg [])
    let body : List Byte := [5, 0, 0, 0, 0, 0, 0, 0, 2]
    let g : Packet := { pkt (.arrived 0) 2 0x3FC05 (.block { tide := 7, check := crc32c body } body) with srcCore := 0 }
    clocksRun s = true ∧ condStreams s 0 = [] ∧ (getBridge s 0).pack = [w] ∧ w.last = true ∧ getStream s 9 = some stream0
      ∧ (shoreOf s stream0.inEng (audioField stream0 0x18 2) false).isSome = true
      ∧ (getStream v 9).bind relayFrame = some 0 ∧ (getStream v 9).bind (condBridge v) = some 0
      ∧ (let u := { streaming { stream0 with queue := [{ f with relayed := true }] } with packets := [p] }
         u.packets.find? (fun p => p.loc = .arrived 0 && p.purpose = 6) = some p
           ∧ relayStream u 0 4 0 = some (9, false))
      ∧ (let u := { live with packets := [q] }
         u.packets.find? (fun x => x.loc = .wm 0 && decide (tget 0 (getBridge u 0).moved x.serial < x.flits)) = some q
           ∧ (getBridge u 0).wmCount < 1024 ∧ tget 0 (getBridge u 0).moved q.serial + 1 ≠ q.flits)
      ∧ 1024 ≤ (getBridge (withB { wmCount := 1024 }) 0).wmCount
      ∧ (getBridge (withB { tailBurst := 2, tail := [(0, [1, 1])] }) 0).tailBurst.toNat ≤ (tget [] (getBridge (withB { tailBurst := 2, tail := [(0, [1, 1])] }) 0).tail 0).length
      ∧ 0 < (tget [] (getBridge (withB { tail := [(0, [1])] }) 0).tail 0).length
      ∧ (let u := updBridge { streaming stream0 with packets := [g] } 0 (fun r => { r with moved := [(1, 33)] })
         wholeEgress u 0 = some g ∧ sourceEngine u g = some 2 ∧ egressTide u 2 = some 7 ∧ egressStream u 2 (field body 0 2) (field body 2 2) = some 9
           ∧ field body 0 2 = g.sb.dstCore.toNat - 0x3FC00 ∧ field body 8 1 = audioField stream0 0x11 1 + 2
           ∧ halfCount (getBridge u 0) 7 < 1024)
      ∧ (let u := setStream (bound member { eng2 with tide := { eng2.tide with judged := some true } }) 9 (some { stream0 with running := true, tide := 7 })
         (getStream u 9).map (bothJudged u) = some true ∧ (getStream u 9).map (·.running) = some true ∧ (getStream u 9).map (·.delivered) = some false)
      ∧ (getStream (streaming { stream0 with delivered := true, taken := some f }) 9).map
          (outRelayDue (updBridge (streaming stream0) 0 (fun r => { r with shiState := 5 }))) = some false := by
  decide +kernel

/-- `live` with Xeulend port 0 as given and its bridge ACTIVE. -/
def withP (q : Port) : State := updPort (withB { shiState := 4 }) 0 (fun _ => q)

def unit0 : XlUnit :=
  { fec := 0, hcrc := true, typ := 3, seq := 4095, vc := 0, credits := 0, ackv := false, ackseq := 0, nak := false, peer := none }

def ident1 : Ident := { kind := 1, part := 0x5B00, major := 1, serial := 9, port := 0, domain := 0, module := 1, size := 1, priority := 3 }

theorem test_XeulendPortsTrainReplayAndFail_hypotheses :
    let s := withP { pstate := 5, partner := 1, domainOk := true, rx := [(1, { expect := 4095 })], tx := [(0, { retry := [(0, none)] })] }
    let d := { withP { pstate := 4 } with dom := { en := true, size := 1 } }
    let h : Ident := { ident1 with kind := 2, port := 3 }
    clocksRun s = true ∧ (getPort live 0).pstate ≠ 5 ∧ (getPort s 0).pstate = 5 ∧ (getPort s 0).refused = false
      ∧ (getPort (withP { pstate := 5, refused := true }) 0).refused = true ∧ ({ unit0 with fec := 2 }).fec = 2
      ∧ unit0.seq.toNat = (getXrx (getPort s 0) 1).expect ∧ (getPort s 0).partner = 1 ∧ (getPort s 0).domainOk = true
      ∧ (getXtx (getPort s 0) 0).retry ≠ [] ∧ (getXtx (getPort s 0) 1).retry = [] ∧ (getXtx (getPort s 0) 0).fails < 7
      ∧ 7 ≤ (getXtx (getPort (withP { pstate := 5, tx := [(0, { retry := [(0, none)], fails := 7 })] }) 0) 0).fails
      ∧ (getBridge live 0).shiState ≠ 4 ∧ (getBridge s (portBridge 0)).shiState = 4
      ∧ (getPort (withP { pstate := 3 }) 0).pstate.toNat < 4 ∧ (getPort (withP { pstate := 4, partner := 1 }) 0).partner ≠ 0
      ∧ 2 ≤ (getPort (withP { pstate := 2 }) 0).pstate.toNat ∧ (getPort (withP { pstate := 4 }) 0).pstate.toNat ≤ 4
      ∧ miswired d 0 h = true ∧ miswired d 0 ident1 = false ∧ sameDomain d ident1 = true ∧ moduleTaken d 0 ident1 = false
      ∧ moduleTaken d 0 { ident1 with module := 0 } = true
      ∧ (getPort (withP { pstate := 6 }) 0).pstate = 6 ∧ (getPort (withP { pstate := 6 }) 0).stayDown = false
      ∧ usable (withP { pstate := 6 }) (uPort 0) = true ∧ (getPort (withP { pstate := 6 }) 0).downDone = false
      ∧ slotPort (withPort 0 live) { kind := 2, dst := 0 } = some 0 := by
  decide +kernel

theorem test_TideDomainsElectAndRoute_hypotheses :
    let dom : Domain := { en := true, size := 1, dstate := 2 }
    let s := { withP { pstate := 5, domainOk := true, partner := 1 } with dom := dom }
    clocksRun s = true ∧ live.dom.en = false ∧ s.dom.en = true ∧ (getPort s 0).domainOk = true ∧ (getPort s 0).pstate = 5
      ∧ noBoundary s = true ∧ noBoundary (bound member eng2) = false ∧ s.dom.dstate ≠ 5
      ∧ ({ s with dom := { dom with dstate := 1 } } : State).dom.dstate = 1 ∧ s.streams = [] ∧ (streaming stream0).streams ≠ [] := by
  decide +kernel

/-! ### Harbours, rings and vectors -/

/-- A transfer head of Harbour 0, channel 0, bank 0 and offset 0. -/
def head (op : Byte) (n : Half) : XferHead := { op := op, count := n }

/-- Channel 0 of Harbour 0 owned by function 0 in a mode, with one packet of VC2 or VC1 at the far end of port 0. -/
def harbour (proc : Bool) (p : Packet) : State :=
  { live with hchans := [(0, { owned := true, mode := proc })], packets := [p], serial := 2 }

def farPkt (vc : BitVec 2) (payload : Payload) : Packet := pkt (.far 0) vc 0 payload

theorem test_HarbourAnswersTransferPackets_hypotheses :
    let ok (op : Byte) (n : Half) (max size : Nat) : Bool :=
      let p := farPkt 2 (.xfer (head op n) [])
      let s := harbour false p
      decide (nextAt s 0 0 2 = some p) && !chanDead s 0 0 && decide (chanCodes s 0 0 p false = [])
        && usable s (uBank 0 0 (haBank (head op n).haddr)) && xferOk 0 (head op n) max size && decide (p.serial < s.serial)
    let p := farPkt 2 (.xfer (head 1 33) [])
    ok 1 32 32 2048 = true ∧ ok 2 1 1 2112 = true ∧ ok 3 1 32 64 = true ∧ ok 4 1 1024 2112 = true
      ∧ haByte (head 3 1).haddr ≤ 8 * (0#32).toNat ∧ 8 * (7#32).toNat + 8 ≤ haByte (head 3 1).haddr + 64 * (1#16).toNat
      ∧ xferOk 0 (head 1 33) 32 (64 * 33) = false ∧ chanCodes (harbour true p) 0 0 p false ≠ []
      ∧ chanDead (updHealth (harbour false p) (uChannel 0 0) (fun h => { h with live := 2 })) 0 0 = true
      ∧ usable (updHealth (harbour false p) (uBank 0 0 0) (fun h => { h with live := 2 })) (uBank 0 0 0) = false := by
  decide +kernel

/-- An APPEND block of one token of a plane of 64 elements of one byte, in channel 0. -/
def appendBody : List Byte := padTo 2048 ([1, 0, 1, 0] ++ leBytes 4 0 ++ leBytes 4 1 ++ leBytes 4 0 ++ leBytes 2 1)

theorem test_AppendBlocksPutTokenRows_hypotheses :
    let p (staged : Bool) := farPkt 2 (.block { staged := staged, tide := 7 } appendBody)
    let s := harbour true (p false)
    let v := { harbour true (p true) with harbours := [(0, { rgnEng := [(0, some 2)] })] }
    nextAt s 0 0 2 = some (p false) ∧ appendBody.length = 2048 ∧ chanDead s 0 0 = false ∧ chanCodes s 0 0 (p false) true = []
      ∧ appendOk 0 appendBody = true ∧ usable s (uBank 0 0 (appendBank appendBody)) = true
      ∧ chanCodes (harbour false (p false)) 0 0 (p false) true ≠ []
      ∧ nextAt v 0 0 2 = some (p true) ∧ tget none (getHarbour v 0).rgnEng 0 = some 2 ∧ tget none (getHarbour s 0).rgnEng 0 = none
      ∧ (getChan v 0).staging.length < 1024 ∧ tget none (getChan v 0).ordered 2 ≠ some 7
      ∧ tget none (getChan { v with hchans := [(0, { owned := true, mode := true, ordered := [(2, some 7)] })] } 0).ordered 2 = some 7
      ∧ appendOk 0 (padTo 2048 [2]) = false := by
  decide +kernel

theorem test_AppendBlocksPutTokenRows_check : ∃ h : BlkHdr, crc32c appendBody = h.check := ⟨{ check := crc32c appendBody }, rfl⟩

theorem test_TideOrdersCommitOrDiscard_hypotheses :
    let x : StagedBlk := { eng := 2, tide := 7, core := 0, body := appendBody }
    let s := { live with hchans := [(0, { owned := true, mode := true, staging := [x] })], ctl := [.order true 2 0 7 []] }
    let v := updEngine live 2 (fun g => { g with orders := [{ target := 0, tide := 7, sentUs := 0 }] })
    chanDead s 0 0 = false ∧ (getChan s 0).staging.filter (fun x => decide (x.eng = 2)) = [x] ∧ hbTarget 0 0 = 0
      ∧ s.ctl = .order true 2 (hbTarget 0 0) 7 [] :: []
      ∧ x.tide = 7 ∧ x.tide ≠ 8 ∧ ([] : List (Nat × Nat)).contains (x.core.toNat / 512, x.core.toNat / 16 % 32) = false
      ∧ [(0, 0)].contains (x.core.toNat / 512, x.core.toNat / 16 % 32) = true
      ∧ usable s (uBank 0 0 (appendBank x.body)) = true ∧ appendOk 0 x.body = true ∧ x.body.length = 2048
      ∧ (let y := padTo 2048 ([1, 0, 1, 0] ++ leBytes 4 0 ++ leBytes 4 1 ++ leBytes 4 63 ++ leBytes 2 1)
         appendOk 0 y = true ∧ field y 0x0C 4 % 64 + field y 2 1 = 64)
      ∧ clocksRun v = true ∧ (getEngine v 2).orders = { target := 0, tide := 7, sentUs := 0 } :: [] ∧ (getEngine live 2).orders = []
      ∧ mapMeets v stream0 (rowTable [(0, 0)]) = mapMeets v stream0 (rowTable [(0, 0)]) := by
  decide +kernel

/-- A request of an operation on bank 0 of a plane of 64 elements of one byte, list 0, K, and COUNT entries. -/
def reqBody (op flags k n : Nat) (args rest : List Byte) : List Byte :=
  padTo 64 ([BitVec.ofNat 8 op, BitVec.ofNat 8 flags, BitVec.ofNat 8 k, 0] ++ leBytes 4 1 ++ leBytes 4 0 ++ leBytes 2 5 ++ [0, BitVec.ofNat 8 n]
    ++ leBytes 4 0 ++ leBytes 4 1 ++ leBytes 4 128 ++ leBytes 2 4 ++ leBytes 2 0 ++ args) ++ rest

/-- The request stands for its row, and nothing refuses it. -/
def nmuRuns (op : Nat) (b : List Byte) : Bool :=
  let p := farPkt 1 (.msg b)
  let s := harbour true p
  decide (takeReq s 0 0 (fun o => o = op) = some (p, parseReq p b, b)) && !chanDead s 0 0
    && decide (chanCodes s 0 0 p true ++ reqCodes s 0 0 (parseReq p b) b = []) && !nmuStalled s 0 0

theorem test_NearMemoryUnitsAnswerRequests_hypotheses :
    let e : List Byte := leBytes 4 1 ++ leBytes 4 0
    let b := reqBody 5 0 0 1 [] e
    let p := farPkt 1 (.msg b)
    let t := farPkt 2 (.xfer (head 1 1) [])
    nmuRuns 1 (reqBody 1 0 0 1 [] (leBytes 4 0)) = true ∧ nmuRuns 2 (reqBody 2 0 0 0 [] (List.replicate 256 0)) = true
      ∧ nmuRuns 3 (reqBody 3 0 0 1 [] (List.replicate 256 0 ++ leBytes 4 0)) = true ∧ nmuRuns 4 (reqBody 4 0 64 0 [] []) = true
      ∧ nmuRuns 5 (reqBody 5 0 0 1 [] e) = true ∧ nmuRuns 5 (reqBody 5 4 0 1 [] e) = true ∧ nmuRuns 6 (reqBody 6 0 0 1 [] e) = true
      ∧ nmuRuns 7 (reqBody 7 0 0 0 (leBytes 4 64 ++ leBytes 4 0 ++ leBytes 4 64) []) = true
      ∧ lostMask (harbour true p) 0 0 (parseReq p b) = 0 ∧ named (harbour true p) 0 0 (parseReq p b) ≠ []
      ∧ (named (harbour true p) 0 0 (parseReq p b)).length * (parseReq p b).plane.row ≤ 1984
      ∧ (ListSlot.init.tide ≠ (parseReq p b).tide) ∧ chanCodes (harbour false p) 0 0 p true ≠ []
      ∧ takeReq (harbour true t) 0 0 (fun _ => true) = none ∧ nextAt (harbour true t) 0 0 2 = some t
      ∧ nmuStalled { harbour true p with hchans := [(0, { owned := true, mode := true, stalled := true })] } 0 0 = true := by
  decide +kernel

theorem test_HarbourModesBandsAndLoss_hypotheses :
    let ch (c : HChan) : State := { live with hchans := [(0, c)] }
    let hot (v : Word) : State := { live with sensors := [(sensorId 9 0, { vals := [v] })] }
    let x := { pkt (.xl 0) 2 0 (.xfer (head 1 1) []) with sb := { vc := 2, kind := 2, dstCore := 0 } }
    let y := { x with payload := .msg [] }
    modeRefused live 0 = false ∧ modeRefused (ch { zeroing := true }) 0 = true ∧ (getChan (ch { zeroing := true }) 0).zeroing = true
      ∧ sensed live (sensorId 9 0) = none ∧ above (hot 0x42D40000) (sensorId 9 0) 1050 = true ∧ above (hot 0x42D20000) (sensorId 9 0) 1050 = false
      ∧ above (hot 0x42D20000) (sensorId 9 0) 950 = true ∧ atMost (hot 0x42A40000) (sensorId 9 0) 820 = true
      ∧ above (hot 0x42A40000) (sensorId 9 0) 850 = false
      ∧ (getChan (ch { stalled := true }) 0).stalled = true ∧ (getChan (ch { mode := true }) 0).mode = true ∧ (getChan live 0).mode = false
      ∧ usable live (uBank 0 0 31) = true ∧ ¬((2 : Fin 3) = 0 ∧ 0 < 4)
      ∧ proxyPacket { live with packets := [x] } 0 = some x ∧ proxyPacket { live with packets := [y] } 0 = some y
      ∧ proxyPacket live 0 = none ∧ 0 / 16384 = 0 := by
  decide +kernel

/-- Pair 0 of function 0: 64 slots, vector 1, engine 2, enabled. -/
def pair0 : Pair := { cr := 0x1001, sr := 0x2000, db := 0x3000, ctl := 0x5 ||| (6 <<< 5) ||| (1 <<< 10) }

/-- Port HA in L0 and READY, engine 2 owned by function 0, pair 0 as given. -/
def host (p : Pair) : State :=
  { live with hports := [(0, { l0 := true })], pairs := [(0, p)], up := { ready := true } }

theorem test_RingPairsPollFetchAndComplete_hypotheses :
    let s := host pair0
    let v := host { pair0 with prod := 3 }
    let entry : List Byte := padTo 32 [0x15]
    let c : Cpl := { ticket := ⟨0, 0, 0, true, 0, 0, false⟩, status := 0, unit := 2 }
    clocksRun s = true ∧ pairRuns s 0 0 = true ∧ (getPair s 0).reading = false ∧ pairRuns live 0 0 = false
      ∧ (getPair (host { pair0 with reading := true }) 0).reading = true ∧ pairSize pair0 = 64
      ∧ (let b := readBytes s.hmem (pair0.db.toNat / 64 * 64) 64
         field b 0 4 < 64 ∧ field b 4 4 < 64 ∧ ringSub 64 (field b 4 4) 0 ≤ ringSub 64 0 0 ∧ field b 8 56 = 0)
      ∧ (let w := { s with hmem := writeBytes [] 0x3000 [64] }
         pairSize pair0 ≤ field (readBytes w.hmem (pair0.db.toNat / 64 * 64) 64) 0 4)
      ∧ (getPair v 0).head ≠ (getPair v 0).prod ∧ fetchCount (getPair v 0) = 3
      ∧ (let p : Pair := { pair0 with head := 63, cons := 0, prod := 0 }
         p.head ≠ p.prod ∧ fetchCount p = 0 ∧ p.waited ≠ some p.head.toNat ∧ ({ p with waited := some 63 } : Pair).waited = some p.head.toNat)
      ∧ pairEngine pair0 < 13
      ∧ (getPair (host { pair0 with fetched := [(0, true, entry)] }) 0).fetched = (0, true, entry) :: [] ∧ pair0.expect = 0
      ∧ entryBad 2 (padTo 32 [0xFF]) = true ∧ ((getFn s 0).resetBusy && (getFn s 0).flr) = false
      ∧ (getPair (host { pair0 with ready := [c] }) 0).ready = c :: [] ∧ mayIssue s 0 = true ∧ (getFn s 0).standbyOk = false
      ∧ c.ticket.quiet = false ∧ pairVector pair0 ≠ 0
      ∧ barOpen s 0 = true ∧ 255 < pairCount 0
      ∧ (let w := host { pair0 with ctl := 0 }
         let ctl : Word := pair0.ctl
         barOpen w 0 = true ∧ ctl.getLsbD 0 = true ∧ pairEn (getPair w 0) = false ∧ pairBusy (getPair w 0) = false
           ∧ enableRefused w 0 0 ctl = false ∧ enableRefused w 0 0 (ctl &&& 0x3FF) = true) := by
  decide +kernel

theorem test_VectorsSendTheirMessages_hypotheses :
    let s (v : Vec) : State := { host pair0 with vecs := [(5, v)] }
    clocksRun (s {}) = true ∧ (5 : BitVec 11) ≠ 0 ∧ (2047 : BitVec 11).toNat < vecCount 0 ∧ mayIssue (s {}) 0 = true ∧ mayIssue live 0 = false
      ∧ (let v := getVec (s { count := 2, pending := 2 }) 5
         v.count ≠ 0 ∧ v.count.toNat ≤ v.pending)
      ∧ (let v := getVec (s { pending := 1 }) 5
         v.count = 0 ∧ v.time = 0 ∧ 0 < v.pending)
      ∧ (let v := getVec (s { time := 1, pending := 1, firstUs := some 0 }) 5
         v.time ≠ 0 ∧ v.pending ≠ 0 ∧ v.firstUs = some 0)
      ∧ (getVec { host pair0 with vecs := [(0, { pending := 1 })] } 0).pending ≠ 0
      ∧ barOpen (s {}) 0 = true ∧ vecCount 1 ≤ (64 : BitVec 11).toNat := by
  decide +kernel

theorem test_FunctionsResetAndFailOver_hypotheses :
    let p : Pair := { pair0 with owed := [7] }
    let s := { host p with engines := [] }
    let down (f : Fn) (q : Pair) : State := { updBridge (host q) 8 (fun r => { r with shiState := 5 }) with fns := [(0, f)] }
    let alone : State := updEngine live 0 (fun g => { g with owner := 1 })
    clocksRun s = true ∧ (getFn s 0).resetBusy = false ∧ (getFn { s with fns := [(0, { resetBusy := true })] } 0).resetBusy = true
      ∧ 0 ∈ enginesOf s 0 ∧ (getRegion (withR { owned := true }) (keyRegion 0)).owned = true
      ∧ pairsOf { s with pairs := [(256, p)] } 1 = [pairKey 1 0] ∧ enginesOf s 1 = [] ∧ p.ready = [] ∧ p.owed = [7]
      ∧ (∀ n, n < 32 → (getFn s n).resetBusy = false)
      ∧ (getHport s 0).vfEn = false ∧ (getHport { s with hports := [(0, { vfEn := true })] } 0).vfEn = true
      ∧ s.up.phase ≤ 3 ∧ ¬(({ s with up := { phase := 4 } } : State).up.phase ≤ 3) ∧ (getHport s 0).l0 = true ∧ (getHport live 0).l0 = false
      ∧ (∀ n, n < 32 → (getFn live n).standbyOk = standbyReady live n)
      ∧ fnEnabled live 0 0 = true
      ∧ (let w := { updBridge live 24 (fun r => { r with shiState := 4 }) with hports := [(1, { l0 := true })], fns := [(0, { standbyOk := true })] }
         (∀ n, n < 32 → (getFn w n).standbyOk = standbyReady w n) ∧ (getFn w 0).standbyOk = true ∧ (getHport w 0).l0 = false)
      ∧ bridgeDown live (fnBridge live 0) = false ∧ bridgeDown (down {} pair0) (fnBridge (down {} pair0) 0) = true
      ∧ (getFn (down { standbyOk := true } pair0) 0).standbyOk = true
      ∧ pairsOf (down {} { pair0 with kept := [(1, [])] }) 0 = [pairKey 0 0]
      ∧ barOpen s 0 = true ∧ (getEngine alone 0).image = none ∧ (getEngine alone 0).state ≠ 1 ∧ namingStreams alone 0 = [] ∧ alone.pairs = []
      ∧ (1#32).getLsbD 0 ≠ (getFn s 0).port ∧ (0#32).getLsbD 0 = (getFn s 0).port := by
  decide +kernel

/-! ### Commands of the engines -/

/-- An entry of 32 bytes: OP and fields as offset, bytes and value. -/
def entryOf (op : Nat) (fs : List (Nat × Nat × Nat)) : List Byte :=
  (List.range 32).map (fun i =>
    if i = 0 then BitVec.ofNat 8 op
    else match fs.find? (fun f => decide (f.1 ≤ i) && decide (i < f.1 + f.2.1)) with
      | some f => BitVec.ofNat 8 (f.2.2 / 256 ^ (i - f.1))
      | none => 0)

def jobOf (op : Nat) (fs : List (Nat × Nat × Nat)) : Job := { ticket := ⟨0, 0, 0, true, 0, 0, false⟩, cmd := entryOf op fs }

/-- `s` with engine `e` as given and one waiting command. -/
def giving (s : State) (e : Nat) (g : Engine) (x : Job) : State := updEngine s e (fun _ => { g with jobs := [x] })

theorem test_EnginesRunListsAndSnapshots_hypotheses :
    let one (op : Nat) (fs : List (Nat × Nat × Nat)) : Bool :=
      let x := jobOf op fs
      let s := giving live 2 { state := 2 } x
      decide (startable s 2 0 op = some x) && decide (x.lst = none) && !reservedSet x.cmd && acceptsOp 2 2 op
        && !((getFn s x.ticket.fn).resetBusy && (getFn s x.ticket.fn).flr)
    let l := jobOf 1 [(4, 2, 4096), (8, 8, 32)]
    let n := jobOf 3 [(4, 1, 2), (6, 2, 1), (8, 4, 2), (16, 8, 8)]
    one 1 [(4, 2, 4096), (8, 8, 32)] = true ∧ one 2 [] = true ∧ one 3 [(4, 1, 2), (6, 2, 1), (8, 4, 2), (16, 8, 8)] = true
      ∧ one 4 [] = true ∧ one 0x11 [] = true
      ∧ cmdNat l 4 2 ≤ 4096 ∧ 0 < cmdNat l 4 2 ∧ cmdNat l 8 8 % 32 = 0
      ∧ listCmds { live with hmem := writeBytes [] 32 (entryOf 0x12 []) } 32 1 = entryOf 0x12 [] :: []
      ∧ unlistable 2 (entryOf 0x12 []) = false ∧ unlistable 2 (entryOf 0x20 []) = true
      ∧ ((getEngine (giving live 2 {} l) 2).jobs.take 0).any (sameRing l) = false ∧ ringFrames live l = false
      ∧ (match snapUnit live (jobFn n) (cmdNat n 4 1) (cmdNat n 8 4) with
          | .inr (u, _, valid) => decide (u = uEngine 2) && valid (cmdNat n 0x0C 2)
          | .inl _ => false) = true
      ∧ (match snapUnit live 0 2 13 with
          | .inl c => decide (c = stRange)
          | .inr _ => false) = true
      ∧ isFrozen live (uEngine 2) = false ∧ cmdNat n 5 1 = 0
      ∧ namingStreams live 2 = [] ∧ namingStreams (streaming stream0) 2 ≠ []
      ∧ tidesRun (getEngine (bound member eng2) 2) = true ∧ tidesRun (getEngine live 2) = false
      ∧ reservedSet (entryOf 0x11 [(31, 1, 1)]) = true ∧ acceptsOp 2 0 0x11 = false
      ∧ startable live 2 0 1 = none := by
  decide +kernel

theorem test_TideParametersAndStreamsOpen_hypotheses :
    let x := jobOf 0x12 [(4, 1, 4)]
    let bad := jobOf 0x12 [(4, 1, 5)]
    let s := giving live 2 {} x
    let r := giving (bound member eng2) 2 eng2 x
    let l : ListRun := { rest := [entryOf 0x12 []] }
    let y : Job := { x with lst := some l, started := true }
    let c := jobOf 0x14 [(4, 2, 9)]
    let v := giving (setStream (bound member eng2) 9 (some stream0)) 2 { eng2 with state := 3 } c
    startable s 2 0 0x12 = some x ∧ x.lst = none ∧ reservedSet x.cmd = false ∧ acceptsOp 2 (getEngine s 2).state.toNat 0x12 = true
      ∧ bindCodes s 2 x = [] ∧ 4 < cmdNat bad 4 1 ∧ bindCodes s 2 bad ≠ []
      ∧ bindCodes r 2 x = [] ∧ tidesRun (getEngine r 2) = true ∧ tidesRun (getEngine s 2) = false
      ∧ startable (giving live 2 {} y) 2 0 0x12 = some y ∧ y.lst = some l ∧ (∀ c ∈ l.codes, notDone c = false)
      ∧ unlistable 2 (entryOf 0x12 []) = false
      ∧ startable (giving live 2 { state := 2 } (jobOf 0x13 [(4, 1, 2), (5, 1, 2), (8, 8, 64)])) 2 0 0x13 = some (jobOf 0x13 [(4, 1, 2), (5, 1, 2), (8, 8, 64)])
      ∧ cmdNat (jobOf 0x13 [(8, 8, 64)]) 8 8 % 64 = 0
      ∧ startable v 2 0 0x14 = some c ∧ acceptsOp 2 3 0x14 = true ∧ streamCode v 2 (jobFn c) (cmdNat c 4 2) = stOk
      ∧ streamCode v 2 0 8 ≠ stOk ∧ getStream v 9 = some stream0 ∧ stream0.closing = none ∧ namesFaulted v stream0 = false
      ∧ namesFaulted (updEngine v 2 (fun g => { g with state := 4 })) stream0 = true := by
  decide +kernel

theorem test_FramesQueueOrComplete_hypotheses :
    let g : Engine := { eng2 with state := 3 }
    let n := inBytes stream0 2
    let m := outBytes stream0 2
    let x := jobOf 0x15 [(4, 2, 9), (8, 8, 64), (0x10, 8, 128), (0x18, 4, n), (0x1C, 4, m)]
    let s := giving (setStream (bound member g) 9 (some stream0)) 2 g x
    let k := jobOf 0x17 []
    startable s 2 0 0x15 = some x ∧ x.lst = none ∧ reservedSet x.cmd = false ∧ getStream s 9 = some stream0 ∧ cmdNat x 4 2 = 9
      ∧ streamCode s 2 (jobFn x) 9 = stOk ∧ stream0.closing = none ∧ stream0.queue.length < 8 ∧ cmdNat x 0x10 8 % 64 = 0
      ∧ outBytes stream0 (getEngine s stream0.outEng).params.period ≤ cmdNat x 0x1C 4 ∧ cmdNat x 8 8 % 64 = 0
      ∧ cmdNat x 0x18 4 = inBytes stream0 (getEngine s stream0.inEng).params.period
      ∧ acceptsOp 2 (getEngine s 2).state.toNat 0x15 = true ∧ namesFaulted s stream0 = false
      ∧ (getEngine (giving s 2 { g with state := 4 } x) stream0.inEng).state = 4
      ∧ startable (giving live 2 { state := 2 } k) 2 0 0x17 = some k ∧ (getEngine (giving live 2 { state := 2 } k) 2).params.ckptValid = false
      ∧ (getEngine (giving live 2 { state := 2, params := { ckptValid := true } } k) 2).params.ckptValid = true
      ∧ (getEngine (bound member eng2) 2).tide.num = 7 ∧ (getEngine (bound member eng2) 2).tide.guard = false
      ∧ (getEngine (bound member eng2) 2).tide.active = true ∧ stream0.policy = 0 ∧ ({ stream0 with policy := 2 } : Stream).policy ≠ 0
      ∧ barOpen s 0 = true ∧ (0x6009#32).toNat % 4096 = 9 ∧ (0x6009#32).getLsbD 14 = true ∧ (0x6009#32).extractLsb' 12 2 ≠ 3#2 ∧ stream0.fn = 0
      ∧ (getEngine s stream0.engine.val).state ≠ 4 ∧ (getEngine s stream0.engine.val).state ≠ 5 := by
  decide +kernel

theorem test_EnginesSignalAndWait_hypotheses :
    let w := jobOf 0x18 [(4, 4, 0), (8, 4, 10000000)]
    let sg (a n : Nat) := jobOf 0x19 [(8, 1, a), (0x0C, 4, n)]
    let home := withR { owned := true, owner := 0, ownMap := 1 }
    let s := giving home 2 { state := 2 } w
    let y : Job := { w with started := true, prog := .sync 0 0 }
    let v := { giving home 2 { state := 2 } y with ctl := [.engAns 2 0 5] }
    startable s 2 0 0x18 = some w ∧ w.lst = none ∧ reservedSet w.cmd = false ∧ acceptsOp 2 2 0x18 = true
      ∧ cmdNat w 8 4 ≤ 10000000 ∧ 1 ≤ cmdNat w 8 4 ∧ ¬(1 ≤ cmdNat (jobOf 0x18 []) 8 4)
      ∧ engSyncCode s (jobFn w) (cmdNat w 4 4) = stOk ∧ engSyncCode live 0 0 ≠ stOk
      ∧ startable (giving home 2 { state := 2 } (sg 2 65535)) 2 0 0x19 = some (sg 2 65535) ∧ cmdNat (sg 2 65535) 0x0C 4 = 65535
      ∧ 65535 < cmdNat (sg 2 65536) 0x0C 4 ∧ cmdNat (sg 2 0) 0x0C 4 = 0 ∧ 2 < cmdNat (sg 3 0) 8 1 ∧ cmdNat (sg 0 0) 8 1 = 0
      ∧ engSyncCode home 0 (2 ^ 17) = stRange
      ∧ getJob v 2 0 = some y ∧ y.prog = .sync 0 0 ∧ opByte y.cmd = 0x18 ∧ v.ctl = .engAns 2 0 5 :: []
      ∧ (∀ z ∈ (getEngine v 2).jobs, z.prog ≠ .sync 1 0) := by
  decide +kernel

theorem test_CopiesPinsAndTheirAnswers_hypotheses :
    let own := setCore (withR { owned := true, owner := 0 }) 0 { part := 0x555555 }
    let hb := { own with hchans := [(0, { owned := true })] }
    let toCore := jobOf 0x20 [(4, 1, 8), (8, 8, 64), (0x10, 8, 0), (0x18, 4, 64)]
    let toHost := jobOf 0x20 [(4, 1, 2), (8, 8, 0), (0x10, 8, 64), (0x18, 4, 64)]
    let toHarbour := jobOf 0x20 [(4, 1, 4), (8, 8, 0), (0x10, 8, 0), (0x18, 4, 64)]
    let bad := jobOf 0x20 [(4, 1, 8), (0x18, 4, 63)]
    let x : Job := { toHarbour with started := true, prog := .copy 0 }
    let r : Xfer := { reqId := 7, haddr := 0, op := 1, count := 1, data := [], use := 0, sentAt := 0, ticket := some x.ticket }
    let a : Packet := { pkt (.arrived 8) 2 8 (.xfer { op := 5, reqId := 7 } []) with serial := 3 }
    let v := { giving hb 8 { xfers := [r] } x with packets := [a] }
    let h : List Byte := padTo 64 (leBytes 8 0 ++ leBytes 8 0 ++ leBytes 4 1) ++ padTo 16 (leBytes 4 0 ++ leBytes 4 0 ++ leBytes 4 0)
    let pin := jobOf 0x21 [(4, 1, 2), (8, 8, 64), (0x10, 4, 80)]
    let ps := [pinEntry h pin.ticket 0]
    let st := updEngine (updPort own 0 (fun q => { q with pstate := 5, carries := true, partner := 2 })) 2 (fun _ => { image := some img })
    startable (giving own 8 {} toCore) 8 0 0x20 = some toCore ∧ toCore.lst = none ∧ reservedSet toCore.cmd = false ∧ acceptsOp 8 0 0x20 = true
      ∧ copyCodes own toCore = [] ∧ copyCodes own toHost = [] ∧ copyCodes hb toHarbour = [] ∧ copyCodes own bad ≠ []
      ∧ (copySrc toCore).kind = 0 ∧ (copyDst toCore).kind = 2 ∧ (copyDst toHost).kind = 0 ∧ (copySrc toHost).kind ≠ 1
      ∧ (copyDst toHarbour).kind = 1 ∧ copyOverlaps toCore = false
      ∧ v.packets = [] ++ a :: [] ∧ a.loc = .arrived (engineBridge v 8) ∧ (getEngine v 8).xfers.find? (fun x => x.reqId = 7) = some r
      ∧ jobAt (getEngine v 8) x.ticket = some 0 ∧ getJob v 8 0 = some x ∧ copySize x ≤ r.ref + 64 * r.count
      ∧ (getEngine v 8).xfers = r :: [] ∧ r.use ≤ 1 ∧ r.resent = false ∧ ({ r with resent := true } : Xfer).resent = true
      ∧ startable (giving st 8 {} pin) 8 0 0x21 = some pin ∧ pinCodes st pin h = [] ∧ ps.length = 1 ∧ pinBad st 2 h ps 0 (pinEntry h pin.ticket 0) = false
      ∧ pinCodes st (jobOf 0x21 [(4, 1, 8)]) h ≠ [] ∧ pinBad st 2 (h.take 64 ++ leBytes 4 0 ++ leBytes 4 (2 ^ 18)) ps 0 (pinEntry h pin.ticket 0) = true
      ∧ pinMaster st (pinEntry h pin.ticket 0) false = some 0 ∧ pinMaster own (pinEntry h pin.ticket 0) false = none
      ∧ (let q : Pin := { core := 0, addr := 0, tag := 4, check := 0, record := 0, master := 0, master2 := none, ordered := true, fetch := 2 }
         let b : Packet := { pkt (.eject 0) 2 0 (.block { tag := 4 } []) with purpose := 2 }
         let u := { updEngine own 2 (fun g => { g with pins := [q] }) with packets := [b] }
         (atEject u 0 2).find? (fun p => p.purpose = 2 && !p.poison) = some b ∧ discards u 0 = false
           ∧ pinFor u ((logicalId u 0).getD (2 ^ 18)) 4 = some (2, 0, q) ∧ crc32c [] = 0 ∧ crc32c [1] ≠ 0 ∧ q.fetch = 2 ∧ q.job = none) := by
  decide +kernel

/-! ### Ownership, audits, health, images -/

theorem test_RegionsAndChannelsChangeOwner_hypotheses :
    let a := jobOf 0x30 [(4, 2, 511), (6, 1, 31)]
    let r := jobOf 0x30 [(4, 2, 0), (7, 1, 1)]
    let h := jobOf 0x31 [(4, 1, 0), (5, 1, 0), (6, 1, 31)]
    let f := jobOf 0x31 [(7, 1, 1)]
    let up := { updPort live 0 (fun q => { q with pstate := 5, carries := true, partner := 2 }) with harbours := [(0, { powered := true })] }
    let w := updRegion (giving live 12 {} { a with started := true, prog := .scrub }) 511 (fun g => { g with scrubBusy := true })
    startable (giving live 12 {} a) 12 0 0x30 = some a ∧ a.lst = none ∧ reservedSet a.cmd = false ∧ acceptsOp 12 0 0x30 = true
      ∧ sameTarget (giving live 12 {} a) 0 0x30 4 2 511 = false ∧ regionRefused live 511 = false ∧ regionRefused live 512 = true
      ∧ 32 ≤ cmdNat (jobOf 0x30 [(6, 1, 32)]) 6 1 ∧ needsScrub live 511 31 = false
      ∧ needsScrub (withR { lastValid := true, last := 1 }) 0 31 = true
      ∧ startable (giving live 12 {} r) 12 0 0x30 = some r ∧ cmdNat r 7 1 = 1 ∧ (getRegion live 0).scrubBusy = false
      ∧ (getRegion w 511).scrubBusy = true
      ∧ ([((1 : Fin 32), (2 : Fin 17))].map (fun b => coreKey 511 b.1.val b.2.val)).filter (scrubCores w 511).contains ≠ []
      ∧ (getEngine w 12).jobs.findIdx? (fun z => z.prog = .scrub && decide (opByte z.cmd = 0x30) && decide (field z.cmd 4 2 = 511)) = some 0
      ∧ startable (giving up 12 {} h) 12 0 0x31 = some h ∧ reservedSet h.cmd = false ∧ channelCodes up 0 0 = [] ∧ channelCodes live 0 0 ≠ []
      ∧ startable (giving up 12 {} f) 12 0 0x31 = some f
      ∧ ((getChan { up with hchans := [(0, { lastValid := true, last := 1 })] } 0).lastValid && decide (1 ≠ 31)) = true := by
  decide +kernel

theorem test_AuditsAndRefetches_hypotheses :
    let p (n : Nat) : Pin := { core := 0, addr := 0, tag := 4, check := 0, record := 0, master := 0, master2 := none, fetch := n, pinned := true }
    let x := jobOf 0x1A []
    let g : Engine := { eng2 with pins := [p 0] }
    let s := giving (bound member g) 2 g x
    let up (s : State) : State := updPort s 0 (fun q => { q with pstate := 5, carries := true, partner := 2 })
    (getEngine s 2).auditRun = none ∧ startable s 2 0 0x1A = some x ∧ x.lst = none ∧ reservedSet x.cmd = false ∧ acceptsOp 2 2 0x1A = true
      ∧ (getEngine s 2).jobs = [x] ∧ (getEngine (bound member { g with auditRun := some (0, 0, 0) }) 2).auditRun.isSome = true
      ∧ audited (bound member { g with pins := [{ p 0 with bad := true }] }) { p 0 with bad := true } = true
      ∧ (getEngine (giving live 2 { eng2 with pins := [] } x) 2).pins = []
      ∧ (getEngine s 2).image ≠ none ∧ (getEngine s 2).auditEn = true ∧ 2 ≤ (getEngine s 2).state.toNat ∧ (getEngine s 2).auditPeriod ≠ 0
      ∧ (getEngine live 2).image = none
      ∧ (getEngine (bound member { g with pins := [p 0, p 3] }) 2).pins[1]? = some (p 3)
      ∧ pinMaster (up live) (p 1) false = some 0 ∧ pinMaster (up live) (p 3) true = some 0 ∧ pinMaster live (p 1) false = none
      ∧ mustHave live 2 (p 1) = false ∧ mustHave (withR { rebuilding := 1 }) 2 { p 1 with pinned := false } = true
      ∧ (p 4).fetch = 4 ∧ (p 4).holed = false ∧ (p 2).job = none := by
  decide +kernel

theorem test_HealthUpdatesReportsAndSelfChecks_hypotheses :
    let s (v : BitVec 3) (e : Word) : State := { live with ctl := [.hmUpdate 0 v e] }
    let lh (c : Lighthouse) : State := { live with lh := { c with stage := 3 }, ctl := [.live 0 2 1] }
    let worn := updHealth (lh {}) 0 (fun h => { h with disagree := [0, 0, 0] })
    live.lh.orders = [] ∧ unitClass 0 ≤ 6 ∧ 7 ≤ unitClass (uBank 0 0 0) ∧ (s 2 1).ctl = .hmUpdate 0 2 1 :: []
      ∧ 0 < ((1 : Word) - epochOf (s 2 1) 0).toNat ∧ ((1 : Word) - epochOf (s 2 1) 0).toNat < 2 ^ 31 ∧ ((0 : Word) - epochOf (s 2 0) 0).toNat = 0
      ∧ 2 ^ 31 ≤ ((0x80000000 : Word) - epochOf (s 2 0) 0).toNat ∧ (getHealth (s 2 1) 0).map ≠ 4
      ∧ (getHealth (updHealth live 0 (fun h => { h with map := 4 })) 0).map = 4 ∧ (0 : BitVec 3) ≠ 4
      ∧ eff live 0 < 2 ∧ live.up.dueNow.all (fun x => decide (x.1 ≠ 0)) = true
      ∧ lhRuns live = false ∧ lhRuns (lh {}) = true ∧ (getUnit (lh {}) 0).map.toNat < 2 ∧ disagreements (lh {}) 0 < 3 ∧ 3 ≤ disagreements worn 0
      ∧ (getUnit (lh { map := [(0, { map := 4 })] }) 0).map = 4
      ∧ (getHealth (updHealth live 0 (fun h => { h with checking := true })) 0).checking = true ∧ checkHolds live 0 = true
      ∧ awaitsPower (updRegion live 0 (fun r => { r with powered := true })) 0 = false ∧ awaitsPower (updRegion live 0 (fun r => { r with powered := false })) 0 = true
      ∧ checkHolds live (uPort 0) = false ∧ (getHealth live 0).checking = false := by
  decide +kernel

/-- A placement image of mode P without its check value: region 0 as its only stage region, one program of one word, one core. -/
def imageBody : List Byte :=
  leBytes 4 0x4D495053 ++ [0, 1, 0, 1] ++ leBytes 4 0x148 ++ leBytes 2 3 ++ [0, 0] ++ leBytes 4 0x00015512 ++ leBytes 4 0xFFFFFFFF ++ leBytes 4 0
    ++ List.replicate 36 0
    ++ leBytes 4 1 ++ leBytes 4 0x80 ++ leBytes 4 4 ++ leBytes 4 1
    ++ leBytes 4 2 ++ leBytes 4 0x100 ++ leBytes 4 68 ++ leBytes 4 1
    ++ leBytes 4 3 ++ leBytes 4 0xC0 ++ leBytes 4 24 ++ leBytes 4 1
    ++ List.replicate 16 0
    ++ padTo 64 []
    ++ padTo 64 []
    ++ padTo 64 (leBytes 4 64 ++ leBytes 2 1) ++ leBytes 4 0x04000000

/-- The image with its check value, at host address 0, and the stage region owned by function 0. -/
def imageState : State :=
  { withR { owned := true, owner := 0, powered := true, ownMap := 1 } with
    hmem := writeBytes [] 0 (imageBody ++ leBytes 4 (crc32c imageBody).toNat) }

set_option maxRecDepth 20000 in
theorem test_image_is_legal :
    verdictOf (imageFindings imageState 0 221184 (imageReader imageState 0) 0x148
      (decide ((imageSum imageState 0 0x148).toNat = imageReader imageState 0 (0x148 - 4) 4))) = none := by
  decide +kernel

theorem test_ImagesLoadConfirmAndBind_hypotheses :
    let x := jobOf 0x10 [(8, 8, 0), (16, 4, 0x148)]
    let y := jobOf 0x10 [(8, 8, 63), (16, 4, 0x148)]
    let s := giving imageState 2 {} x
    let l : Load := { eng := 2, ticket := x.ticket, image := img, fn := 0, startUs := 0, sentUs := 0, group := 0, expect := [(0, 0xFFFFFFFF, 0xFFFFFFFF)] }
    let v : State := { giving (withR {}) 2 { state := 1 } { x with started := true } with load := some l }
    let w : State := { v with ctl := [.program 0 (some 0) 0 [5] 0] }
    s.load = none ∧ startable s 2 0 0x10 = some x ∧ x.lst = none ∧ reservedSet x.cmd = false ∧ acceptsOp 2 0 0x10 = true
      ∧ cmdNat x 8 8 % 64 = 0 ∧ cmdNat y 8 8 % 64 ≠ 0
      ∧ verdictOf (imageFindings live 0 221184 (imageReader live 0) 0x148 false) ≠ none
      ∧ v.load = some l ∧ w.ctl = .program 0 (some 0) 0 [5] 0 :: [] ∧ waitsFor l 0 = true ∧ flitsLeft v 0 = false ∧ flitsLeft w 0 = true
      ∧ regionOffline v 0 = false
      ∧ l.expect.contains (0, (getRegion v 0).recordCheck, (getRegion v 0).programCheck) = true ∧ 0 ∉ l.resent
      ∧ ¬(l.expect.contains (0, (0 : Word), (getRegion v 0).programCheck) = true) ∧ 0 ∈ ({ l with resent := [0] } : Load).resent
      ∧ (∀ m ∈ l.image.stage, m = 0 ∨ m ∈ l.confirmed) ∧ l.image.chans = [] ∧ (getEngine v 3).image = none
      ∧ (∃ m ∈ ({ l with image := { img with stage := [0, 1] } } : Load).image.stage, m ≠ 0 ∧ m ∉ l.confirmed)
      ∧ jobAt (getEngine v l.eng) l.ticket = some 0 ∧ waitsFor { l with confirmed := [0] } 0 = false := by
  decide +kernel

theorem test_RowsSlideReturnAndRebuild_hypotheses :
    let out (s : State) (k : Nat) : State := updHealth s k (fun h => { h with map := 2 })
    let g := bound member { eng2 with tide := { eng2.tide with guard := true } }
    let b := updRegion g 0 (fun r => { r with cmdSeen := true })
    let back := updRegion live 0 (fun r => { r with slide := [(0, { point := 3 })] })
    let rb := setCore (updRegion (bound member eng2) 0 (fun r => { r with rebuilding := 1 })) 0 { member with rebuildDue := true }
    excludedIn (out live (coreKey 0 0 3)) 0 0 = [coreKey 0 0 3] ∧ keyCol (coreKey 0 0 3) ≠ pointOf live 0 0
      ∧ maySlide (out live (coreKey 0 0 3)) 0 = true ∧ maySlide (out b (coreKey 0 0 3)) 0 = true ∧ (getRegion b 0).engine.isSome = true
      ∧ maySlide (bound member eng2) 0 = false
      ∧ 2 ≤ (excludedIn (out (out live (coreKey 0 0 3)) (coreKey 0 0 16)) 0 0).length ∧ regionOffline live 0 = false
      ∧ (excludedIn live 0 0).length = 0
      ∧ excludedIn (out back (coreKey 0 0 3)) 0 0 = [coreKey 0 0 3] ∧ keyCol (coreKey 0 0 3) = pointOf back 0 0
      ∧ slidesBack live 0 0 = false ∧ slidesBack back 0 0 = true ∧ 0 ∈ movingCols 16 0
      ∧ (getRegion rb 0).engine = some 2 ∧ (getEngine rb 2).image = some img ∧ (getRegion rb 0).rebuilding.getLsbD 0 = true
      ∧ (getRegion rb 0).rebuilt.getLsbD 0 = false ∧ 0 ∈ rowCores 0 0 ∧ (getCore rb 0).rebuildDue = true ∧ logicalId rb 0 = some 0 := by
  decide +kernel

theorem test_RelocationsMoveAStage_hypotheses :
    let im : Image := { imageRes with check := 0 }
    let at' (k : Nat) (im : Image) : State :=
      bound member { eng2 with image := some im, reloc := some { lost := 0, reserve := 1, startUs := 0, phase := k } }
    clocksRun (at' 0 im) = true ∧ (getEngine live 2).reloc = none ∧ ((getEngine (at' 0 im) 2).reloc).isSome = true
      ∧ chooseReserve (at' 0 im) 2 0 = some 1 ∧ chooseReserve (at' 0 img) 2 0 = none ∧ reserveUsable (at' 1 im) 1 = true
      ∧ reserveUsable (updHealth (at' 1 im) (uRegion 1) (fun h => { h with live := 2 })) 1 = false
      ∧ imageKept (at' 2 { im with len := 0 }) { im with len := 0, check := 1 } = false
      ∧ imageKept (at' 2 { im with len := 4 }) { im with len := 4 } = true
      ∧ (∀ p ∈ (getEngine (at' 6 im) 2).pins, p.fetch ≠ 0 → p.core.toNat / 512 ≠ 1) ∧ (0 : Nat) ≠ 1
      ∧ tget none ({ at' 3 im with reloc := [(5, some 0)] } : State).reloc 5 = some 0 := by
  decide +kernel

theorem test_FieldTestsRunAndAreJudged_hypotheses :
    let up (k : Nat) : BringUp := { ready := true, dueNow := [(k, 0)] }
    let s := { live with up := up 0 }
    let b (k : Nat) (t : TideRun) : State :=
      { updRegion (bound member { eng2 with tide := t }) 0 (fun r => { r with cmdSeen := true }) with up := up k }
    let guard : TideRun := { eng2.tide with guard := true }
    let spare := coreKey 0 0 16
    let slid := { updRegion (b 0 guard) 0 (fun r => { r with slide := [(0, { point := 3 })] }) with
      lh := { stage := 3 }, tid := 0x7FFFFFFFFFFFFFFF }
    let f : FieldTest := { kind := 1, cores := [0], tide := 3 }
    clocksRun s = true ∧ s.phase < 50 ∧ (getRegion s 0).ft = none ∧ (getRegion s 0).engine = none ∧ mayTest s 0 = true ∧ mayTest live 0 = false
      ∧ earliest s 0 0 = some 0 ∧ dueTime s 0 < 2 ^ 64
      ∧ (getRegion (b 0 guard) 0).engine ≠ none ∧ dueCore (b 0 guard) 0 1 = some 0 ∧ maySlide (b 0 guard) 0 = true
      ∧ dueCore (b spare eng2.tide) 0 2 = some spare ∧ (getEngine (b spare eng2.tide) 2).tide.active = true
      ∧ (getEngine (b spare eng2.tide) 2).tide.guard = false ∧ dueTime (b spare eng2.tide) spare ≤ eng2.tide.start.toNat
      ∧ grantedRow { slid with lh := { slid.lh with starved := [(0, 0, true)] } } 0 = some 0
      ∧ grantedRow (b 0 guard) 0 = none
      ∧ overdueCores slid 0 0 48 ≠ [] ∧ lhRuns slid = true ∧ pointOf slid 0 0 ≠ 16
      ∧ (List.range 32).filter (fun x => decide (pointOf slid 0 x ≠ 16)) = [0] ∧ overdueCores slid 0 0 72 ≠ []
      ∧ (0, 0, false) ∈ starvedRows { slid with lh := { slid.lh with starved := [(0, 0, false)] } } ∧ (0, 0, false) ∉ starvedRows slid
      ∧ (let w := updRegion (b 0 { guard with num := 7 }) 0 (fun r => { r with ft := some f })
         (getRegion w 0).ft = some f ∧ f.cores = [0] ∧ testExpired w 0 f = true ∧ maySlide w 0 = true)
      ∧ (let w := updRegion s 0 (fun r => { r with ft := some { f with kind := 0 } })
         f.cores.contains 0 = true ∧ f.verdicts.any (fun v => v.1 = 0) = false ∧ testExpired w 0 { f with kind := 0 } = false)
      ∧ barOpen s 0 = true ∧ (0x4000#32).getLsbD 14 = true ∧ 60 ≤ ((60#32).extractLsb' 0 11).toNat ∧ ((1440#32).extractLsb' 0 11).toNat ≤ 1440
      ∧ ((59#32).extractLsb' 0 11).toNat < 60 ∧ 1440 < ((1441#32).extractLsb' 0 11).toNat := by
  decide +kernel

/-- `live` with one sample of a sensor. -/
def sampledAt (id : Nat) (v : Word) : State := { live with sensors := [(id, { vals := [v] })] }

theorem test_SuppliesTripsAndThrottleLevels_hypotheses :
    let v39 := sampledAt (sensorId 8 0) 0x421C0000
    let v62 := sampledAt (sensorId 8 0) 0x427B3333
    let hot := updRegion (sampledAt (sensorId 1 0) 0x42DC0000) 0 (fun r => { r with powered := true, pg := true })
    outOfRange v39 = some (sensorId 8 0) ∧ v39.power.supply = false ∧ outOfRange live = none
      ∧ ({ v39 with power := { v39.power with supply := true } } : State).power.supply = true
      ∧ beyondLockout v39 = none ∧ beyondLockout v62 ≠ none ∧ v62.power.bus = true
      ∧ ({ live with up := { phase := 2, waves := 15 } } : State).up.waves < 16 ∧ live.power.root = true ∧ State.reset.power.root = false
      ∧ (getRegion hot 0).powered = true ∧ atLeast hot (sensorId 1 0) 1100 = true ∧ atLeast (sampledAt (sensorId 1 0) 0x42DBFFFF) (sensorId 1 0) 1100 = false
      ∧ regulatorFault hot 0 none = none ∧ regulatorFault hot 0 (some 1) ≠ none
      ∧ regionBeside 0 1 = some 1 ∧ regionBeside 0 0 = none
      ∧ (powerGood (updRegion hot 1 (fun r => { r with powered := true })) 1 || regionOffline hot 1 || !(getRegion hot 0).powered) = false
      ∧ (powerGood (updRegion hot 1 (fun r => { r with powered := true, pg := true })) 1) = true
      ∧ lhUp live = false ∧ lhUp { live with lh := { stage := 2 } } = true
      ∧ atLeast (sampledAt (sensorId 6 3) 0x42E60000) (sensorId 6 3) 1150 = true
      ∧ sensorId 6 3 ∈ (List.range 4).map (fun i => sensorId 6 (4 * 0 + i)) ∧ (getBridge live 0).shiState ≠ 5 := by
  decide +kernel

/-- Bring-up in a phase. -/
def inPhase (n : Nat) : State := { live with up := { phase := n }, lh := { stage := 3 } }

def finds : PhaseFinds := { ms := 0, fatal := false, bad := [], fails := [], silent := [], seed := 0 }

theorem test_BringUpPhasesEndAndFail_hypotheses :
    let p2 (b : Bool) (w : Nat) : State := { inPhase 2 with power := { bus := b }, up := { phase := 2, waves := w } }
    let six := updRegion { inPhase 6 with up := { phase := 6, tested := true, scans := [0] } } 0 (fun r => { r with powered := true })
    comingUp live = false ∧ comingUp (inPhase 1) = true ∧ comingUp (p2 false 0) = true ∧ (p2 false 0).power.bus = false
      ∧ (p2 false 0).up.phaseUs + 1000 * min finds.ms 70 ≤ nowUs (p2 false 0) ∧ beyondLockout (p2 false 0) = none
      ∧ (p2 true 15).up.waves < 16 ∧ 16 ≤ (p2 true 16).up.waves ∧ (inPhase 1).lh.stage ≠ 4
      ∧ comingUp { inPhase 1 with lh := { stage := 4 } } = true ∧ (inPhase 3).up.phase = 3
      ∧ (getBridge (inPhase 4) 8).shiState ≠ 4 ∧ (getBridge (inPhase 4) 24).shiState ≠ 4
      ∧ (getBridge (updBridge (inPhase 4) 8 (fun r => { r with shiState := 4 })) 8).shiState = 4 ∧ 8 ∉ badOf finds 4
      ∧ (inPhase 6).up.tested = false ∧ six.up.tested = true ∧ six.up.scans ≠ [] ∧ (inPhase 6).up.scans = []
      ∧ tested six (coreKey 0 1 1) = true ∧ verdictsOn six finds (coreKey 0 1 1) = [true, true]
      ∧ verdictsOn six { finds with fails := [(⟨0, 1, 1⟩, 0), (⟨0, 1, 1⟩, 1)] } (coreKey 0 1 1) = [false, false]
      ∧ verdictsOn six { finds with silent := [(⟨0, 1, 1⟩, 0)] } (coreKey 0 1 1) = [true]
      ∧ comingUp (inPhase 7) = true ∧ comingUp (inPhase 8) = true ∧ comingUp (inPhase 9) = true ∧ comingUp (inPhase 10) = true
      ∧ hostBridge false ∉ badOf finds 4 ∧ usable (inPhase 9) (uHost 0) = true ∧ 0 ∉ badOf finds 6 ∧ badOf finds 0 = [] ∧ badOf finds 3 = []
      ∧ (getBridge (updBridge (inPhase 9) 8 (fun r => { r with shiState := 5 })) (hostBridge false)).shiState = 5
      ∧ usable (inPhase 10) (uRegion 0) = true ∧ regionOffline (inPhase 10) 0 = false
      ∧ live.up.ready = false ∧ live.up.fatal = false ∧ live.power.stopped = false ∧ 32 * (p2 true 15).up.waves ≤ 511
      ∧ clocksRun six = true ∧ 0 ∈ six.up.scans := by
  decide +kernel

theorem test_BringUpPhasesEndAndFail_core :
    coreKey 0 1 1 ∈ (List.range 512).flatMap (fun n => (regionCores n).filter
      (tested (updRegion (inPhase 6) 0 (fun r => { r with powered := true })))) :=
  List.mem_flatMap.mpr ⟨0, by decide +kernel, List.mem_filter.mpr ⟨by decide +kernel, by decide +kernel⟩⟩

def frameOf (b : FrameBody) : SwFrame := { src := .lighthouse, dst := .region 0, seq := 5, good := true, body := b }

theorem test_LighthouseHearsAndRecords_hypotheses :
    let s := updRegion { live with lh := { stage := 3 } } 0 (fun r => { r with powered := true })
    let r : LogRec := { typ := 0, sev := 3, fn := 0, unit := 0, tide := 0, data := [] }
    let q (n l : Nat) : State := { s with logq := [(0, { recs := List.replicate n r, lost := l }), (uHarbour 0, { recs := [r] })] }
    let w : State := { s with ctl := [.hmUpdate 0 2 1] }
    let g (x : Sensor) : State := { s with sensors := [(sensorId 1 0, x)] }
    nodeTakes s (.region 0) = true ∧ nodeTakes live (.region 0) = false ∧ nodeKey (.region 0) = 0 ∧ (1022 == 1022) ≠ (0 == 1022)
      ∧ (frameOf (.scrub 7)).body ≠ .other 4 ∧ (1022, 5) ∉ (getNode s 0).seen
      ∧ (1022, 5) ∈ (getNode { s with nodes := [(0, { seen := [(1022, 5)] })] } 0).seen
      ∧ (getRegion s 0).engine = none ∧ (getRegion s 0).scrubBusy = false ∧ s.dbg.coreSib.getLsbD 0 = false
      ∧ nodeHas 0 3 0 = false
      ∧ unacked w (nodeKey .lighthouse) (nodeKey (.region 0)) = true ∧ lhUp w = true ∧ unacked s 1022 0 = false
      ∧ lhRuns s = true ∧ lhRuns live = false ∧ (getNode s 0).ijtag = none
      ∧ (getNode { s with nodes := [(0, { ijtag := some 0 })] } 0).ijtag ≠ none
      ∧ ¬(7 ≤ unitClass 0 ∧ unitClass 0 ≤ 9) ∧ (getLogq (q 1 0) 0).recs = r :: [] ∧ (getLogq s 0).recs = [] ∧ (getLogq (q 1 0) (uHarbour 0)).recs = r :: []
      ∧ (getLogq (q 63 1) 0).lost ≠ 0 ∧ (getLogq (q 63 1) 0).recs.length < 64 ∧ 64 ≤ (getLogq (q 64 1) 0).recs.length
      ∧ (List.replicate 64 (0 : Byte)).length = 64 ∧ (getPort s 0).partner ≠ 2 ∧ (getPort { s with ports := [(0, { partner := 2 })] } 0).partner = 2
      ∧ ({ s with lh := { stage := 2 } } : State).lh.stage = 2 ∧ s.lh.orders = [] ∧ (Node.region 0) ≠ .lighthouse
      ∧ isSensor (sensorId 1 511) = true ∧ isSensor (sensorId 1 512) = false ∧ plausible s (sensorId 1 0) 0x42480000 = true
      ∧ inRange (sensorId 1 0) 0x7FC00000 = false ∧ plausible s (sensorId 1 0) 0x7FC00000 = false
      ∧ (getSensor (g { bad := 6 }) (sensorId 1 0)).bad < 7 ∧ 7 ≤ (getSensor (g { bad := 7 }) (sensorId 1 0)).bad
      ∧ (getSensor (g { failed := true, good := 3 }) (sensorId 1 0)).good < 4 ∧ 4 ≤ (getSensor (g { failed := true, good := 4 }) (sensorId 1 0)).good
      ∧ inRange (sensorId 1 0) 0x42480000 = true ∧ pldmOk .smbus = true ∧ pldmOk .mailbox = false := by
  decide +kernel

theorem test_LighthouseBootsAndUpdates_hypotheses :
    let at' (l : Lighthouse) : State := { live with lh := l }
    let dud : Bank := { image := { version := 0, svn := 0, key := 0, signed := false, target := true } }
    let good : FwImage := { version := 1, svn := 64, key := 3, signed := true, target := true }
    live.lh.stage < 2 ∧ bootBank live = some false ∧ bootBank (at' { bankA := dud }) = some true ∧ bootBank (at' { bankA := dud, bankB := dud }) = none
      ∧ live.lh.bootOther = false ∧ bankVerifies live (bankOf live false) = true ∧ bankVerifies (at' { bankA := dud }) dud = false
      ∧ onTrial live = false ∧ onTrial (at' { stage := 3, bankA := { image := good, trial := true } }) = true
      ∧ ({} : Lighthouse).trialFails < 2 ∧ 2 ≤ (at' { stage := 3, bankA := { image := good, trial := true }, trialFails := 2 }).lh.trialFails
      ∧ live.lh.stage ≠ 0 ∧ pldmOk .smbus = true ∧ lhRuns (at' { stage := 3 }) = true ∧ live.lh.updating = false
      ∧ (at' { stage := 4, updating := true }).lh.updating = true ∧ bankVerifies live { image := good } = true
      ∧ (bankOf (at' { stage := 3, updating := true }) true).invalid = false ∧ ({ good with svn := 65 } : FwImage).svn.toNat = 65
      ∧ ({ good with signed := false } : FwImage).signed = false
      ∧ live.lh.mbx.busy = false ∧ (at' { mbx := { busy := true } }).lh.mbx.busy = true ∧ (at' { mbx := { len := 7 } }).lh.mbx.len.toNat < 8
      ∧ 28672 < (at' { mbx := { len := 28673 } }).lh.mbx.len.toNat ∧ 8 ≤ (at' { mbx := { len := 8 } }).lh.mbx.len.toNat
      ∧ (at' { mbx := { len := 28672 } }).lh.mbx.len.toNat ≤ 28672 := by
  decide +kernel

/-- A message of a code and a body, by SMBus. -/
def msgOf (code : Nat) (body : List Byte) : LhMsg :=
  { via := .smbus, bytes := [BitVec.ofNat 8 code, 0, 1, 0, 0, 0] ++ leBytes 2 body.length ++ body }

def lh3 : State := { live with lh := { stage := 3 } }

/-- Lighthouse takes the message, and its header and length keep the rules. -/
def asks (code : Nat) (body : List Byte) : Bool :=
  let m := msgOf code body
  let b := msgData lh3 m
  msgTaken lh3 m && decide (8 ≤ b.length) && decide (field b 0 1 = code) && decide (msgCodes b body.length [] = [])

theorem test_MessagesAreAnsweredAndOrdersTaken_hypotheses :
    let kinds (b : List Byte) (off n : Nat) : Nat := field ((msgData lh3 (msgOf 0 b)).drop 8) off n
    lh3.lh.orders = [] ∧ asks 1 ([9, 0] ++ leBytes 2 4094 ++ leBytes 4 0) = true ∧ asks 2 (leBytes 4 0) = true
      ∧ asks 3 (leBytes 4 0 ++ leBytes 2 511 ++ [1, 0]) = true ∧ asks 4 (leBytes 4 0 ++ [1]) = true ∧ asks 5 [1, 31, 0] = true ∧ asks 6 (leBytes 4 0) = true
      ∧ asks 7 [] = true ∧ asks 8 (List.replicate 10 0) = true ∧ asks 9 [0, 0, 0, 0] = true
      ∧ kinds ([9, 0] ++ leBytes 2 4094 ++ leBytes 4 0) 2 2 = 4094 ∧ 4094 < kinds ([9, 0] ++ leBytes 2 4095 ++ leBytes 4 0) 2 2
      ∧ kinds (leBytes 4 0 ++ leBytes 2 511 ++ [1, 0]) 4 2 = 511 ∧ 511 < kinds (leBytes 4 0 ++ leBytes 2 512 ++ [1, 0]) 4 2
      ∧ isUnit 0 = true ∧ isUnit 0xA0000000 = false ∧ (getUnit lh3 0).map.toNat < 2
      ∧ 2 ≤ (getUnit { lh3 with lh := { stage := 3, map := [(0, { map := 2 })] } } 0).map.toNat
      ∧ unitClass 0 ≠ 4 ∧ unitClass (uBridge 0) = 4 ∧ tripHolds lh3 0 = false ∧ scanHolds lh3 0 = false
      ∧ scanHolds { lh3 with dbg := { coreSib := 1 } } (uRegion 0) = true ∧ effNow (updRegion lh3 0 (fun r => { r with powered := true })) 0 = 0
      ∧ kinds [1, 32, 0] 1 1 = 32 ∧ kinds [2, 15, 0] 1 1 < 16 ∧ 16 ≤ kinds [3, 16, 0] 1 1 ∧ kinds [4, 0, 31] 2 1 < 32 ∧ 32 ≤ kinds [4, 0, 32] 2 1
      ∧ msgTaken live (msgOf 1 []) = false ∧ msgCodes (msgData lh3 (msgOf 7 [0])) 0 [] ≠ []
      ∧ lh3.power.stopped = false ∧ ({ lh3 with power := { stopped := true } } : State).power.stopped = true := by
  decide +kernel

theorem test_RegistersReadAndWrite_hypotheses :
    let x (op sp wide u off v m : Nat) := jobOf op [(4, 1, sp), (5, 1, wide), (8, 4, u), (12, 4, off), (16, 8, v), (24, 8, m)]
    let rd := x 0x32 0 0 0 4 0 0
    let wr := x 0x33 0 0 511 16 1024 0xFFFFFFFF
    let s := updRegion (updRegion live 0 (fun r => { r with powered := true })) 511 (fun r => { r with powered := true })
    let hb := { updPort lh3 0 (fun q => { q with pstate := 5, carries := true, partner := 2 }) with harbours := [(0, { powered := true })] }
    clocksRun s = true ∧ startable (giving s 12 {} rd) 12 0 0x32 = some rd ∧ rd.lst = none ∧ reservedSet rd.cmd = false ∧ acceptsOp 12 0 0x32 = true
      ∧ regCodesOk rd = true ∧ regCodesOk (x 0x32 6 0 0 4 0 0) = false ∧ unitAnswers s 0 0 = true ∧ unitAnswers live 0 0 = false
      ∧ covered s 0 0 4 false ≠ [] ∧ covered s 0 0 0x7FFC false = [] ∧ 6 % 4 ≠ 0
      ∧ windowCounter s 0 0 17 = some (uRegion 0, 17) ∧ windowCounter s 0 0 18 = none
      ∧ startable (giving s 12 {} wr) 12 0 0x33 = some wr ∧ regCodesOk wr = true ∧ physRefused s 0 511 = false
      ∧ cmdNat wr 12 4 = 0x10 ∧ BitVec.ofNat 32 (cmdNat wr 24 8) = BitVec.allOnes 32 ∧ 1024 ≤ (BitVec.ofNat 32 (cmdNat wr 16 8)).toNat % 2 ^ 24
      ∧ (BitVec.ofNat 32 (cmdNat (x 0x33 0 0 0 16 1023 0xFFFFFFFF) 16 8)).toNat % 2 ^ 24 < 1024
      ∧ (covered s 0 0 0 false).any (fun r => r.hw) = true
      ∧ getJob (giving s 12 {} { rd with started := true, prog := .wait }) 12 0 = some { rd with started := true, prog := .wait }
      ∧ lhRuns hb = true ∧ (getHarbour hb 0).powered = true ∧ (getHarbour lh3 0).powered = false ∧ unitOk 4 0 = true ∧ unitOk 4 256 = false
      ∧ (768#64).toNat % 2 ^ 15 = 768 ∧ (24576#64).toNat % 2 ^ 15 ≤ 24576 := by
  decide +kernel

theorem test_HostWritesPinsAndPower_hypotheses :
    let s := host { pair0 with ctl := 0 }
    let l := jobOf 1 [(4, 2, 4096), (8, 8, 32)]
    clocksRun s = true ∧ barOpen s 0 = true ∧ (0xC : BitVec 20).toNat = 0xC ∧ (0x20110#20).toNat = 0x20110 ∧ (8#32).toNat % 32 = 8
      ∧ (23#32).toNat % 32 ≤ 23 ∧ 23 < (24#32).toNat % 32 ∧ (7#32).toNat % 32 < 8 ∧ s.lh.mbx.busy = false
      ∧ (0x2FFC#20).toNat < 0x3000 ∧ ((0x2FFC#20).toNat - 0x1000) / 32 < pairCount 0 ∧ pairCount 1 ≤ ((0x1400#20).toNat - 0x1000) / 32
      ∧ pairEn (getPair s 0) = false ∧ pairBusy (getPair s 0) = false ∧ pairEn (getPair (host pair0) 0) = true
      ∧ (0x1018#20).toNat % 32 = 0x18 ∧ domWritable s = true ∧ domWritable (streaming stream0) = false
      ∧ (getHport s 0).vfEn = false ∧ (31#16).toNat ≤ 31 ∧ 31 < (32#16).toNat ∧ (getHport s 0).l0 = true ∧ (getHport live 0).l0 = false
      ∧ (getPair (host { pair0 with reading := true }) 0).reading = true ∧ pairRuns (host { pair0 with reading := true }) 0 0 = true
      ∧ pairRuns live 0 0 = false ∧ fetchCount (getPair (host { pair0 with prod := 3 }) 0) ≠ 0 ∧ getJob s 2 0 = none
      ∧ startable (giving s 2 { state := 2 } l) 2 0 1 = some l ∧ cmdNat l 4 2 ≤ 4096
      ∧ lhUp lh3 = true ∧ lhUp live = false ∧ Via.smbus ≠ .mailbox := by
  decide +kernel

/-- The external TAP drives the chain. -/
def external : State := { lh3 with up := { ready := true }, dbg := { extEn := true, lhHold := false, trst := false } }

theorem test_DebugAccessOnTheChain_hypotheses :
    let s := updRegion { lh3 with dbg := { ir := [(32, 0x10)] } } 0 (fun r => { r with powered := true, clean := true })
    let x := updRegion { external with dbg := { external.dbg with ir := [(32, 0x10)] } } 0 (fun r => { r with powered := true, owned := true })
    extDrives external = true ∧ extDrives lh3 = false ∧ mayScan true external = true ∧ mayScan false lh3 = true ∧ inChain lh3 31 = true
      ∧ inChain lh3 32 = true ∧ lh3.dbg.trst = true ∧ ({ lh3 with dbg := { trst := false } } : State).dbg.trst = false ∧ mayScan true lh3 = false
      ∧ inChain { external with dbg := { external.dbg with chain := 0 } } 0 = false
      ∧ barOpen lh3 0 = true ∧ lhUp external = true ∧ external.dbg.extEn = true ∧ external.up.ready = true ∧ external.dbg.lhHold = false
      ∧ ((1#32).getLsbD 0 && external.up.ready && !external.dbg.lhHold) = true
      ∧ netOpen false s = true ∧ segOpens s 0 = true ∧ netOpen false lh3 = false ∧ localUnit 0 0 0 1 = none ∧ localUnit 0 0 0 0 = some 0
      ∧ netOpen true x = true ∧ (getRegion x 0).owned = true ∧ (getRegion s 0).owned = false ∧ eff s (uRegion 0) ≠ 3
      ∧ regionClean s 0 = true ∧ s.dbg.coreSib.getLsbD 0 = false ∧ regionClean x 0 = false ∧ (getRegion s 0).ft = none
      ∧ ({ s with dbg := { s.dbg with coreSib := 1 } } : State).dbg.coreSib.getLsbD 0 = true
      ∧ (0x3001#32).toNat / 2048 % 64 = 6 ∧ sndOk 0x10003 = true ∧ (0x10003#32).toNat % 4 = 3 ∧ sndOk 0x2801 = true
      ∧ regionPins lh3 0 = 0 ∧ regionPins { lh3 with dbg := { snd := [(1, 0x10003), (2, 0x10003)] } } 0 = 2 := by
  decide +kernel

theorem test_StepRunsTheFrontCommand_hypotheses : live.pending = [] ∧ live.dom.step = none ∧ clocksRun State.reset = false := by decide +kernel

theorem test_EveryWellFormedCommandCompletes_hypotheses :
    (Instr.illegal c0 0).wellFormed = true ∧ (Instr.illegal c0 0x04000001).wellFormed = false ∧ (Instr.alignDrive).wellFormed = true := by
  decide +kernel

theorem test_StepKeepsTheInvariant_hypotheses : Sys2Proof.Machine.Inv live ∧ ∃ t, step live = .next t := by
  refine ⟨?_, _, rfl⟩
  unfold Sys2Proof.Machine.Inv
  decide +kernel

theorem test_CommandsLeaveTheQueueInOrder_hypotheses :
    ∃ t, ({ live with pending := [.alignDrive, .hack 0] } : State).pending = .alignDrive :: [.hack 0]
      ∧ step { live with pending := [.alignDrive, .hack 0] } = .next t ∧ 1 ≤ [Instr.alignDrive, .hack 0].length :=
  ⟨_, rfl, rfl, by decide⟩

theorem test_RegionSignalsReachTwoPinsAtMost_hypotheses :
    regionSelects { live with dbg := { snd := [(1, 3), (2, 3)] } } ≤ 2 ∧ (3#32).extractLsb' 0 2 = 3#2
      ∧ regionPins { live with dbg := { snd := [(1, 3), (2, 3)] } } 0 = 2 := by
  decide +kernel

theorem test_IdcodeNamesPartAndMaker_hypotheses :
    mayScan false lh3 = true ∧ inChain lh3 32 = true ∧ inChain lh3 0 = true ∧ extDrives live = false
      ∧ ({ live with dbg := { trst := false } } : State).dbg.trst = false := by
  decide +kernel

/-! ### Results worked out by hand from the rules -/

/-- Core 0/0/0 runs at word 5 with the given registers and scratchpad bytes. -/
def at5 (x : Tbl Word) (a : Tbl Word) (m : Mem) : State := with0 { run0 with pc := 5, sreg := x, areg := a, spad := m }

/-- Register `r` and the program counter of core 0/0/0 in the state in which a command ends. -/
def leaves (i : Instr) (s : State) (r : BitVec 5) (v : Word) (pc : BitVec 12) : Bool :=
  ends i s (fun t => decide (sGet (getCore t 0) r = v) && decide ((getCore t 0).pc = pc))

/-- 0xFFFF_FFFF + 2 = 1 modulo 2^32 (R48). -/
theorem test_add_wraps : leaves (.add c0 (fr 3 1 2)) (at5 [(1, 0xFFFFFFFF), (2, 2)] [] []) 3 1 6 = true := by decide +kernel

/-- A shift by sb[4:0]: 33 shifts by 1. -/
theorem test_sll_takes_five_bits : leaves (.sll c0 (fr 3 1 2)) (at5 [(1, 0x80000001), (2, 33)] [] []) 3 2 6 = true := by decide +kernel

/-- The sign goes in from the top. -/
theorem test_sra_keeps_the_sign : leaves (.sra c0 (fr 1 1 2)) (at5 [(1, 0x80000000), (2, 4)] [] []) 1 0xF8000000 6 = true := by
  decide +kernel

/-- −1 × 2 = −2: its high word is all ones; unsigned it is 1. -/
theorem test_mulh_is_signed : leaves (.mulh c0 (fr 3 1 2)) (at5 [(1, 0xFFFFFFFF), (2, 2)] [] []) 3 0xFFFFFFFF 6 = true := by decide +kernel

theorem test_mulhu_is_unsigned : leaves (.mulhu c0 (fr 3 1 2)) (at5 [(1, 0xFFFFFFFF), (2, 2)] [] []) 3 1 6 = true := by decide +kernel

/-- A write of s0 is ignored (R46). -/
theorem test_s0_stays_zero : leaves (.add c0 (fr 0 1 1)) (at5 [(1, 7)] [] []) 0 0 6 = true := by decide +kernel

/-- 1.0 + 2^−24 is a tie and rounds to the even 1.0; 1.0 + 1.0 = 2.0 (R47). -/
theorem test_fadd_ties_to_even : leaves (.fadd c0 (fr 3 1 2)) (at5 [(1, 0x3F800000), (2, 0x33800000)] [] []) 3 0x3F800000 6 = true := by
  decide +kernel

/-- LH sign-extends 0x8001; with pm = 0b10 the address wraps in its 16 KiB page: 0x3FFE + 2 gives 0 (R60). -/
theorem test_lh_extends_and_wraps :
    ends (.lh c0 { d := 3, x := 1, pm := 2, pr := 0, off := 1 }) (at5 [] [(1, 0x3FFE)] [(0x3FFE, 0x01), (0x3FFF, 0x80)])
      (fun t => decide (sGet (getCore t 0) 3 = 0xFFFF8001) && decide (aGet (getCore t 0) 1 = 0)) = true := by decide +kernel

/-- An address that is no multiple of 4 raises ALIGN, code 3, at the word of the load (R54, R61). -/
theorem test_lw_misaligned :
    ends (.lw c0 { d := 3, x := 1, pm := 0, pr := 0, off := 0 }) (at5 [(3, 9)] [(1, 2)] [])
      (fun t => decide ((getCore t 0).fault = { code := 3, pc := 5, valid := true, tide := 0 })
        && decide (sGet (getCore t 0) 3 = 9) && decide ((getCore t 0).run = .stopped)) = true := by decide +kernel

/-- A taken branch goes to its own index plus off; one that is not goes on. -/
theorem test_beq_taken : leaves (.beq c0 { a := 0, b := 0, off := 0xFFFD }) (at5 [] [] []) 0 0 2 = true := by decide +kernel

theorem test_beq_not_taken : leaves (.beq c0 { a := 1, b := 0, off := 0xFFFD }) (at5 [(1, 1)] [] []) 1 1 6 = true := by decide +kernel

/-- JAL leaves its own index plus 1. -/
theorem test_jal_links : leaves (.jal c0 { d := 4, a := 0, imm := 10 }) (at5 [] [] []) 4 6 15 = true := by decide +kernel

/-- The last word of a loop body takes the back edge while iterations are left (R58). -/
theorem test_back_edge :
    ends (.add c0 (fr 0 0 0)) (with0 looping)
      (fun t => decide ((getCore t 0).pc = 2 ∧ (getCore t 0).loop0.map (·.count) = some 2)) = true := by decide +kernel

/-- Lanes 0 and 16 alone are enabled and hold 1.0 and 2.0: the sum is 3.0 (R62). -/
theorem test_vsum_of_two_lanes :
    ends (.vsum c0 { d := 3, a := 1, b := 0, pr := 1 })
      (with0 { run0 with vreg := [(32, 0x3F800000), (33, 0x41200000), (48, 0x40000000)], preg := [(1, 0x00010001)] })
      (fun t => decide (sGet (getCore t 0) 3 = 0x40400000)) = true := by decide +kernel

/-- The check value of the nine bytes "123456789" under CRC-32C, from outside the spec (log 185). -/
theorem test_crc32c_check_value : crc32c [0x31, 0x32, 0x33, 0x34, 0x35, 0x36, 0x37, 0x38, 0x39] = 0xE3069283#32 := by decide +kernel

/-- The reads of the worked example of "Set-up Register Reference" by function 1: RING_CTL, VEC_MOD, ENG_STAT, ENG_TIDE_CFG and
ENG_DEADLINE of SE0, the block of TE0, and that of the CE, which it does not own. -/
theorem test_worked_example_of_bar0_reads :
    let g : Engine := { owner := 1, state := 3, params := { ckptValid := true } }
    let s : State :=
      { live with
        engines := [(0, g), (8, { owner := 1 })]
        pairs := [(pairKey 1 0, { ctl := 0x00064161 })]
        vecs := [(2049, { time := 100 })] }
    barReadWord s 1 0x1018 = 0x00064161 ∧ barReadWord s 1 0x4004 = 0x0000C800 ∧ barReadWord s 1 0x400 = 0x0000000B
      ∧ barReadWord s 1 0x40C = 0x0064000A ∧ barReadWord s 1 0x410 = 0x00036000 ∧ barReadWord s 1 0x600 = 0x00000008
      ∧ barReadWord s 1 0x700 = 0 ∧ barReadWord s 1 0x20100 = 0 := by decide +kernel
end Sys2Proof.Tests
end

section
/-! SUPPORT. What a run of one update over a list leaves of a state, and what stays of a core, a region or an engine when an
update keeps a part of it. -/

namespace Sys2Proof.Machine

open Sys2Proof

section Runs
variable {α β : Type} {f : α → State → State}

/-- What every update of a run keeps, the run keeps. -/
theorem forAll_keeps (π : State → β) (h : ∀ x t, π (f x t) = π t) (xs : List α) (s : State) : π (forAll xs f s) = π s := by
  induction xs generalizing s with
  | nil => rfl
  | cons x xs ih => exact (ih (f x s)).trans (h x s)

/-- A fact that every update of a run preserves still holds after it. -/
theorem forAll_preserves (P : State → Prop) (keep : ∀ x t, P t → P (f x t)) (xs : List α) {s : State} (hs : P s) :
    P (forAll xs f s) := by
  induction xs generalizing s with
  | nil => exact hs
  | cons x xs ih => exact ih (keep x s hs)

/-- A fact that the update of one element brings about, and that no update ends, holds after the run. -/
theorem forAll_establishes (P : State → Prop) {x : α} (set : ∀ t, P (f x t)) (keep : ∀ y t, P t → P (f y t)) {xs : List α}
    (hx : x ∈ xs) (s : State) : P (forAll xs f s) := by
  induction xs generalizing s with
  | nil => cases hx
  | cons y ys ih =>
    cases hx with
    | head => exact forAll_preserves P keep ys (set s)
    | tail _ h => exact ih h (f y s)

end Runs

section Parts
variable {β : Type}

/-- A part of a core that an update of cores keeps reads as before, at every core. -/
theorem getCore_updCore_part (g : Core → β) {f : Core → Core} (h : ∀ k, g (f k) = g k) (s : State) (k j : Nat) :
    g (getCore (updCore s k f) j) = g (getCore s j) := by
  by_cases hj : j = k
  · rw [hj, getCore_updCore, h]
  · rw [getCore_updCore_ne s k j f hj]

/-- A part of a region that an update of regions keeps reads as before, at every region. -/
theorem getRegion_updRegion_part (g : Region → β) {f : Region → Region} (h : ∀ r, g (f r) = g r) (s : State) (n m : Nat) :
    g (getRegion (updRegion s n f) m) = g (getRegion s m) := by
  by_cases hm : m = n
  · rw [hm, getRegion_updRegion, h]
  · rw [getRegion_updRegion_ne s n m f hm]

/-- A part of an engine that an update of engines keeps reads as before, at every engine. -/
theorem getEngine_updEngine_part (g : Engine → β) {f : Engine → Engine} (h : ∀ x, g (f x) = g x) (s : State) (e k : Nat) :
    g (getEngine (updEngine s e f) k) = g (getEngine s k) := by
  by_cases hk : k = e
  · rw [hk, getEngine_updEngine, h]
  · rw [getEngine_updEngine_ne s e k f hk]

end Parts

section Brought

/-- What an update of cores always brings about still holds of a core where it held. -/
theorem getCore_updCore_of (P : Core → Prop) {f : Core → Core} (hf : ∀ c, P (f c)) {s : State} {j : Nat} (h : P (getCore s j))
    (k : Nat) : P (getCore (updCore s k f) j) := by
  by_cases hj : j = k
  · rw [hj, getCore_updCore]
    exact hf _
  · rw [getCore_updCore_ne s k j f hj]
    exact h

/-- What an update of cores always brings about holds of every core updated. -/
theorem getCore_forAll_updCore_of_mem {ks : List Nat} {k : Nat} (h : k ∈ ks) {f : Core → Core} (P : Core → Prop)
    (hf : ∀ c, P (f c)) (s : State) : P (getCore (forAll ks (fun k u => updCore u k f) s) k) :=
  forAll_establishes (fun t => P (getCore t k)) (fun t => by rw [getCore_updCore]; exact hf _)
    (fun y _ ht => getCore_updCore_of P hf ht y) h s

/-- What an update of regions always brings about holds of every region updated. -/
theorem getRegion_forAll_updRegion_of_mem {ns : List Nat} {m : Nat} (h : m ∈ ns) {f : Region → Region} (P : Region → Prop)
    (hf : ∀ r, P (f r)) (s : State) : P (getRegion (forAll ns (fun n u => updRegion u n f) s) m) :=
  forAll_establishes (fun t => P (getRegion t m)) (fun t => by rw [getRegion_updRegion]; exact hf _)
    (fun n t ht => by
      by_cases hm : m = n
      · rw [hm, getRegion_updRegion]
        exact hf _
      · rw [getRegion_updRegion_ne t n m f hm]
        exact ht) h s

end Brought

/-- The state without its cores, regions and routers: all that an image load writes in the mesh is in those. -/
def offMesh (s : State) : State := { s with cores := [], regions := [], routers := [] }

theorem getCtr_of_cnt {s t : State} (h : t.cnt = s.cnt) (u n : Nat) : getCtr t u n = getCtr s u n := by
  rw [getCtr, h, getCtr]

/-- Logical cores keep their carriers where the slides of the rows stay (R20). -/
theorem carrier_of_slides {s t : State} (h : ∀ n, (getRegion t n).slide = (getRegion s n).slide) (id : Nat) :
    carrier t id = carrier s id := by
  simp only [carrier, pointOf, slideOf, h]

theorem carrier_of_regions {s t : State} (h : t.regions = s.regions) (id : Nat) : carrier t id = carrier s id :=
  carrier_of_slides (fun n => by rw [getRegion, h, getRegion]) id

end Sys2Proof.Machine
end

section
/-! SUPPORT. How a command of an engine starts and ends: what is begun, what its completion leaves, and what a refused load is. -/

namespace Sys2Proof.Machine

open Sys2Proof

/-! ### The end of a command -/

/-- A completion that is queued changes the ring pairs only. -/
theorem queueCpl_frame (c : Cpl) (s : State) : queueCpl c s = { s with pairs := (queueCpl c s).pairs } := by
  unfold queueCpl
  dsimp only
  split <;> rfl

/-- What the end of a command can do: nothing where the command is not there; else it changes the commands of the engine, and
the ring pairs. -/
theorem endJob_effect (e j code : Nat) (result : List Byte) (s : State) :
    endJob e j code result s = s ∨ ∃ (js : List Job → List Job) (ps : Tbl Pair),
      endJob e j code result s = { updEngine s e (fun g => { g with jobs := js g.jobs }) with pairs := ps } := by
  have drops (c : Cpl) : ∃ (js : List Job → List Job) (ps : Tbl Pair),
      queueCpl c (updEngine s e (fun g => { g with jobs := g.jobs.eraseIdx j }))
        = { updEngine s e (fun g => { g with jobs := js g.jobs }) with pairs := ps } :=
    ⟨fun js => js.eraseIdx j, _, queueCpl_frame c _⟩
  unfold endJob finishJob
  cases getJob s e j with
  | none => exact .inl rfl
  | some x =>
    right
    cases hl : x.lst with
    | none => simpa only [hl] using drops _
    | some l =>
      cases hr : l.rest with
      | nil => simpa only [hl, hr] using drops _
      | cons c cs =>
        simp only [hl, hr]
        split
        · exact drops _
        · split
          · exact drops _
          · exact ⟨fun js => js.modify j _, s.pairs, rfl⟩

/-- Ending a command changes the engines and the ring pairs only. -/
theorem endJob_frame (e j code : Nat) (result : List Byte) (s : State) :
    endJob e j code result s = { s with engines := (endJob e j code result s).engines, pairs := (endJob e j code result s).pairs } := by
  obtain h | ⟨js, ps, h⟩ := endJob_effect e j code result s
  · rw [h]
  · rw [h]
    rfl

/-- A part of an engine beside its commands reads as before when a command ends. -/
theorem getEngine_endJob_part {β : Type} (p : Engine → β) (hp : ∀ g js, p { g with jobs := js } = p g)
    (e j code : Nat) (result : List Byte) (s : State) (k : Nat) :
    p (getEngine (endJob e j code result s) k) = p (getEngine s k) := by
  obtain h | ⟨js, ps, h⟩ := endJob_effect e j code result s
  · rw [h]
  · rw [h]
    exact getEngine_updEngine_part p (fun g => hp g _) s e k

/-- A command that is no part of a list, of a function that is not under an FLR, leaves its engine with one completion (R337). -/
theorem completes_endJob {s : State} {e j : Nat} {x : Job} (hx : getJob s e j = some x) (hl : x.lst = none)
    (hf : ((getFn s x.ticket.fn).resetBusy && (getFn s x.ticket.fn).flr) = false) (code : Nat) (result : List Byte) :
    Completes e j x code result 0xFFFF noTide s (endJob e j code result s) := by
  have h : endJob e j code result s =
      updPair (updEngine s e (fun g => { g with jobs := g.jobs.eraseIdx j })) (pairKey x.ticket.fn x.ticket.pair) (fun p =>
        { p with ready := p.ready ++ [{ ticket := x.ticket, status := code, unit := e, result := result }] }) := by
    simp only [endJob, finishJob, hx, hl, queueCpl]
    exact if_neg (by rw [show getFn (updEngine s e _) x.ticket.fn = getFn s x.ticket.fn from rfl, hf]; decide)
  constructor
  · rw [h]
    exact congrArg Engine.jobs (getEngine_updEngine s e (fun g => { g with jobs := g.jobs.eraseIdx j }))
  · rw [h, getPair_updPair]
    rfl

/-- A completion counted from a later state is one from an earlier state, where the rest of the engine's commands and the ring
pairs are the same. -/
theorem Completes.since {e j : Nat} {x y : Job} {code : Nat} {result : List Byte} {stream : Half} {tide : Word} {s s' t : State}
    (h : Completes e j y code result stream tide s' t) (ht : y.ticket = x.ticket)
    (hj : (getEngine s' e).jobs.eraseIdx j = (getEngine s e).jobs.eraseIdx j) (hp : s'.pairs = s.pairs) :
    Completes e j x code result stream tide s t := by
  obtain ⟨jobs, ready⟩ := h
  refine ⟨jobs.trans hj, ?_⟩
  rw [ht] at ready
  rw [ready, getPair, getPair, hp]

/-! ### The start of a command -/

/-- The command `x` as it stands once it has started. -/
def begunJob (s : State) (x : Job) : Job := { x with started := true, since := nowUs s, prog := .wait }

/-- The state in which a command of an engine has started. -/
def begun (s : State) (e j : Nat) : State := updJob s e j (begunJob s)

/-- The command that may start stands at its place. -/
theorem getJob_of_startable {s : State} {e j op : Nat} {x : Job} (h : startable s e j op = some x) : getJob s e j = some x := by
  cases hy : getJob s e j with
  | none => simp [startable, hy] at h
  | some y =>
    simp only [startable, hy, Option.ite_none_right_eq_some] at h
    exact h.2

/-- A command that is given starts. -/
theorem startJob_given {s : State} {e j op : Nat} {x : Job} (h : Given s e j op x) (act : Job → State → State) :
    startJob e j op act s = act x (begun s e j) := by
  obtain ⟨hs, -, hr, ha, -⟩ := h
  simp only [startJob, hs, hr, ha, Bool.not_true, Bool.false_eq_true, if_false]
  rfl

theorem getJob_begun {s : State} {e j : Nat} {x : Job} (h : getJob s e j = some x) :
    getJob (begun s e j) e j = some (begunJob s x) := by
  unfold getJob at h ⊢
  rw [begun, updJob, getEngine_updEngine]
  simp [h]

/-- The other commands of the engine are the same when a command has started. -/
theorem jobs_begun (s : State) (e j : Nat) : (getEngine (begun s e j) e).jobs.eraseIdx j = (getEngine s e).jobs.eraseIdx j := by
  rw [begun, updJob, getEngine_updEngine]
  exact List.eraseIdx_modify_of_eq _ _ _

/-- A command that starts and ends in one step completes. -/
theorem completes_begun {s : State} {e j op : Nat} {x : Job} (h : Given s e j op x) (code : Nat) (result : List Byte) :
    Completes e j x code result 0xFFFF noTide s (endJob e j code result (begun s e j)) := by
  obtain ⟨hs, hl, -, -, hf⟩ := h
  have hx := getJob_begun (getJob_of_startable hs)
  exact (completes_endJob hx hl hf code result).since rfl (jobs_begun s e j) rfl

/-- A part of an engine beside its commands reads as before when a command has started. -/
theorem getEngine_begun_part {β : Type} (p : Engine → β) (hp : ∀ g js, p { g with jobs := js } = p g) (s : State) (e j k : Nat) :
    p (getEngine (begun s e j) k) = p (getEngine s k) :=
  getEngine_updEngine_part p (fun g => hp g _) s e k

/-! ### A load that is refused -/

/-- A refusal is counted and logged, and ends the command. -/
theorem refuseLoad_eq (e j st cause off us : Nat) (s : State) : ∃ u r,
    refuseLoad e j st cause off us s = endJob e j st (loadResult cause off us) (bump (uEngine 12) ceRefused (logAt u r s)) :=
  ⟨_, _, rfl⟩

/-- A refusal changes the engines, the ring pairs, the counters and the log queues only. -/
theorem refuseLoad_frame (e j st cause off us : Nat) (s : State) :
    refuseLoad e j st cause off us s = { s with
      engines := (refuseLoad e j st cause off us s).engines
      pairs := (refuseLoad e j st cause off us s).pairs
      cnt := (refuseLoad e j st cause off us s).cnt
      logq := (refuseLoad e j st cause off us s).logq } := by
  obtain ⟨u, r, h⟩ := refuseLoad_eq e j st cause off us s
  rw [h, endJob_frame]
  rfl

/-- A refusal is counted (R363). -/
theorem gains_refuseLoad (e j st cause off us : Nat) (s : State) :
    Gains (uEngine 12) ceRefused 1 s (refuseLoad e j st cause off us s) := by
  obtain ⟨u, r, h⟩ := refuseLoad_eq e j st cause off us s
  rw [Gains, h, endJob_frame]
  exact getCtr_bumpBy (uEngine 12) ceRefused 1 (logAt u r s)

/-- The command of a refused load completes. -/
theorem completes_refuseLoad {s : State} {e j : Nat} {x : Job} (hx : getJob s e j = some x) (hl : x.lst = none)
    (hf : ((getFn s x.ticket.fn).resetBusy && (getFn s x.ticket.fn).flr) = false) (st cause off us : Nat) :
    Completes e j x st (loadResult cause off us) 0xFFFF noTide s (refuseLoad e j st cause off us s) := by
  obtain ⟨u, r, h⟩ := refuseLoad_eq e j st cause off us s
  rw [h]
  exact (completes_endJob (s := bump (uEngine 12) ceRefused (logAt u r s)) hx hl hf st _).since rfl rfl rfl

end Sys2Proof.Machine
end

section
/-! SUPPORT. The judgement of an image does not depend on the commands that its engine holds, so it is the same once the load has
started. -/

namespace Sys2Proof.Machine

open Sys2Proof

section Judgement
variable (s : State) (e j : Nat)

theorem imageOfCore_begun (core : BitVec 18) : imageOfCore (begun s e j) core = imageOfCore s core := by
  have h (k : Nat) : getCore (begun s e j) k = getCore s k := rfl
  have hc : carrier (begun s e j) core.toNat = carrier s core.toNat := rfl
  unfold imageOfCore
  rw [h, hc]
  cases (getCore s (carrier s core.toNat)).engine with
  | none => rfl
  | some k => exact getEngine_begun_part Engine.image (fun _ _ => rfl) s e j k.val

theorem egressBridge_begun (src : BitVec 18) (idx : Nat) : egressBridge (begun s e j) src idx = egressBridge s src idx := by
  simp only [egressBridge, imageOfCore_begun]

theorem destOf_begun (key : Nat) (p : Packet) : destOf (begun s e j) key p = destOf s key p := by
  unfold destOf
  simp only [egressBridge_begun]
  rfl

theorem atSource_begun (key : Nat) (p : Packet) : atSource (begun s e j) key p = atSource s key p := by
  simp only [atSource, cornerOf, destOf_begun]

theorem pathFrom_begun (h : Hops) (d : Dest) (n : Nat) (sb : Sideband) (k : Nat) :
    pathFrom (begun s e j) h d n sb k = pathFrom s h d n sb k := by
  induction n generalizing sb k with
  | zero => rfl
  | succ n ih =>
    have hr : routeStep (begun s e j) h d sb k = routeStep s h d sb k := rfl
    simp only [pathFrom, hr, ih]

theorem slotPath_begun (h : Hops) (key : Nat) (sl : Slot) : slotPath (begun s e j) h key sl = slotPath s h key sl := by
  have hi : coreIdOf (begun s e j) key = coreIdOf s key := rfl
  have hb : slotSideband (begun s e j) key sl 1 false 0 = slotSideband s key sl 1 false 0 := rfl
  simp only [slotPath, atSource_begun, destOf_begun, pathFrom_begun, hi, hb]

theorem chanHops_begun (xs : List (Nat × ShoreRec)) (c : ChanRec) : chanHops (begun s e j) xs c = chanHops s xs c := by
  have hh : hopOf (begun s e j) = hopOf s := rfl
  have hc : carrier (begun s e j) c.src.toNat = carrier s c.src.toNat := rfl
  have hb (b a : Nat) : bridgeDest (begun s e j) b a = bridgeDest s b a := rfl
  have hs (key : Nat) (sl : Slot) : slotSideband (begun s e j) key sl 1 false 0 = slotSideband s key sl 1 false 0 := rfl
  simp only [chanHops, pathFrom_begun, slotPath_begun, hh, hc, hb, hs]

theorem loadedQueues_begun (id : Nat) : loadedQueues (begun s e j) id = loadedQueues s id := by
  have h (k : Nat) : (getEngine (begun s e j) k).image = (getEngine s k).image :=
    getEngine_begun_part Engine.image (fun _ _ => rfl) s e j k
  simp only [loadedQueues, h]

theorem chanRefusal_begun (fn : Nat) (cs : List (Nat × CoreRec)) (xs : List (Nat × ShoreRec)) (stage : List Nat) (c : ChanRec) :
    chanRefusal (begun s e j) fn cs xs stage c = chanRefusal s fn cs xs stage c := by
  unfold chanRefusal
  simp only [loadedQueues_begun]
  rfl

theorem chanFindings_begun (fn : Nat) (rd : Reader) (gs : List (List Nat)) :
    chanFindings (begun s e j) fn rd gs = chanFindings s fn rd gs := by
  have ho : ownModule (begun s e j) = ownModule s := rfl
  simp only [chanFindings, chanRefusal_begun, chanHops_begun, ho]

/-- What pass 1 finds in an image is the same once the load has started. -/
theorem imageFindings_begun (fn deadline : Nat) (rd : Reader) (len : Nat) (sum : Bool) :
    imageFindings (begun s e j) fn deadline rd len sum = imageFindings s fn deadline rd len sum := by
  have hr : regionFindings (begun s e j) fn rd = regionFindings s fn rd := rfl
  have hm (gs : List (List Nat)) : mirrorFindings (begun s e j) rd gs = mirrorFindings s rd gs := rfl
  have hs (gs : List (List Nat)) : shoreFindings (begun s e j) rd gs = shoreFindings s rd gs := rfl
  simp only [imageFindings, chanFindings_begun, hr, hm, hs]

end Judgement

/-- The verdict of pass 1 on the image that a command `x` of engine `e` names: its status, CAUSE and OFFSET when it is refused. -/
def loadVerdict (s : State) (e : Nat) (x : Job) : Option (Nat × Nat × Nat) :=
  let rd := imageReader s (cmdNat x 8 8)
  let len := cmdNat x 0x10 4
  verdictOf (imageFindings s (jobFn x) (getEngine s e).params.deadline.toNat rd len
    (decide ((imageSum s (cmdNat x 8 8) len).toNat = rd (len - 4) 4)))

theorem loadVerdict_begun (s : State) (e j : Nat) (x : Job) : loadVerdict (begun s e j) e x = loadVerdict s e x := by
  have hd : (getEngine (begun s e j) e).params = (getEngine s e).params :=
    getEngine_begun_part Engine.params (fun _ _ => rfl) s e j e
  unfold loadVerdict
  rw [hd]
  simp only [imageFindings_begun]
  rfl

end Sys2Proof.Machine
end

section
/-! SUPPORT. What the parts of an image load write: the records of a region, its clearing, the multicast tree and the program flits. -/

namespace Sys2Proof.Machine

open Sys2Proof

/-! ### Off the mesh -/

@[simp] theorem offMesh_updCore (s : State) (k : Nat) (f : Core → Core) : offMesh (updCore s k f) = offMesh s := rfl
@[simp] theorem offMesh_updRegion (s : State) (n : Nat) (f : Region → Region) : offMesh (updRegion s n f) = offMesh s := rfl
@[simp] theorem offMesh_updRouter (s : State) (k : Nat) (f : Router → Router) : offMesh (updRouter s k f) = offMesh s := rfl

@[simp] theorem offMesh_clearRegion (n : Nat) (s : State) : offMesh (clearRegion n s) = offMesh s := by
  rw [clearRegion, offMesh_updRegion]
  exact forAll_keeps offMesh (fun k t => offMesh_updCore t k clearCore) (regionCores n) s

/-- A record of an object is written into its region, or is left out. -/
theorem syncCfgWrite_region (s : State) (n o : Nat) (kind : BitVec 3) (init : BitVec 16) :
    syncCfgWrite s n o kind init = s
      ∨ ∃ y : Region → Tbl SyncObj, syncCfgWrite s n o kind init = updRegion s n (fun r => { r with sync := y r }) := by
  unfold syncCfgWrite
  split
  · exact .inr ⟨_, rfl⟩
  · exact .inl rfl

@[simp] theorem offMesh_loadSyncs (im : Image) (n : Nat) (s : State) : offMesh (loadSyncs im n s) = offMesh s := by
  refine forAll_keeps offMesh (fun y t => ?_) _ s
  obtain h | ⟨_, h⟩ := syncCfgWrite_region t n y.obj y.kind y.init
  · rw [h]
  · rw [h, offMesh_updRegion]

/-- The cores of a region as `loadRecords` writes them: the records of its logical cores, then the partitions of its spares. -/
def loadCores (im : Image) (as' n : Nat) (s : State) : State :=
  forAll (List.range 32) (fun row t =>
    if pointOf t n row = 16 then updCore t (coreKey n row 16) (setPart (sparePart im n row)) else t)
    (forAll (regionIds im n) (fun id t => updCore t (carrier t id) (loadCore t im as' id)) s)

theorem loadRecords_eq (im : Image) (as' n : Nat) (s : State) :
    loadRecords im as' n s = updRegion (loadSyncs im n (loadCores im as' n s)) n (fun r =>
      { loadRoute im n r with recordCheck := crcRun r.recordCheck (recordBytes s im n) }) := rfl

theorem offMesh_loadCores (im : Image) (as' n : Nat) (s : State) : offMesh (loadCores im as' n s) = offMesh s := by
  refine (forAll_keeps offMesh (fun row t => ?_) _ _).trans (forAll_keeps offMesh (fun id t => offMesh_updCore t _ _) _ s)
  split
  · exact offMesh_updCore t _ _
  · rfl

@[simp] theorem offMesh_loadRecords (im : Image) (as' n : Nat) (s : State) : offMesh (loadRecords im as' n s) = offMesh s := by
  rw [loadRecords_eq, offMesh_updRegion, offMesh_loadSyncs, offMesh_loadCores]

@[simp] theorem offMesh_clearGroup (g : Nat) (s : State) : offMesh (clearGroup g s) = offMesh s :=
  forAll_keeps offMesh (fun k t => offMesh_updRouter t k _) _ s

@[simp] theorem offMesh_bindRegion (im : Image) (e n : Nat) (s : State) : offMesh (bindRegion im e n s) = offMesh s := by
  rw [bindRegion, offMesh_updRegion]
  exact forAll_keeps offMesh (fun id t => offMesh_updCore t _ _) (regionIds im n) s

/-! ### The tree of a load changes routers only -/

/-- The state without its routers. -/
def offRouters (s : State) : State := { s with routers := [] }

theorem offRouters_updRouter (s : State) (k : Nat) (f : Router → Router) : offRouters (updRouter s k f) = offRouters s := rfl

theorem offRouters_setGroup (g : Nat) (ns : List Nat) (s : State) : offRouters (setGroup g ns s) = offRouters s := by
  refine forAll_keeps offRouters (fun n t => ?_) ns s
  dsimp only
  split
  · rfl
  · rw [offRouters_updRouter]
    exact forAll_keeps offRouters (fun h u => offRouters_updRouter u _ _) _ t

theorem offRouters_clearGroup (g : Nat) (s : State) : offRouters (clearGroup g s) = offRouters s :=
  forAll_keeps offRouters (fun k t => offRouters_updRouter t k _) _ s

/-! ### Program flits -/

/-- The flits of an image's programs to region `n`. -/
def flitsTo (im : Image) (group : Option Nat) (n : Nat) : List Ctl :=
  (imageFlits im).map (fun f => .program n group f.2.1 f.2.2 f.1)

theorem sendPrograms_eq (im : Image) (group : Option Nat) (n : Nat) (s : State) :
    sendPrograms im group n s = { s with ctl := s.ctl ++ flitsTo im group n } := rfl

/-- Programs sent to several regions go out in their order, and nothing else changes. -/
theorem forAll_sendPrograms (im : Image) (group : Option Nat) (ns : List Nat) (s : State) :
    forAll ns (sendPrograms im group) s = { s with ctl := s.ctl ++ ns.flatMap (flitsTo im group) } := by
  induction ns generalizing s with
  | nil => simp [forAll]
  | cons n ns ih =>
    calc forAll (n :: ns) (sendPrograms im group) s
        = forAll ns (sendPrograms im group) (sendPrograms im group n s) := rfl
      _ = { s with ctl := s.ctl ++ (n :: ns).flatMap (flitsTo im group) } := by
        rw [ih, sendPrograms_eq]
        simp

/-! ### Held regions -/

/-- Whether a region is held for a load, and by which engine. -/
def holdOf (r : Region) : Bool × Option (Fin 8) := (r.held, r.heldBy)

theorem regions_loadCores (im : Image) (as' n : Nat) (s : State) : (loadCores im as' n s).regions = s.regions := by
  refine (forAll_keeps State.regions (fun row t => ?_) _ _).trans (forAll_keeps State.regions (fun id t => ?_) _ s)
  · split <;> rfl
  · rfl

theorem holdOf_loadSyncs (im : Image) (n m : Nat) (s : State) :
    holdOf (getRegion (loadSyncs im n s) m) = holdOf (getRegion s m) := by
  refine forAll_keeps (fun t => holdOf (getRegion t m)) (fun y t => ?_) _ s
  obtain h | ⟨_, h⟩ := syncCfgWrite_region t n y.obj y.kind y.init
  · rw [h]
  · rw [h]
    exact getRegion_updRegion_part holdOf (fun _ => by rfl) t n m

/-- The records of a load leave every region held as it was. -/
theorem holdOf_loadRecords (im : Image) (as' n m : Nat) (s : State) :
    holdOf (getRegion (loadRecords im as' n s) m) = holdOf (getRegion s m) := by
  rw [loadRecords_eq]
  refine (getRegion_updRegion_part holdOf (fun _ => by rfl) _ n m).trans ?_
  rw [holdOf_loadSyncs, getRegion, regions_loadCores, getRegion]

/-- Clearing a region leaves every region held as it was. -/
theorem holdOf_clearRegion (n m : Nat) (s : State) : holdOf (getRegion (clearRegion n s) m) = holdOf (getRegion s m) := by
  rw [clearRegion]
  refine (getRegion_updRegion_part holdOf (fun _ => by rfl) _ n m).trans ?_
  exact forAll_keeps (fun t => holdOf (getRegion t m)) (fun k t => by rfl) (regionCores n) s

/-! ### Stopped and cleared cores -/

/-- Whether a core runs, and its instruction store. -/
def runStore (k : Core) : Run × Tbl Word := (k.run, k.istore)

theorem runStore_loadCore (s : State) (im : Image) (as' id : Nat) (k : Core) : runStore (loadCore s im as' id k) = runStore k := by
  unfold loadCore
  split <;> rfl

theorem cores_loadSyncs (im : Image) (n : Nat) (s : State) : (loadSyncs im n s).cores = s.cores := by
  refine forAll_keeps State.cores (fun y t => ?_) _ _
  obtain h | ⟨_, h⟩ := syncCfgWrite_region t n y.obj y.kind y.init
  · rw [h]
  · rw [h, updRegion_cores]

theorem runStore_loadCores (im : Image) (as' n k : Nat) (s : State) :
    runStore (getCore (loadCores im as' n s) k) = runStore (getCore s k) := by
  refine (forAll_keeps (fun t => runStore (getCore t k)) (fun row t => ?_) _ _).trans
    (forAll_keeps (fun t => runStore (getCore t k)) (fun id t => ?_) _ s)
  · split
    · exact getCore_updCore_part runStore (fun _ => by rfl) t _ k
    · rfl
  · exact getCore_updCore_part runStore (fun c => runStore_loadCore t im as' id c) t _ k

/-- The records of a load leave every core running or stopped as it was, and its instruction store. -/
theorem runStore_loadRecords (im : Image) (as' n k : Nat) (s : State) :
    runStore (getCore (loadRecords im as' n s) k) = runStore (getCore s k) := by
  rw [← runStore_loadCores im as' n k s, loadRecords_eq, getCore, updRegion_cores, cores_loadSyncs, getCore]

/-- A core that is stopped with an empty instruction store, as a load clears it (R177). -/
def Cleared (k : Nat) (s : State) : Prop := runStore (getCore s k) = (.stopped, [])

theorem cleared_updCore {k : Nat} (y : Nat) {s : State} (h : Cleared k s) : Cleared k (updCore s y clearCore) :=
  getCore_updCore_of (fun c => runStore c = (.stopped, [])) (fun _ => by rfl) h y

theorem cleared_clearRegion_iff (n k : Nat) (s : State) :
    Cleared k (clearRegion n s) ↔ Cleared k (forAll (regionCores n) (fun y t => updCore t y clearCore) s) := by
  rw [Cleared, clearRegion, getCore, updRegion_cores]
  rfl

theorem cleared_clearRegion_of_mem {n k : Nat} (hk : k ∈ regionCores n) (s : State) : Cleared k (clearRegion n s) :=
  (cleared_clearRegion_iff n k s).2
    (getCore_forAll_updCore_of_mem hk (fun c => runStore c = (.stopped, [])) (fun _ => by rfl) s)

theorem Cleared.clearRegion {k : Nat} (n : Nat) {s : State} (h : Cleared k s) : Cleared k (clearRegion n s) :=
  (cleared_clearRegion_iff n k s).2 (forAll_preserves (Cleared k) (fun y _ h => cleared_updCore y h) (regionCores n) h)

theorem cleared_loadRecords_iff (im : Image) (as' n k : Nat) (s : State) : Cleared k (loadRecords im as' n s) ↔ Cleared k s := by
  rw [Cleared, runStore_loadRecords, Cleared]

end Sys2Proof.Machine
end

section
/-! SUPPORT. What an image load leaves when it starts (R177, R178). -/

namespace Sys2Proof.Machine

open Sys2Proof

/-- Step 1 of R177: the engine is LOADING, and the stage and reserve regions are held for it. -/
def claimRegions (e : Nat) (im : Image) (s : State) : State :=
  forAll (im.stage ++ im.reserve) (fun n t => updRegion t n (fun r => { r with held := true, heldBy := some (Fin.ofNat 8 e) }))
    (updEngine (forAll (im.stage ++ im.reserve) abandonTest s) e (fun g => { g with state := 1 }))

/-- Steps 3 and 5 of R177 at every stage region: cleared, and its records written. -/
def fillRegions (im : Image) (s : State) : State :=
  forAll im.stage (fun n t => loadRecords im n n (clearRegion n t)) s

theorem abandonTest_keeps (n : Nat) (s : State) : (abandonTest n s).engines = s.engines ∧ (abandonTest n s).ctl = s.ctl := by
  unfold abandonTest
  split
  · exact ⟨rfl, rfl⟩
  · rename_i f _
    have he := forAll_keeps State.engines (f := fun k u => updCore u k endTarget) (fun k u => updCore_engines u k endTarget) f.cores s
    have hc := forAll_keeps State.ctl (f := fun k u => updCore u k endTarget) (fun k u => updCore_ctl u k endTarget) f.cores s
    exact ⟨he, hc⟩

theorem claimRegions_state (e : Nat) (im : Image) (s : State) : (getEngine (claimRegions e im s) e).state = 1 := by
  rw [claimRegions, getEngine, forAll_keeps State.engines (fun n t => by rfl)]
  exact congrArg Engine.state (getEngine_updEngine _ e _)

theorem claimRegions_ctl (e : Nat) (im : Image) (s : State) : (claimRegions e im s).ctl = s.ctl := by
  rw [claimRegions, forAll_keeps State.ctl (fun n t => by rfl), updEngine_ctl]
  exact forAll_keeps State.ctl (fun n t => (abandonTest_keeps n t).2) _ s

theorem claimRegions_holds {e m : Nat} {im : Image} (hm : m ∈ im.stage ++ im.reserve) (s : State) :
    holdOf (getRegion (claimRegions e im s) m) = (true, some (Fin.ofNat 8 e)) :=
  getRegion_forAll_updRegion_of_mem hm (fun r => holdOf r = (true, some (Fin.ofNat 8 e))) (fun _ => by rfl) _

theorem offMesh_fillRegions (im : Image) (s : State) : offMesh (fillRegions im s) = offMesh s :=
  forAll_keeps offMesh (fun n t => by rw [offMesh_loadRecords, offMesh_clearRegion]) im.stage s

theorem holdOf_fillRegions (im : Image) (m : Nat) (s : State) : holdOf (getRegion (fillRegions im s) m) = holdOf (getRegion s m) :=
  forAll_keeps (fun t => holdOf (getRegion t m)) (fun n t => by rw [holdOf_loadRecords, holdOf_clearRegion]) im.stage s

/-- Every core of a stage region is cleared. -/
theorem cleared_fillRegions {im : Image} {m k : Nat} (hm : m ∈ im.stage) (hk : k ∈ regionCores m) (s : State) :
    Cleared k (fillRegions im s) :=
  forAll_establishes (Cleared k) (fun t => by exact (cleared_loadRecords_iff im m m k _).2 (cleared_clearRegion_of_mem hk t))
    (fun n _ h => (cleared_loadRecords_iff im n n k _).2 (h.clearRegion n)) hm s

/-- The mesh as a load leaves it before the flits are sent: claimed, filled, and the tree of its group set. -/
def meshLoaded (e : Nat) (im : Image) (s : State) : State :=
  setGroup (freeGroup s) im.stage (fillRegions im (claimRegions e im s))

theorem offRouters_meshLoaded (e : Nat) (im : Image) (s : State) :
    offRouters (meshLoaded e im s) = offRouters (fillRegions im (claimRegions e im s)) :=
  offRouters_setGroup _ _ _

theorem offMesh_meshLoaded (e : Nat) (im : Image) (s : State) : offMesh (meshLoaded e im s) = offMesh (claimRegions e im s) :=
  (congrArg (fun t : State => { t with cores := [], regions := [] }) (offRouters_meshLoaded e im s)).trans
    (offMesh_fillRegions im _)

/-- A load that starts is the loaded mesh, with the flits of every program on their way to every stage region on the group that
was free. -/
theorem startLoad_eq (e : Nat) (x : Job) (im : Image) (s : State) :
    startLoad e x im s = { meshLoaded e im s with
      ctl := (meshLoaded e im s).ctl ++ im.stage.flatMap (flitsTo im (some (freeGroup s)))
      load := (startLoad e x im s).load } :=
  congrArg (fun t : State => { t with load := (startLoad e x im s).load })
    (forAll_sendPrograms im (some (freeGroup s)) im.stage (meshLoaded e im s))

theorem startLoad_load (e : Nat) (x : Job) (im : Image) (s : State) : ∃ l, (startLoad e x im s).load = some l ∧ l.image = im
    ∧ l.eng = e ∧ l.ticket = x.ticket ∧ l.confirmed = [] ∧ l.resent = [] :=
  ⟨_, rfl, rfl, rfl, rfl, rfl, rfl⟩

theorem startLoad_state (e : Nat) (x : Job) (im : Image) (s : State) : (getEngine (startLoad e x im s) e).state = 1 := by
  have he := congrArg State.engines (offMesh_meshLoaded e im s)
  rw [startLoad_eq]
  exact (congrArg (fun g => (tget Engine.init g e).state) he).trans (claimRegions_state e im s)

theorem startLoad_holds {e m : Nat} {im : Image} (hm : m ∈ im.stage ++ im.reserve) (x : Job) (s : State) :
    holdOf (getRegion (startLoad e x im s) m) = (true, some (Fin.ofNat 8 e)) := by
  have hr := congrArg State.regions (offRouters_meshLoaded e im s)
  rw [startLoad_eq]
  exact (congrArg (fun g => holdOf (tget Region.init g m)) hr).trans
    ((holdOf_fillRegions im m _).trans (claimRegions_holds hm s))

theorem startLoad_clears {im : Image} {m k : Nat} (hm : m ∈ im.stage) (hk : k ∈ regionCores m) (e : Nat) (x : Job) (s : State) :
    Cleared k (startLoad e x im s) := by
  have hc := congrArg State.cores (offRouters_meshLoaded e im s)
  rw [startLoad_eq]
  exact (congrArg (fun g => runStore (tget Core.init g k)) hc).trans (cleared_fillRegions hm hk _)

theorem startLoad_ctl (e : Nat) (x : Job) (im : Image) (s : State) :
    (startLoad e x im s).ctl = s.ctl ++ im.stage.flatMap (flitsTo im (some (freeGroup s))) := by
  have hc := congrArg State.ctl (offMesh_meshLoaded e im s)
  rw [startLoad_eq]
  exact congrArg (· ++ im.stage.flatMap (flitsTo im (some (freeGroup s)))) (hc.trans (claimRegions_ctl e im s))

/-! ### The command IMAGE_LOAD -/

section Given
variable {s : State} (hc : clocksRun s = true) (hl : s.load = none) {e : Fin 8} {j : Nat} {x : Job} (h : Given s e.val j 0x10 x)
include hc hl h

/-- An address that is no multiple of 64 is refused before the image is read. -/
theorem exec_imageLoad_misaligned (ha : cmdNat x 8 8 % 64 ≠ 0) (err : Bool) :
    exec (.imageLoad e j err) s = .next (endJob e.val j stRange (loadResult 0 0xFFFFFFFF 0) (begun s e.val j)) := by
  rw [exec_imageLoad, execImageLoad, clocked, if_pos hc, loadCmd, hl]
  simp only [Option.isSome_none, Bool.false_eq_true, if_false, startJob_given h, if_pos ha]

/-- A host read that fails refuses the image with CAUSE 16. -/
theorem exec_imageLoad_unread (ha : cmdNat x 8 8 % 64 = 0) :
    exec (.imageLoad e j true) s = .next (refuseLoad e.val j stBad 16 0xFFFFFFFF 0 (begun s e.val j)) := by
  rw [exec_imageLoad, execImageLoad, clocked, if_pos hc, loadCmd, hl]
  simp only [Option.isSome_none, Bool.false_eq_true, if_false, startJob_given h, ha, ne_eq, not_true_eq_false, readFail, if_true,
    Option.isSome_some, Option.getD_some]

/-- A finding of pass 1 refuses the image. -/
theorem exec_imageLoad_found (ha : cmdNat x 8 8 % 64 = 0) {st cause off : Nat} (hv : loadVerdict s e.val x = some (st, cause, off)) :
    exec (.imageLoad e j false) s = .next (refuseLoad e.val j st cause off 0 (begun s e.val j)) := by
  rw [← loadVerdict_begun s e.val j x, loadVerdict] at hv
  rw [exec_imageLoad, execImageLoad, clocked, if_pos hc, loadCmd, hl]
  simp only [Option.isSome_none, Bool.false_eq_true, if_false, startJob_given h, ha, ne_eq, not_true_eq_false, readFail, hv]

/-- An image without a finding is loaded. -/
theorem exec_imageLoad_starts (ha : cmdNat x 8 8 % 64 = 0) (hv : loadVerdict s e.val x = none) :
    exec (.imageLoad e j false) s =
      .next (startLoad e.val x (resolveImage s (cmdNat x 8 8) (cmdNat x 0x10 4)) (begun s e.val j)) := by
  rw [← loadVerdict_begun s e.val j x, loadVerdict] at hv
  rw [exec_imageLoad, execImageLoad, clocked, if_pos hc, loadCmd, hl]
  simp only [Option.isSome_none, Bool.false_eq_true, if_false, startJob_given h, ha, ne_eq, not_true_eq_false, readFail, hv]
  rfl

end Given

theorem exec_imageLoad_waits {s : State} (hl : s.load.isSome = true) (e : Fin 8) (j : Nat) (err : Bool) :
    exec (.imageLoad e j err) s = .next s := by
  rw [exec_imageLoad, execImageLoad, clocked, loadCmd, if_pos hl, ite_self]

/-- A refused load completes, is counted, and touches no region (R363). -/
theorem refuseLoad_given {s : State} {e j : Nat} {x : Job} (h : Given s e j 0x10 x) (st cause off : Nat) :
    let t := refuseLoad e j st cause off 0 (begun s e j)
    Completes e j x st (loadResult cause off 0) 0xFFFF noTide s t ∧ Gains (uEngine 12) ceRefused 1 s t
      ∧ t = { s with engines := t.engines, pairs := t.pairs, cnt := t.cnt, logq := t.logq } := by
  obtain ⟨hs, hl, -, -, hf⟩ := h
  have hx := getJob_begun (getJob_of_startable hs)
  refine ⟨(completes_refuseLoad hx hl hf st cause off 0).since rfl (jobs_begun s e j) rfl,
    gains_refuseLoad e j st cause off 0 (begun s e j), refuseLoad_frame e j st cause off 0 (begun s e j)⟩

end Sys2Proof.Machine
end

section
/-! SUPPORT. What a program flit writes (R178). -/

namespace Sys2Proof.Machine

open Sys2Proof

/-- An instruction store with the words `ws` written from word `first`. -/
def storeWords (first : Nat) (ws : List Word) (m : Tbl Word) : Tbl Word :=
  ws.zipIdx.foldl (fun m w => tset 0 m (first + w.2) w.1) m

theorem storeWords_cons (first : Nat) (w : Word) (ws : List Word) (m : Tbl Word) :
    storeWords first (w :: ws) m = storeWords (first + 1) ws (tset 0 m first w) := by
  simp only [storeWords, List.zipIdx_cons', List.foldl_cons, List.foldl_map]
  simp [Nat.add_comm, Nat.add_left_comm]

theorem tget_storeWords_out {first w : Nat} {ws : List Word} (h : w < first ∨ first + ws.length ≤ w) (m : Tbl Word) :
    tget 0 (storeWords first ws m) w = tget 0 m w := by
  induction ws generalizing first m with
  | nil => rfl
  | cons v ws ih =>
    rw [List.length_cons] at h
    rw [storeWords_cons, ih (by omega), tget_tset_ne _ _ _ _ _ (by omega)]

theorem tget_storeWords_in (first : Nat) (ws : List Word) (m : Tbl Word) (i : Nat) (h : i < ws.length) :
    tget 0 (storeWords first ws m) (first + i) = ws[i] := by
  induction ws generalizing first m i with
  | nil => cases h
  | cons v ws ih =>
    rw [storeWords_cons]
    cases i with
    | zero => rw [tget_storeWords_out (by omega)]; exact tget_tset_self 0 m first v
    | succ i =>
      rw [show first + (i + 1) = first + 1 + i by omega]
      exact ih (first + 1) (tset 0 m first v) i (by simpa using h)

/-- The words of a program flit written into a core. -/
def takeWords (first : Nat) (ws : List Word) (k : Core) : Core := { k with istore := storeWords first ws k.istore }

/-- Updating the carriers of logical cores is updating cores of keys that stand: no such update moves a slide point. -/
theorem forAll_carriers (ids : List Nat) (f : Core → Core) (s : State) :
    forAll ids (fun id u => updCore u (carrier u id) f) s = forAll (ids.map (carrier s)) (fun k u => updCore u k f) s := by
  induction ids generalizing s with
  | nil => rfl
  | cons id ids ih =>
    have hc : carrier (updCore s (carrier s id) f) = carrier s := funext (carrier_of_regions rfl)
    exact (ih (updCore s (carrier s id) f)).trans (by rw [hc]; rfl)

/-- A core that is none of those updated stays. -/
theorem getCore_forAll_updCore_of_notMem {ks : List Nat} {k : Nat} (h : k ∉ ks) (f : Core → Core) (s : State) :
    getCore (forAll ks (fun k u => updCore u k f) s) k = getCore s k := by
  induction ks generalizing s with
  | nil => rfl
  | cons x ks ih =>
    rw [List.mem_cons, not_or] at h
    exact (ih h.2 (updCore s x f)).trans (getCore_updCore_ne s x k f h.1)

/-! ### A program flit arrives -/

/-- The logical cores of a region whose record in the load's image names a program. -/
def flitTargets (l : Load) (n prog : Nat) : List Nat :=
  (regionIds l.image n).filter (fun id => (coreRecOf l.image id).any (fun r => decide (r.prog = prog)))

/-- The words of a flit in the cores of keys `ks`, where `rest` is still on its way. -/
def wordsTaken (ks : List Nat) (first : Nat) (ws : List Word) (rest : List Ctl) (s : State) : State :=
  forAll ks (fun k u => updCore u k (takeWords first ws)) { s with ctl := rest }

/-- A flit taken by the carriers of its targets, and counted into the check of its region. -/
def flitTaken (l : Load) (n first prog : Nat) (ws : List Word) (rest : List Ctl) (s : State) : State :=
  updRegion (wordsTaken ((flitTargets l n prog).map (carrier s)) first ws rest s) n (fun r =>
    { r with programCheck := crcRun r.programCheck (flitBytes prog first ws) })

/-- The first program flit on its way to a region is taken. -/
theorem exec_programFlit_takes {s : State} (hc : clocksRun s = true) {region : Fin 512} {l : Load} {group : Option Nat}
    {first prog : Nat} {ws : List Word} {rest : List Ctl} (hl : s.load = some l)
    (h : s.ctl = .program region.val group first ws prog :: rest) :
    exec (.programFlit region) s = .next (flitTaken l region.val first prog ws rest s) := by
  have hcar : carrier { s with ctl := rest } = carrier s := funext (carrier_of_regions rfl)
  rw [flitTaken, wordsTaken, ← hcar, ← forAll_carriers, exec_programFlit, execProgramFlit, clocked, if_pos hc]
  simp only [takeCtl, h, List.findSome?_cons, if_true, List.eraseP_cons, Option.isSome_some, cond_true, hl, Option.map_some,
    Option.getD_some]
  rfl

theorem wordsTaken_frame (ks : List Nat) (first : Nat) (ws : List Word) (rest : List Ctl) (s : State) :
    wordsTaken ks first ws rest s = { s with ctl := rest, cores := (wordsTaken ks first ws rest s).cores } :=
  congrArg (fun t : State => { t with cores := (wordsTaken ks first ws rest s).cores })
    (forAll_keeps (fun t : State => { t with cores := [] }) (fun _ _ => by rfl) ks { s with ctl := rest })

section Taken
variable (l : Load) (n first prog : Nat) (ws : List Word) (rest : List Ctl) (s : State)

/-- The words of a flit stand at every core that names its program. -/
theorem flitTaken_in {id : Nat} (hid : id ∈ flitTargets l n prog) (i : Nat) (hi : i < ws.length) :
    tget 0 (getCore (flitTaken l n first prog ws rest s) (carrier s id)).istore (first + i) = ws[i] :=
  getCore_forAll_updCore_of_mem (List.mem_map_of_mem hid) (fun c => tget 0 c.istore (first + i) = ws[i])
    (fun c => tget_storeWords_in first ws c.istore i hi) { s with ctl := rest }

/-- The other words of every core stay. -/
theorem flitTaken_out {w : Nat} (hw : w < first ∨ first + ws.length ≤ w) (k : Nat) :
    tget 0 (getCore (flitTaken l n first prog ws rest s) k).istore w = tget 0 (getCore s k).istore w :=
  forAll_keeps (fun t => tget 0 (getCore t k).istore w)
    (fun j t => getCore_updCore_part (fun c => tget 0 c.istore w) (fun c => tget_storeWords_out hw c.istore) t j k)
    ((flitTargets l n prog).map (carrier s)) { s with ctl := rest }

/-- A core that carries no target stays. -/
theorem flitTaken_other {k : Nat} (h : ∀ id ∈ flitTargets l n prog, carrier s id ≠ k) :
    getCore (flitTaken l n first prog ws rest s) k = getCore s k := by
  have hk : k ∉ (flitTargets l n prog).map (carrier s) := by simpa using h
  exact getCore_forAll_updCore_of_notMem hk (takeWords first ws) { s with ctl := rest }

theorem flitTaken_check : (getRegion (flitTaken l n first prog ws rest s) n).programCheck
    = crcRun (getRegion s n).programCheck (flitBytes prog first ws) := by
  rw [flitTaken, getRegion_updRegion, wordsTaken_frame]
  rfl

/-- A flit changes cores and its region only, and has arrived. -/
theorem flitTaken_frame : flitTaken l n first prog ws rest s = { s with
    ctl := rest
    cores := (flitTaken l n first prog ws rest s).cores
    regions := (flitTaken l n first prog ws rest s).regions } := by
  rw [flitTaken, wordsTaken_frame]
  rfl

end Taken

end Sys2Proof.Machine
end

section
/-! SUPPORT. How a load that has started ends or repeats (R179, R180). -/

namespace Sys2Proof.Machine

open Sys2Proof

/-! ### Time passes -/

/-- The state without its clock, its counters and its regions: all that the passing of time moves is in those. -/
def offClock (s : State) : State :=
  { s with regions := [], cclk := 0, tid := 0, phase := 0, cnt := State.reset.cnt, dom := State.reset.dom }

/-- Counter numbers that the passing of cycles advances: CYC_RUN, SYNC_WAIT, THR_SWALLOWED, and those of the wafer's edge. -/
def cycleCounters : List Nat := [cCycRun, cSyncWait, 25, 7, 6, rThrSwallowed]

/-- Between two states only time passes: what moves is the clock, the regions and the counters of cycles. -/
def PassesOnly (s t : State) : Prop :=
  offClock t = offClock s ∧ ∀ u n, n < 65536 → n ∉ cycleCounters → getCtr t u n = getCtr s u n

theorem PassesOnly.refl (s : State) : PassesOnly s s := ⟨rfl, fun _ _ _ _ => rfl⟩

theorem PassesOnly.trans {s t u : State} (h : PassesOnly s t) (h' : PassesOnly t u) : PassesOnly s u :=
  ⟨h'.1.trans h.1, fun v n hn hm => (h'.2 v n hn hm).trans (h.2 v n hn hm)⟩

theorem PassesOnly.load {s t : State} (h : PassesOnly s t) : t.load = s.load := (congrArg State.load h.1 :)

theorem passesOnly_bumpBy {n : Nat} (h : n ∈ cycleCounters) (u v : Nat) (s : State) : PassesOnly s (bumpBy u n v s) := by
  have hn : n < 65536 := by
    simp only [cycleCounters, cCycRun, cSyncWait, rThrSwallowed, List.mem_cons, List.not_mem_nil, or_false] at h
    omega
  refine ⟨rfl, fun u' n' hn' hm => getCtr_bumpBy_ne u n v u' n' s ?_⟩
  have : n' ≠ n := fun e => hm (e ▸ h)
  unfold ctrKey
  omega

/-- A run of updates that pass time only passes time only. -/
theorem passesOnly_forAll {α : Type} {f : α → State → State} (h : ∀ x t, PassesOnly t (f x t)) (xs : List α) (s : State) :
    PassesOnly s (forAll xs f s) :=
  forAll_preserves (PassesOnly s) (fun x t ht => ht.trans (h x t)) xs (PassesOnly.refl s)

theorem passesOnly_ite {p : Prop} [Decidable p] {s t : State} (h : PassesOnly s t) : PassesOnly s (if p then t else s) := by
  split
  · exact h
  · exact PassesOnly.refl s

theorem passesOnly_passCycles (n : Nat) (s : State) : PassesOnly s (passCycles n s) := by
  unfold passCycles
  extract_lets s1 s2 s3 s5 s4
  have h1 : PassesOnly s s1 := passesOnly_forAll (fun e t => by
    have hr (m : Nat) : PassesOnly t (bumpBy (uCore e.1) cCycRun m t) := passesOnly_bumpBy (by decide) _ _ t
    dsimp only
    split
    · exact hr _
    · split
      · exact (hr _).trans (passesOnly_bumpBy (by decide) _ _ _)
      · exact hr _
    · exact PassesOnly.refl t) _ s
  have h2 : PassesOnly s1 s2 := passesOnly_forAll (fun e t => by exact passesOnly_ite (passesOnly_bumpBy (by decide) _ _ t)) _ s1
  have h3 : PassesOnly s2 s3 := passesOnly_forAll (fun e t => by exact passesOnly_ite (passesOnly_bumpBy (by decide) _ _ t)) _ s2
  have h5 : PassesOnly s3 s5 := passesOnly_forAll (fun e t => by exact passesOnly_ite (passesOnly_bumpBy (by decide) _ _ t)) _ s3
  have h4 : PassesOnly s5 s4 := passesOnly_forAll (fun e t => by
    have hr : PassesOnly t (updRegion t e.1 (fun r => { r with lvl := nextLevel r s.cclk n })) := ⟨rfl, fun _ _ _ _ => rfl⟩
    exact hr.trans (passesOnly_bumpBy (by decide) _ _ _)) _ s5
  have hc : PassesOnly s4 { s4 with cclk := s4.cclk + n } := ⟨rfl, fun _ _ _ _ => rfl⟩
  exact h1.trans (h2.trans (h3.trans (h5.trans (h4.trans hc))))

theorem passesOnly_clockTo (c : Nat) (s : State) : PassesOnly s (clockTo c s) := by
  unfold clockTo
  split
  · exact PassesOnly.refl s
  · split
    · exact ⟨rfl, fun _ _ _ _ => rfl⟩
    · exact (passesOnly_passCycles _ s).trans ⟨rfl, fun _ _ _ _ => rfl⟩

/-! ### A load ends without a bind -/

/-- The load is given up: its engine is IDLE, its regions are free, and its command, where it still stands, is refused with TIMEOUT
and CAUSE 15 (R179, R180). -/
def LoadGivenUp (l : Load) (s t : State) : Prop :=
  t.load = none ∧ (getEngine t l.eng).state = 0 ∧ (∀ m ∈ l.image.stage ++ l.image.reserve, (getRegion t m).held = false)
    ∧ ∀ i y, jobAt (getEngine s l.eng) l.ticket = some i → getJob s l.eng i = some y → y.lst = none →
        ((getFn s y.ticket.fn).resetBusy && (getFn s y.ticket.fn).flr) = false →
        Gains (uEngine 12) ceRefused 1 s t ∧ ∃ us, Completes l.eng i y stTimeout (loadResult 15 0xFFFFFFFF us) 0xFFFF noTide s t

/-- The regions of a load set free. -/
def freeRegions (l : Load) (s : State) : State :=
  forAll (l.image.stage ++ l.image.reserve) (fun n t => updRegion t n (fun r => { r with held := false, heldBy := none }))
    (clearGroup l.group s)

theorem offMesh_freeRegions (l : Load) (s : State) : offMesh (freeRegions l s) = offMesh s :=
  (forAll_keeps offMesh (fun n t => offMesh_updRegion t n _) _ _).trans (offMesh_clearGroup l.group s)

theorem freeRegions_held {l : Load} {m : Nat} (hm : m ∈ l.image.stage ++ l.image.reserve) (s : State) :
    (getRegion (freeRegions l s) m).held = false :=
  getRegion_forAll_updRegion_of_mem hm (fun r => r.held = false) (fun _ => by rfl) _

theorem dropLoad_eq {s : State} {l : Load} (h : s.load = some l) :
    dropLoad l.eng s = { updEngine (freeRegions l s) l.eng (fun g => { g with state := 0 }) with
      load := none
      ctl := (dropLoad l.eng s).ctl } := by
  simp only [dropLoad, h, ne_eq, not_true_eq_false, false_and, if_false]
  rfl

/-- The engine of a load that is dropped is IDLE, and the rest of it stays. -/
theorem getEngine_dropLoad {s : State} {l : Load} (h : s.load = some l) :
    getEngine (dropLoad l.eng s) l.eng = { getEngine s l.eng with state := 0 } := by
  have he : getEngine (freeRegions l s) l.eng = getEngine s l.eng :=
    congrArg (fun g => tget Engine.init g l.eng) (congrArg State.engines (offMesh_freeRegions l s) :)
  rw [dropLoad_eq h, ← he]
  exact getEngine_updEngine (freeRegions l s) l.eng (fun g => { g with state := 0 })

/-- A load that is dropped leaves functions, ring pairs and counters. -/
theorem dropLoad_keeps {s : State} {l : Load} (h : s.load = some l) :
    (dropLoad l.eng s).fns = s.fns ∧ (dropLoad l.eng s).pairs = s.pairs ∧ (dropLoad l.eng s).cnt = s.cnt := by
  have ho := offMesh_freeRegions l s
  rw [dropLoad_eq h]
  exact ⟨(congrArg State.fns ho :), (congrArg State.pairs ho :), (congrArg State.cnt ho :)⟩

theorem dropLoad_held {s : State} {l : Load} (h : s.load = some l) {m : Nat} (hm : m ∈ l.image.stage ++ l.image.reserve) :
    (getRegion (dropLoad l.eng s) m).held = false := by
  rw [dropLoad_eq h]
  exact freeRegions_held hm s

/-- What a refusal leaves of a state, beside the command and the counter. -/
theorem refuseLoad_keeps (e j st cause off us : Nat) (s : State) :
    let t := refuseLoad e j st cause off us s
    t.load = s.load ∧ t.regions = s.regions ∧ ∀ k, (getEngine t k).state = (getEngine s k).state := by
  obtain ⟨u, r, h⟩ := refuseLoad_eq e j st cause off us s
  refine ⟨?_, ?_, fun k => ?_⟩
  · rw [refuseLoad_frame]
  · rw [refuseLoad_frame]
  · rw [h]
    exact getEngine_endJob_part Engine.state (fun _ _ => rfl) e j st _ _ k

theorem loadGivenUp_failLoad {s : State} {l : Load} (h : s.load = some l) : LoadGivenUp l s (failLoad l stTimeout 15 s) := by
  have hd : (dropLoad l.eng s).load = none := by rw [dropLoad_eq h]
  have hg := getEngine_dropLoad h
  obtain ⟨hfn, hpairs, hcnt⟩ := dropLoad_keeps h
  have hj : jobAt (getEngine (dropLoad l.eng s) l.eng) l.ticket = jobAt (getEngine s l.eng) l.ticket := by rw [hg]; rfl
  unfold failLoad
  dsimp only
  rw [hj]
  cases hi : jobAt (getEngine s l.eng) l.ticket with
  | none => exact ⟨hd, by rw [hg], fun m hm => dropLoad_held h hm, fun i y hiy => by rw [hi] at hiy; cases hiy⟩
  | some i =>
    obtain ⟨kload, kregions, kstate⟩ := refuseLoad_keeps l.eng i stTimeout 15 0xFFFFFFFF (nowUs s - l.startUs) (dropLoad l.eng s)
    refine ⟨kload.trans hd, (kstate l.eng).trans (by rw [hg]), fun m hm => ?_, fun i' y hi' hy hl hf => ?_⟩
    · rw [getRegion, kregions]
      exact dropLoad_held h hm
    · obtain rfl : i = i' := Option.some.inj (hi.symm.trans hi')
      have hy' : getJob (dropLoad l.eng s) l.eng i = some y := by rw [getJob, hg]; exact hy
      have hf' : ((getFn (dropLoad l.eng s) y.ticket.fn).resetBusy && (getFn (dropLoad l.eng s) y.ticket.fn).flr) = false := by
        rw [getFn, hfn]
        exact hf
      refine ⟨?_, _, (completes_refuseLoad hy' hl hf' stTimeout 15 0xFFFFFFFF (nowUs s - l.startUs)).since rfl (by rw [hg]) hpairs⟩
      have gain := gains_refuseLoad l.eng i stTimeout 15 0xFFFFFFFF (nowUs s - l.startUs) (dropLoad l.eng s)
      have hctr : getCtr (dropLoad l.eng s) (uEngine 12) ceRefused = getCtr s (uEngine 12) ceRefused := getCtr_of_cnt hcnt _ _
      rw [Gains, hctr] at gain
      exact gain

/-- A load given up after time has passed is given up. -/
theorem LoadGivenUp.since {s s' t : State} {l : Load} (h : LoadGivenUp l s' t) (hs : PassesOnly s s') : LoadGivenUp l s t := by
  obtain ⟨hload, hstate, hheld, hjob⟩ := h
  have he : s'.engines = s.engines := (congrArg State.engines hs.1 :)
  have hfn : s'.fns = s.fns := (congrArg State.fns hs.1 :)
  have hpairs : s'.pairs = s.pairs := (congrArg State.pairs hs.1 :)
  have hctr := hs.2 (uEngine 12) ceRefused (by decide) (by decide)
  refine ⟨hload, hstate, hheld, fun i y hi hy hl hf => ?_⟩
  have hg (k : Nat) : getEngine s' k = getEngine s k := by rw [getEngine, he, getEngine]
  obtain ⟨gain, us, done⟩ := hjob i y (by rw [hg]; exact hi) (by rw [getJob, hg]; exact hy) hl (by rw [getFn, hfn]; exact hf)
  refine ⟨?_, us, done.since rfl (by rw [hg]) hpairs⟩
  rw [Gains, hctr] at gain
  exact gain

/-! ### A region gets its records and programs once more -/

/-- No program flit to region `n`. -/
def notProgramTo (n : Nat) (c : Ctl) : Bool :=
  match c with
  | .program m _ _ _ _ => decide (m ≠ n)
  | _ => true

/-- The region's records and programs are sent once more, by unicast, and that is counted (R179). -/
def SentAgain (l : Load) (n : Nat) (s t : State) : Prop :=
  Gains (uEngine 12) ceResends 1 s t ∧ (∃ u, t.load = some { l with resent := l.resent ++ [n], sentUs := u })
    ∧ t.ctl = s.ctl.filter (notProgramTo n) ++ flitsTo l.image none n

/-- Region `n` with its checks at their first value and its records written once more. -/
def rewritten (l : Load) (n : Nat) (s : State) : State :=
  loadRecords l.image n n (updRegion s n (fun r => { r with recordCheck := 0xFFFFFFFF, programCheck := 0xFFFFFFFF }))

theorem offMesh_rewritten (l : Load) (n : Nat) (s : State) : offMesh (rewritten l n s) = offMesh s := by
  rw [rewritten, offMesh_loadRecords, offMesh_updRegion]

theorem resendRegion_eq {l : Load} {n : Nat} (h : n ∉ l.resent) (s : State) : ∃ u r,
    resendRegion l n s = { sendPrograms l.image none n (rewritten l n
        (bump (uEngine 12) ceResends (logAt u r { s with ctl := s.ctl.filter (notProgramTo n) }))) with
      load := some { l with resent := l.resent ++ [n], sentUs := nowUs s } } :=
  ⟨_, _, if_neg (by simpa using h)⟩

theorem resendRegion_again {l : Load} {n : Nat} (h : n ∉ l.resent) (s : State) : SentAgain l n s (resendRegion l n s) := by
  obtain ⟨u, r, he⟩ := resendRegion_eq h s
  have ho := offMesh_rewritten l n (bump (uEngine 12) ceResends (logAt u r { s with ctl := s.ctl.filter (notProgramTo n) }))
  rw [he, sendPrograms_eq]
  refine ⟨?_, ⟨nowUs s, rfl⟩, congrArg (· ++ flitsTo l.image none n) (congrArg State.ctl ho :)⟩
  have hc := getCtr_bumpBy (uEngine 12) ceResends 1 (logAt u r { s with ctl := s.ctl.filter (notProgramTo n) })
  exact (getCtr_of_cnt (congrArg State.cnt ho :) _ _).trans hc

theorem resendRegion_givenUp {s : State} {l : Load} (hl : s.load = some l) {n : Nat} (h : n ∈ l.resent) :
    LoadGivenUp l s (resendRegion l n s) := by
  rw [resendRegion, if_pos (by simpa using h)]
  exact loadGivenUp_failLoad hl

theorem SentAgain.since {s s' t : State} {l : Load} {n : Nat} (h : SentAgain l n s' t) (hs : PassesOnly s s') : SentAgain l n s t := by
  obtain ⟨gain, hload, hctl⟩ := h
  rw [Gains, hs.2 (uEngine 12) ceResends (by decide) (by decide)] at gain
  rw [show s'.ctl = s.ctl from (congrArg State.ctl hs.1 :)] at hctl
  exact ⟨gain, hload, hctl⟩

end Sys2Proof.Machine
end

section
/-! SUPPORT. What the last confirmation of a load binds (R179, R190). -/

namespace Sys2Proof.Machine

open Sys2Proof

/-! ### The regions -/

theorem regions_forAll_updCore (ids : List Nat) (key : State → Nat → Nat) (f : Core → Core) (s : State) :
    (forAll ids (fun id t => updCore t (key t id) f) s).regions = s.regions :=
  forAll_keeps State.regions (fun id t => updCore_regions t (key t id) f) ids s

/-- A region that is bound to an engine and held by no load. -/
def BoundTo (e : Fin 8) (r : Region) : Prop := r.engine = some e ∧ r.held = false

theorem boundTo_bindRegion_self (im : Image) (e n : Nat) (s : State) :
    BoundTo (Fin.ofNat 8 e) (getRegion (bindRegion im e n s) n) := by
  rw [bindRegion, getRegion_updRegion]
  exact ⟨rfl, rfl⟩

/-- Binding a region leaves every other region. -/
theorem getRegion_bindRegion_ne {n m : Nat} (h : m ≠ n) (im : Image) (e : Nat) (s : State) :
    getRegion (bindRegion im e n s) m = getRegion s m := by
  rw [bindRegion, getRegion_updRegion_ne _ n m _ h, getRegion, regions_forAll_updCore (regionIds im n) carrier, getRegion]

theorem slide_bindRegion (im : Image) (e n m : Nat) (s : State) :
    (getRegion (bindRegion im e n s) m).slide = (getRegion s m).slide := by
  rw [bindRegion, getRegion_updRegion_part Region.slide (fun _ => by rfl), getRegion,
    regions_forAll_updCore (regionIds im n) carrier, getRegion]

/-- The stage regions of a load bound, in a state whose load has ended. -/
def boundRegions (l : Load) (s : State) : State :=
  forAll l.image.stage (bindRegion l.image l.eng) { clearGroup l.group s with load := none }

theorem boundTo_boundRegions {l : Load} {m : Nat} (hm : m ∈ l.image.stage) (s : State) :
    BoundTo (Fin.ofNat 8 l.eng) (getRegion (boundRegions l s) m) :=
  forAll_establishes (fun t => BoundTo (Fin.ofNat 8 l.eng) (getRegion t m)) (boundTo_bindRegion_self l.image l.eng m)
    (fun n t h => by
      by_cases hn : m = n
      · rw [← hn]
        exact boundTo_bindRegion_self l.image l.eng m t
      · rw [getRegion_bindRegion_ne hn]
        exact h) hm _

theorem offMesh_boundRegions (l : Load) (s : State) : offMesh (boundRegions l s) = offMesh { s with load := none } :=
  (forAll_keeps offMesh (offMesh_bindRegion l.image l.eng) l.image.stage _).trans
    (congrArg (fun t : State => { t with load := none }) (offMesh_clearGroup l.group s))

theorem carrier_boundRegions (l : Load) (s : State) (id : Nat) : carrier (boundRegions l s) id = carrier s id := by
  refine carrier_of_slides (fun m => ?_) id
  have hs := forAll_keeps (fun t => (getRegion t m).slide) (fun n t => slide_bindRegion l.image l.eng n m t) l.image.stage
    { clearGroup l.group s with load := none }
  have hg := congrArg (fun t => (getRegion t m).slide) (offRouters_clearGroup l.group s)
  exact hs.trans hg

/-! ### The cores and the engine -/

/-- The stage regions bound, and every core of the image without a committed tide. -/
def boundCores (l : Load) (s : State) : State :=
  forAll (imageCores l.image) (fun id t => updCore t (carrier t id) noCommit) (boundRegions l s)

theorem offMesh_boundCores (l : Load) (s : State) : offMesh (boundCores l s) = offMesh { s with load := none } :=
  (forAll_keeps offMesh (fun id t => offMesh_updCore t (carrier t id) noCommit) (imageCores l.image) _).trans
    (offMesh_boundRegions l s)

theorem regions_boundCores (l : Load) (s : State) : (boundCores l s).regions = (boundRegions l s).regions :=
  regions_forAll_updCore (imageCores l.image) carrier noCommit _

theorem tlast_boundCores {l : Load} {id : Nat} (h : id ∈ imageCores l.image) (s : State) :
    (getCore (boundCores l s) (carrier s id)).tlast = noTide := by
  have hc : carrier (boundRegions l s) = carrier s := funext (carrier_boundRegions l s)
  rw [boundCores, forAll_carriers, hc]
  exact getCore_forAll_updCore_of_mem (List.mem_map_of_mem h) (fun c => c.tlast = noTide) (fun _ => by rfl) _

/-- The engine of a load as it is bound at CCLK cycle `c` and time `t` (R190). -/
def boundEngine (im : Image) (c : Nat) (t : DWord) (g : Engine) : Engine :=
  { g with state := 2, image := some im, boundAt := c, tide := {}, auditBase := t, auditDone := t, auditRun := none }

/-- The mesh and the engine of a load bound. -/
def boundMesh (l : Load) (s : State) : State := updEngine (boundCores l s) l.eng (boundEngine l.image s.cclk s.tid)

/-- Everything of a bind but the end of its command. -/
def boundState (l : Load) (s : State) : State :=
  bump (uEngine 12) ceLoads (setRgnEng l.image.stage (some (Fin.ofNat 8 l.eng)) (boundMesh l s))

theorem getEngine_boundCores (l : Load) (s : State) (k : Nat) : getEngine (boundCores l s) k = getEngine s k :=
  congrArg (fun g => tget Engine.init g k) (congrArg State.engines (offMesh_boundCores l s) :)

/-- An image without channels bound beside engines without an image joins no two periods (R82). -/
theorem periodClash_boundEngine {l : Load} {s : State} (hc : l.image.chans = []) (ho : ∀ k, k ≠ l.eng → (getEngine s k).image = none)
    (p : BitVec 3) : periodClash (boundMesh l s) l.eng p = false := by
  have hne (k : Nat) (hk : k ≠ l.eng) : (getEngine (boundMesh l s) k).image = none := by
    rw [boundMesh, getEngine_updEngine_ne _ _ _ _ hk, getEngine_boundCores, ho k hk]
  have him : (getEngine (boundMesh l s) l.eng).image = some l.image := by
    rw [boundMesh, getEngine_updEngine]
    rfl
  simp only [periodClash, him, Option.map_some, Option.getD_some, hc, List.any_nil, Bool.false_or,
    List.any_eq_false]
  intro k _
  by_cases hk : k = l.eng
  · simp [hk]
  · simp [hne k hk]

theorem setRgnEng_frame (ns : List Nat) (v : Option (Fin 8)) (s : State) : ∃ hs, setRgnEng ns v s = { s with harbours := hs } :=
  ⟨(setRgnEng ns v s).harbours, congrArg (fun t : State => { t with harbours := (setRgnEng ns v s).harbours })
    (forAll_keeps (fun t : State => { t with harbours := [] }) (fun _ _ => by rfl) (List.range 4) s)⟩

theorem boundState_frame (l : Load) (s : State) : ∃ hs c, boundState l s = { boundMesh l s with harbours := hs, cnt := c } := by
  obtain ⟨hs, h⟩ := setRgnEng_frame l.image.stage (some (Fin.ofNat 8 l.eng)) (boundMesh l s)
  rw [boundState, h]
  exact ⟨hs, _, rfl⟩

theorem getEngine_boundState (l : Load) (s : State) :
    getEngine (boundState l s) l.eng = boundEngine l.image s.cclk s.tid (getEngine s l.eng) := by
  obtain ⟨hs, c, h⟩ := boundState_frame l s
  rw [h, ← getEngine_boundCores l s]
  exact getEngine_updEngine (boundCores l s) l.eng _

/-- The fields of a bound state off the mesh, the engine, the Harbours and the counters. -/
theorem boundState_keeps (l : Load) (s : State) :
    (boundState l s).load = none ∧ (boundState l s).fns = s.fns ∧ (boundState l s).pairs = s.pairs := by
  have ho := offMesh_boundCores l s
  obtain ⟨hs, c, h⟩ := boundState_frame l s
  rw [h]
  exact ⟨(congrArg State.load ho :), (congrArg State.fns ho :), (congrArg State.pairs ho :)⟩

theorem boundTo_boundState {l : Load} {m : Nat} (hm : m ∈ l.image.stage) (s : State) :
    BoundTo (Fin.ofNat 8 l.eng) (getRegion (boundState l s) m) := by
  obtain ⟨hs, c, h⟩ := boundState_frame l s
  have hr : (boundState l s).regions = (boundRegions l s).regions := by
    rw [h]
    exact regions_boundCores l s
  rw [getRegion, hr]
  exact boundTo_boundRegions hm s

theorem tlast_boundState {l : Load} {id : Nat} (h : id ∈ imageCores l.image) (s : State) :
    (getCore (boundState l s) (carrier s id)).tlast = noTide := by
  obtain ⟨hs, c, he⟩ := boundState_frame l s
  rw [he]
  exact tlast_boundCores h s

theorem gains_boundState (l : Load) (s : State) : Gains (uEngine 12) ceLoads 1 s (boundState l s) := by
  obtain ⟨hs, h⟩ := setRgnEng_frame l.image.stage (some (Fin.ofNat 8 l.eng)) (boundMesh l s)
  have hc : (boundMesh l s).cnt = s.cnt := (congrArg State.cnt (offMesh_boundCores l s) :)
  have hg := getCtr_bumpBy (uEngine 12) ceLoads 1 { boundMesh l s with harbours := hs }
  rw [Gains, boundState, h, ← getCtr_of_cnt hc]
  exact hg

/-! ### The bind -/

/-- The image of a load is bound (R179, R190). -/
def LoadBound (l : Load) (s t : State) : Prop :=
  t.load = none ∧ (getEngine t l.eng).state = 2 ∧ (getEngine t l.eng).image = some l.image
    ∧ (∀ m ∈ l.image.stage, BoundTo (Fin.ofNat 8 l.eng) (getRegion t m))
    ∧ (∀ id ∈ imageCores l.image, (getCore t (carrier s id)).tlast = noTide)
    ∧ Gains (uEngine 12) ceLoads 1 s t

theorem loadBound_boundState (l : Load) (s : State) : LoadBound l s (boundState l s) :=
  ⟨(boundState_keeps l s).1, by rw [getEngine_boundState]; rfl, by rw [getEngine_boundState]; rfl,
    fun _ hm => boundTo_boundState hm s, fun _ h => tlast_boundState h s, gains_boundState l s⟩

/-- The end of the command of a load leaves the image bound. -/
theorem LoadBound.endJob {l : Load} {s t : State} (h : LoadBound l s t) (e j code : Nat) (result : List Byte) :
    LoadBound l s (endJob e j code result t) := by
  obtain ⟨load, state, image, regions, cores, gain⟩ := h
  refine ⟨?_, ?_, ?_, fun m hm => ?_, fun id hid => ?_, ?_⟩
  · rw [endJob_frame]
    exact load
  · rw [getEngine_endJob_part Engine.state (fun _ _ => rfl)]
    exact state
  · rw [getEngine_endJob_part Engine.image (fun _ _ => rfl)]
    exact image
  · rw [endJob_frame]
    exact regions m hm
  · rw [endJob_frame]
    exact cores id hid
  · rw [endJob_frame]
    exact gain

section Bind
variable {l : Load} {s : State} (hc : l.image.chans = []) (ho : ∀ k, k ≠ l.eng → (getEngine s k).image = none)
include hc ho

/-- The last confirmation binds an image without channels, where no other engine has one. -/
theorem bindLoad_eq : bindLoad l s = match jobAt (getEngine (boundState l s) l.eng) l.ticket with
    | none => boundState l s
    | some j => endJob l.eng j stOk (loadResult 0 0xFFFFFFFF (nowUs s - l.startUs)) (boundState l s) :=
  if_neg (by
    rw [Bool.not_eq_true]
    exact periodClash_boundEngine hc ho _)

theorem loadBound_bindLoad : LoadBound l s (bindLoad l s) := by
  rw [bindLoad_eq hc ho]
  split
  · exact loadBound_boundState l s
  · exact (loadBound_boundState l s).endJob _ _ _ _

/-- The command of a load that is bound completes with OK. -/
theorem completes_bindLoad {i : Nat} {y : Job} (hi : jobAt (getEngine s l.eng) l.ticket = some i)
    (hy : getJob s l.eng i = some y) (hl : y.lst = none)
    (hf : ((getFn s y.ticket.fn).resetBusy && (getFn s y.ticket.fn).flr) = false) :
    Completes l.eng i y stOk (loadResult 0 0xFFFFFFFF (nowUs s - l.startUs)) 0xFFFF noTide s (bindLoad l s) := by
  have hg := getEngine_boundState l s
  obtain ⟨-, hfn, hpairs⟩ := boundState_keeps l s
  have hi' : jobAt (getEngine (boundState l s) l.eng) l.ticket = some i := by rw [hg]; exact hi
  have hy' : getJob (boundState l s) l.eng i = some y := by rw [getJob, hg]; exact hy
  have hf' : ((getFn (boundState l s) y.ticket.fn).resetBusy && (getFn (boundState l s) y.ticket.fn).flr) = false := by
    rw [getFn, hfn]
    exact hf
  rw [bindLoad_eq hc ho, hi']
  exact (completes_endJob hy' hl hf' stOk _).since rfl (by rw [hg]; rfl) hpairs

end Bind

end Sys2Proof.Machine
end

section
/-! SUPPORT. The rows REGION_CONFIRM and CONFIRM_TIMEOUT, and the statement about image loads. -/

namespace Sys2Proof.Machine

open Sys2Proof

/-! ### Confirmations (R179) -/

/-- The checks of a region are those that pass 1 computed. -/
abbrev checksAgree (s : State) (l : Load) (n : Nat) : Bool :=
  l.expect.contains (n, (getRegion s n).recordCheck, (getRegion s n).programCheck)

section Confirm
variable {s : State} {l : Load} (hl : s.load = some l) {region : Fin 512}
include hl

theorem exec_regionConfirm_waits (h : waitsFor l region.val = false ∨ flitsLeft s region.val = true ∨ regionOffline s region.val = true)
    (d : Bool) : exec (.regionConfirm region d) s = .next s := by
  have hw : (!waitsFor l region.val) = true ∨ flitsLeft s region.val = true ∨ regionOffline s region.val = true := by simpa using h
  rw [exec_regionConfirm, execRegionConfirm, clocked]
  simp only [hl, if_pos hw, ite_self]

theorem exec_confirmTimeout_waits (h : waitsFor l region.val = false) : exec (.confirmTimeout region) s = .next s := by
  rw [exec_confirmTimeout, execConfirmTimeout, clocked]
  simp only [hl, h, Bool.not_false, if_true, ite_self]

variable (hc : clocksRun s = true) (hw : waitsFor l region.val = true)
include hc hw

theorem exec_confirmTimeout_due : exec (.confirmTimeout region) s =
    .next (resendRegion l region.val (clockTo (tcycle s + ((l.sentUs + 1000 - nowUs s) * 12288 + 9) / 10) s)) := by
  rw [exec_confirmTimeout, execConfirmTimeout, clocked, if_pos hc]
  simp only [hl, hw, Bool.not_true, Bool.false_eq_true, if_false]

variable (hf : flitsLeft s region.val = false) (ho : regionOffline s region.val = false)
include hf ho

theorem exec_regionConfirm_differs {d : Bool} (h : d = true ∨ ¬ checksAgree s l region.val = true) :
    exec (.regionConfirm region d) s = .next (resendRegion l region.val s) := by
  have hb : d = true ∨ (!checksAgree s l region.val) = true := by simpa using h
  rw [exec_regionConfirm, execRegionConfirm, clocked, if_pos hc]
  simp only [hl, hw, hf, ho, Bool.not_true, Bool.false_eq_true, or_self, if_false, if_pos hb]

theorem exec_regionConfirm_agrees (h : checksAgree s l region.val = true) :
    exec (.regionConfirm region false) s = .next (
      if l.image.stage.all (l.confirmed ++ [region.val]).contains then bindLoad { l with confirmed := l.confirmed ++ [region.val] } s
      else { s with load := some { l with confirmed := l.confirmed ++ [region.val] } }) := by
  rw [exec_regionConfirm, execRegionConfirm, clocked, if_pos hc]
  simp only [hl, hw, hf, ho, h, Bool.not_true, Bool.false_eq_true, or_self, if_false]

end Confirm

/-- A row of a confirmation does nothing without a load. -/
theorem exec_confirm_unloaded {s : State} (hl : s.load = none) (region : Fin 512) :
    exec (.regionConfirm region false) s = .next s ∧ exec (.confirmTimeout region) s = .next s := by
  constructor
  · rw [exec_regionConfirm, execRegionConfirm, clocked]
    simp only [hl, ite_self]
  · rw [exec_confirmTimeout, execConfirmTimeout, clocked]
    simp only [hl, ite_self]

/-- Every stage region has confirmed when region `n` has. -/
theorem allConfirmed_iff (l : Load) (n : Nat) :
    l.image.stage.all (l.confirmed ++ [n]).contains = true ↔ ∀ m ∈ l.image.stage, m = n ∨ m ∈ l.confirmed := by
  simp only [List.all_eq_true, List.contains_iff_mem, List.mem_append, List.mem_singleton, or_comm]

/-- A region that is silent a second time brings the load to its end. -/
theorem loadGivenUp_timeout {s : State} {l : Load} (hl : s.load = some l) {n : Nat} (h : n ∈ l.resent) (c : Nat) :
    LoadGivenUp l s (resendRegion l n (clockTo c s)) := by
  have hp := passesOnly_clockTo c s
  exact (resendRegion_givenUp (hp.load.trans hl) h).since hp

/-- The last confirmation of an image without channels binds it, where no other engine has an image. -/
theorem loadBound_confirmed {s : State} {l : Load} {n : Nat} (hchans : l.image.chans = [])
    (hothers : ∀ k, k ≠ l.eng → (getEngine s k).image = none) :
    LoadBound l s (bindLoad { l with confirmed := l.confirmed ++ [n] } s) :=
  loadBound_bindLoad (l := { l with confirmed := l.confirmed ++ [n] }) hchans hothers

end Sys2Proof.Machine

open Sys2Proof Sys2Proof.Machine

/-- Settles O42: the row IMAGE_LOAD by the verdict of pass 1 and what a started load leaves; PROGRAM_FLIT by the words that each
carrier takes; the two rows of a confirmation by what is sent again, given up, or bound. -/
theorem imagesLoadConfirmAndBind : Obligations.ImagesLoadConfirmAndBind := by
  unfold Obligations.ImagesLoadConfirmAndBind
  intro s region hc n
  refine ⟨fun e j x err => ⟨fun hl => exec_imageLoad_waits hl e j err, fun hl h => ⟨fun ha => ?_, fun ha he => ?_,
    fun st cause off ha he hv => ?_, fun ha he hv => ?_⟩⟩, fun l group first prog ws rest hl h => ?_,
    fun hl => exec_confirm_unloaded hl region, fun l hl => ?_⟩
  · exact ⟨_, exec_imageLoad_misaligned hc hl h ha err, completes_begun h _ _⟩
  · rw [he]
    exact ⟨_, exec_imageLoad_unread hc hl h ha, refuseLoad_given h stBad 16 0xFFFFFFFF⟩
  · rw [he]
    exact ⟨_, exec_imageLoad_found hc hl h ha hv, refuseLoad_given h st cause off⟩
  · rw [he]
    refine ⟨_, exec_imageLoad_starts hc hl h ha hv, startLoad_load _ _ _ _, startLoad_state _ _ _ _, fun m hm => ?_,
      fun m hm k hk => ?_, startLoad_ctl _ _ _ _⟩
    · have hh := startLoad_holds (e := e.val) hm x (begun s e.val j)
      rw [Fin.ofNat_val_eq_self] at hh
      exact Prod.ext_iff.1 hh
    · exact Prod.ext_iff.1 (startLoad_clears hm hk e.val x (begun s e.val j))
  · exact ⟨_, exec_programFlit_takes hc hl h, fun id hid => flitTaken_in l n first prog ws rest s hid,
      fun id _ w hw => flitTaken_out l n first prog ws rest s hw (carrier s id), fun k hk => flitTaken_other l n first prog ws rest s hk,
      flitTaken_check l n first prog ws rest s, flitTaken_frame l n first prog ws rest s⟩
  · intro r good again failed
    refine ⟨fun d hw => exec_regionConfirm_waits hl hw d, fun hw hf ho => ⟨fun d hd hn => ?_, fun d hd hn => ?_,
      fun hg hm => ?_, fun hg hm hchans hothers => ?_⟩, exec_confirmTimeout_waits hl, fun hw hn => ?_, fun hw hn => ?_⟩
    · exact ⟨_, exec_regionConfirm_differs hl hc hw hf ho hd, resendRegion_again hn s⟩
    · exact ⟨_, exec_regionConfirm_differs hl hc hw hf ho hd, resendRegion_givenUp hl hn⟩
    · have hall : ¬ l.image.stage.all (l.confirmed ++ [n]).contains = true := by
        obtain ⟨m, hstage, hne, hnot⟩ := hm
        exact fun h => ((allConfirmed_iff l n).1 h m hstage).elim hne hnot
      exact ⟨_, exec_regionConfirm_agrees hl hc hw hf ho hg, if_neg hall⟩
    · have hall := (allConfirmed_iff l n).2 hm
      obtain ⟨load, state, image, regions, cores, gain⟩ := loadBound_confirmed (n := n) hchans hothers
      refine ⟨_, (exec_regionConfirm_agrees hl hc hw hf ho hg).trans (congrArg _ (if_pos hall)), load, state, image, regions, cores,
        gain, fun i y hi hy hlst hfn => ?_⟩
      exact completes_bindLoad (l := { l with confirmed := l.confirmed ++ [n] }) hchans hothers hi hy hlst hfn
    · exact ⟨_, exec_confirmTimeout_due hl hc hw, (resendRegion_again hn _).since (passesOnly_clockTo _ s)⟩
    · exact ⟨_, exec_confirmTimeout_due hl hc hw, loadGivenUp_timeout hl hn _⟩
end
